-- ==== Sys2Proof/Word.lean ====
section
/-! DEFINITION. The word types and unit numbers of the YLF-7200 (00_scope.md, "Indices and names"). -/

namespace Sys2Proof

/-- One byte of memory. -/
abbrev Byte := BitVec 8

/-- A 128-bit command of a matrix core's stream (R234), or a message header (R427). -/
abbrev Word128 := BitVec 128

/-- A physical matrix core p, 0 to 71, in canton p / 9 (R11). -/
abbrev CoreId := Fin 72

/-- A canton c, 0 to 7. -/
abbrev CantonId := Fin 8

/-- A signal core s, 0 to 31 (R326). -/
abbrev SigId := Fin 32

/-- A partition k, 0 to 15 (R292). -/
abbrev PartId := Fin 16

/-- A cell, 0 to 2 (R362). -/
abbrev CellId := Fin 3

/-- A Brim link l, 0 to 3. -/
abbrev LinkId := Fin 4

/-- A tunnel t, 0 to 7 (R437). -/
abbrev TunnelId := Fin 8

/-- A field port q, 0 to 7. -/
abbrev PortId := Fin 8

/-- A DMA engine e: 0 to 71 the core DMAs, 72 to 79 the canton DMAs, 80 to 83 the Brim DMAs (R217). -/
abbrev EngineId := Fin 84

/-- A queue set: 0 to 15 on the physical function, 16 + v for virtual function v (R500). -/
abbrev QSet := Fin 32

/-- A PCIe function: 0 the physical function, 1 + v virtual function v (R499). -/
abbrev FuncId := Fin 17

/-- A TIME96 value (R458): SEC in [95:48], NSEC in [47:16], SUBNS in [15:0]. -/
abbrev Time96 := BitVec 96

end Sys2Proof
end

