-- ==== Sys2Proof/Syntax.lean ====
section
/-! DEFINITION. The commands of the block: one constructor per row of spec/opcode_table.json, with the operands
that the outside (or the step's own place in the device) gives it. What a step reads from the device itself (the
stream command at the head of a core's fetched commands, the instruction at a signal core's PC, the front of a
queue) is no operand. -/

namespace Sys2Proof

/-- Who asks the object dictionary (R482). -/
inductive Requester where
  | crown
  | pf
  | vf (v : Fin 16)
  | can (b : Fin 2)
  | inband (src : Nat)
  | mgmt (node : Nat)
deriving DecidableEq, Repr

/-- How a CAN frame is sent (R487): its identifier, whether it is an FD frame, a remote frame, one of 29 bits, and the rate of
its data phase in Mbit/s. -/
structure CanHead where
  id : Nat
  fd : Bool
  remote : Bool
  extended : Bool
  rate : Nat
deriving DecidableEq, Repr

/-- A path that carries CAN-style access frames: a CAN FD bus, with the head of the frames on it, or an in-band source address
(R487, R489). -/
inductive Path where
  | can (b : Fin 2) (h : CanHead)
  | inband (src : Nat)
deriving DecidableEq, Repr

/-- Whose request a memory access is (R183): Crown's, or one of a partition's. -/
inductive Who where
  | crown
  | part (k : PartId)
deriving DecidableEq, Repr

/-- The masters of a bank in the orders of R170 and R179. `dma` is a core's own DMA, `crossbar` what enters the core from
the canton crossbar: one class of R170. -/
inductive Master where
  | drain | feeders | loader | vector | dma | crossbar | sequencer
  | corePort (i : Fin 9) | cantonDma | ringPort
  | signalCore | network
  | scrub
deriving DecidableEq, Repr

/-- One access to a node-local address of 52 bits, mode bits [49:48] included (R166). `core` is the physical core (or
signal core) whose sequencer or engine makes it, `seq` whether a core's sequencer originated it (R177). -/
structure MemReq where
  master : Master
  who : Who
  core : Nat
  seq : Bool
  addr : Nat
  len : Nat
  data : Nat
deriving DecidableEq, Repr

/-- What an access does (R166). -/
inductive AccKind where
  | read | write | set | clr
deriving DecidableEq, Repr

/-- An access of one of these kinds: what masters that meet at a bank in one cycle ask for (R170 to R178). -/
structure MemAccess where
  kind : AccKind
  req : MemReq
deriving DecidableEq, Repr

/-- An access of one master, and the accesses of other masters that ask for the memories in its cycle (R170 to R178). -/
structure MemTurn where
  req : MemReq
  others : List MemAccess
deriving DecidableEq, Repr

/-- The signal core of a POST, and the accesses that ask for the memories in the cycle of its write (R177, R349). -/
structure PostTurn where
  core : SigId
  others : List MemAccess
deriving DecidableEq, Repr

/-- Who submits a transfer descriptor (R218): a core's DMA command, or Crown, with the descriptor in its own memory. -/
inductive DmaFrom where
  | core (p : CoreId)
  | crown (e : EngineId) (desc : Nat)
deriving DecidableEq, Repr

/-- What has happened to the storage cells of the word about to be read (R185, R186): a hardware event, so an
operand. -/
inductive Upset where
  | none
  | single
  | double
deriving DecidableEq, Repr

/-- A bit error of the array's hardware (R126), an operand because only the hardware brings it about: the column and
rounding unit it falls in, the check point whose value it changes (stages 8 to 11 where a row lands; 0 and unit 0 for an
accumulator that a drain reads) and by how much. What the residue checks make of it is the device's. -/
structure BitError where
  col : Nat
  unit : Nat
  stage : Nat
  delta : Int
deriving DecidableEq, Repr

/-- A fabric message: its header (R427) and its payload of 8 x LEN bytes, byte 0 lowest. -/
structure Msg where
  hdr : Word128
  payload : Nat
deriving DecidableEq, Repr

/-- A CAN or in-band access frame (R488): ERR or SEQ in `arg`, LEN, and the data bytes as a number. `dlen` is the
number of data bytes the frame carries. -/
structure AccFrame where
  cmd : Nat
  arg : Nat
  index : Nat
  sub : Nat
  len : Nat
  dlen : Nat
  data : Nat
deriving DecidableEq, Repr

/-- An in-band datagram to UDP port 48620 (R491). -/
structure Datagram where
  port : PortId
  vlan : Nat
  secured : Bool
  sa : Nat
  srcIp : Nat
  dstIp : Nat
  version : Nat
  kind : Nat
  reqId : Nat
  frame : AccFrame
deriving DecidableEq, Repr

/-- A frame as the MAC of a field port receives it (R468, R469): `len` bytes, byte i of the wire byte i of `content`.
`capture` is the MAC's capture instant in units of 2^-16 ns; `ecpriUdp` says that the fronthaul's M-plane has its UDP port
set up for eCPRI; `buf` and `bufLen` are BUF and BUF_LEN of the PKT_RX entry next in line, as the device has read it from
host memory. -/
structure PortFrame where
  port : PortId
  capture : Nat
  len : Nat
  content : Nat
  ecpriUdp : Bool
  buf : Nat
  bufLen : Nat
deriving DecidableEq, Repr

/-- One PRB of a U-plane section: exponent and 24 mantissas (R366). -/
structure Prb where
  exponent : Nat
  mantissas : List Int
deriving DecidableEq, Repr

/-- A code block to be encoded for the downlink (R388): polar, or LDPC with its base graph and lifting size; its bits. -/
structure DlBlock where
  polar : Bool
  graph : Nat
  lifting : Nat
  bits : List Bool
deriving DecidableEq, Repr

/-- What a downlink symbol is made of: code blocks to be encoded for it, and its samples (R388, R390). -/
structure DlSymbol where
  blocks : List DlBlock
  samples : List Int
deriving DecidableEq, Repr

/-- One section of a U-plane frame (R366): its compression header and PRBs from `start` on; `base` is where the
receiver program's layout puts the section in the ingest core's local memory. -/
structure USection where
  compMeth : Nat
  iqWidth : Nat
  start : Nat
  base : Nat
  prbs : List Prb
deriving DecidableEq, Repr

/-- A U-plane frame (R364 to R366): the first 8 bytes of its eCPRI message in wire order, and its sections. `last` says that the symbol's section is complete with this frame. -/
structure UFrame where
  ecpri : Nat
  frame : Int
  slot : Nat
  symbol : Nat
  last : Bool
  sections : List USection
deriving DecidableEq, Repr

/-- A C-plane frame (R364): the first 8 bytes of its eCPRI message in wire order. -/
structure CFrame where
  ecpri : Nat
  sectionType : Nat
  filterIndex : Nat
deriving DecidableEq, Repr

/-- A code block for a code engine (R384, R385, R387): LDPC (base graph and lifting size) or polar (information
bits), its LLRs, whether it carries a CRC, where its HARQ soft buffer lies (0: it has none), and the slot it belongs to. -/
structure CodeBlock where
  cell : CellId
  polar : Bool
  graph : Nat
  lifting : Nat
  infoBits : Nat
  hasCrc : Bool
  combine : Bool
  harq : Nat
  frame : Int
  slot : Nat
  llrs : List Int
deriving DecidableEq, Repr

/-- What S6 has of a slot (R371): transport blocks, their CRCs and where the first one went. -/
structure SlotResult where
  ntb : Nat
  crcOk : Nat
  tbBase : Nat
deriving DecidableEq, Repr

/-- A frame handed to a port for sending (R472, R473): timestamp mode, `len` bytes, byte i of the wire byte i of `content`,
the ingress stamp t_r, the egress instant, and whether its PKT_TX entry is bad. -/
structure PtpTx where
  port : PortId
  tsMode : Nat
  len : Nat
  content : Nat
  tr : Nat
  egress : Nat
  bad : Bool
deriving DecidableEq, Repr

/-- A flit as it arrives on a Brim link: 64 bytes and the link word (R432 to R434). -/
structure Flit where
  data : BitVec 512
  word : BitVec 64
deriving DecidableEq, Repr

/-- A tunnel frame (R437, R438): the 32-byte header, its flits, and what MACsec found. -/
structure TunFrame where
  hdr : BitVec 256
  flits : List (BitVec 512)
  icvOk : Bool
  replayOk : Bool
deriving DecidableEq, Repr

/-- What a partner reports in training (R454): node ID, highest and lowest level, minor of each level from level 1
on, passing lanes. -/
structure TrainInfo where
  node : Nat
  high : Nat
  low : Nat
  minors : List Nat
  lanes : BitVec 4
deriving DecidableEq, Repr

/-- What the target node's Crown answers when a role is resolved again (R443, R444): the role has ended, its job generation
is fenced, or its current home: node, unit and role generation. -/
inductive Resolved where
  | ended
  | fenced
  | home (node unit gen : Nat)
deriving DecidableEq, Repr

/-- A far-reach transmit request: the 128-byte FR_TX entry (R411, FR_TX entry). -/
abbrev FrTx := BitVec 1024

/-- The device's steps, one constructor per row of the table. -/
inductive Instr where
  -- matrix array and grid
  | wload (p : CoreId)
  | wloadQueuedStart (p : CoreId)
  | shadowComplete (p : CoreId)
  | mpass (p : CoreId)
  | feederFill (p : CoreId) (i : Fin 512)
  | rowIssue (p : CoreId)
  | swap (p : CoreId)
  | contributionLand (p : CoreId) (errs : List BitError)
  | setg (p : CoreId)
  | drain (p : CoreId)
  | drainStart (p : CoreId)
  | drainRowRead (p : CoreId) (errs : List BitError)
  | drainComplete (p : CoreId)
  -- vector engine
  | setvl (p : CoreId)
  | vopAdd (p : CoreId) | vopSub (p : CoreId) | vopMul (p : CoreId) | vopFma (p : CoreId)
  | vopMax (p : CoreId) | vopMin (p : CoreId) | vopAbs (p : CoreId) | vopNeg (p : CoreId)
  | vopAnd (p : CoreId) | vopOr (p : CoreId) | vopXor (p : CoreId) | vopShr (p : CoreId)
  | vopCmpeq (p : CoreId) | vopCmpne (p : CoreId) | vopCmplt (p : CoreId) | vopCmple (p : CoreId)
  | vopCmpgt (p : CoreId) | vopCmpge (p : CoreId) | vopSel (p : CoreId)
  | vopCvt (p : CoreId) | vopCvtq (p : CoreId) | vopCsplit (p : CoreId) | vopCjoin (p : CoreId)
  | vopExp2 (p : CoreId) | vopLog2 (p : CoreId) | vopRcp (p : CoreId) | vopRsqrt (p : CoreId)
  | vopSigmoid (p : CoreId) | vopTanh (p : CoreId) | vopGelu (p : CoreId) | vopSmexp (p : CoreId)
  | vopSumg (p : CoreId) | vopRmax (p : CoreId) | vopRmin (p : CoreId)
  | vopArgmax (p : CoreId) | vopArgmin (p : CoreId) | vopTopk (p : CoreId) | vopTopkm (p : CoreId)
  | vopRndu (p : CoreId) | vopRndf (p : CoreId) | vopGather (p : CoreId)
  | vopScatterStore (p : CoreId) | vopScatterGridAdd (p : CoreId) | vopScatterMax (p : CoreId)
  | digestFold (p : CoreId) | digestStore (p : CoreId)
  -- movement, semaphores, control of the stream
  | dma (by_ : DmaFrom) | lite (p : CoreId)
  | cuffWait (p : CoreId) | cuffSignal (p : CoreId)
  | semAcq (p : CoreId) | semRel (p : CoreId) | semAdd (p : CoreId) | semRead (p : CoreId)
  | semGrant (n : Fin 65536)
  | loopCmd (p : CoreId) | endloop (p : CoreId) | stepCmd (p : CoreId)
  | tileEnd (p : CoreId) | tileEndRetire (p : CoreId) | note (p : CoreId)
  | halt (p : CoreId) | haltComplete (p : CoreId)
  | faultedJobRelease (handle : BitVec 32)
  | sequencerFetch (p : CoreId)
  -- on-die memories
  | memRead (r : MemTurn) (u : Upset)
  | memWrite (r : MemReq) (others : List MemAccess)
  | setWrite (r : MemTurn)
  | clrWrite (r : MemTurn)
  | eccWriteBack (word : Nat)
  | scrubRead (bank : Fin 480) (u : Upset)
  | scrubForcedRound (bank : Fin 480) (u : Upset)
  | masterAged (bank : Fin 480) (sub : Fin 4) (m : Master)
  | smallBankWait (s : SigId) (addr : Nat)
  | scrubStarved (s : SigId) (b : Fin 4)
  | bankWakeDone (bank : Fin 480)
  | macroRetention (bank : Fin 480) (m : Fin 16)
  | bankStateWrite (by_ : Requester) (index : Fin 3) (unit : Nat) (v : Nat)
  | bankStateChange (bank : Fin 480)
  | bankPowerUpDone (bank : Fin 480)
  -- DMA engines and the light path
  | dmaDescriptorStart (e : EngineId) | dmaCopy (e : EngineId) | dmaFill (e : EngineId)
  | dmaGadd (e : EngineId) | dmaComplete (e : EngineId)
  | liteDelivery (p : CoreId) | liteResponse (p : CoreId)
  -- partitions and placement
  | partitionConfigWrite (by_ : Requester) (k : PartId) (v : Nat)
  | partitionCoreFreed (k : PartId)
  | jobStart (q : QSet)
  | timingLockWrite (by_ : Requester) (k : PartId) (v : Nat)
  | stateSave (p : CoreId)
  | stateRestore (p : CoreId)
  | borrowRequest
  | borrowHandover (p : CoreId) (ns : Nat)
  | borrowReturn (p : CoreId)
  | coreReassign (p : CoreId)
  | arbitrationAged (resource : Nat) (ticket : Nat)
  | collectorTake
  | completionWrite
  -- signal cores
  | signalCoreRun (by_ : Requester) (s : SigId) (entry : BitVec 16)
  | signalCoreStop (by_ : Requester) (s : SigId) (entry : BitVec 16)
  | signalCoreStopped (s : SigId)
  | postBaseWrite (by_ : Requester) (s : SigId) (v : BitVec 1024)
  | vld (s : SigId) | vst (s : SigId) | vld2 (s : SigId)
  | accsum (s : SigId) | cmac (s : SigId) | cmacm (s : SigId) | cdot3 (s : SigId) | rmac (s : SigId)
  | accclr (s : SigId) | accst (s : SigId) | accsv (s : SigId) | accrs (s : SigId)
  | valuAdd (s : SigId) | valuSub (s : SigId) | valuMin (s : SigId) | valuMax (s : SigId)
  | valuAbs (s : SigId) | valuNeg (s : SigId) | valuConj (s : SigId) | valuMulj (s : SigId)
  | valuSwap (s : SigId) | valuShr (s : SigId) | valuShl (s : SigId) | valuAvg (s : SigId)
  | valuAnd (s : SigId) | valuOr (s : SigId) | valuXor (s : SigId) | valuBcast (s : SigId)
  | valuMov (s : SigId)
  | aaluAdd (s : SigId) | aaluSub (s : SigId) | aaluAnd (s : SigId) | aaluOr (s : SigId)
  | aaluXor (s : SigId) | aaluShl (s : SigId) | aaluShr (s : SigId) | aaluSra (s : SigId)
  | aaluMin (s : SigId) | aaluMax (s : SigId) | aaluSlt (s : SigId)
  | lds (s : SigId) | sts (s : SigId) | li (s : SigId) | lih (s : SigId)
  | mts (s : SigId) | mfs (s : SigId) | br (s : SigId) | brl (s : SigId) | jr (s : SigId)
  | rep (s : SigId) | waitCmd (s : SigId) | rti (s : SigId) | signalCoreHalt (s : SigId)
  | post (x : PostTurn) | postResponse (s : SigId) | sacq (s : SigId) | srel (s : SigId)
  | interruptTaken (s : SigId) | timer (s : SigId) | crownMessage (s : SigId)
  -- radio
  | cellConfigWrite (by_ : Requester) (c : CellId) (v : Nat)
  | cellStart (c : CellId)
  | slot | symbol
  | uPlaneFrame (f : UFrame) | cPlaneFrame (f : CFrame)
  | windowTake (c : CellId) (k : Fin 6) | window (c : CellId) (k : Fin 6)
  | stageLate (c : CellId) (k : Fin 6) | fbLatest (c : CellId)
  | slotResultRecord (c : CellId) (r : SlotResult)
  | codeBlockDecode (b : CodeBlock)
  | codeEngineRetired (e : Fin 4)
  | dlSymbolSend (c : CellId) (frame : Int) (slot symbol : Nat) (x : DlSymbol) (width : Nat)
  | dlLate (c : CellId) (frame : Int) (slot symbol : Nat)
  -- far-reach link
  | farReachConfigWrite (by_ : Requester) (index : Nat) (sub : Nat) (v : Nat)
  | converter (s : SigId) (first : Nat) (samples : List (Int × Int))
  | frameDetect (m bw : Nat) (shifts : List Nat) (start : Nat)
  | frameConfirm (m bw : Nat) (shifts : List Nat) (downs : List Nat)
  | symbolDemod (m bw : Nat) (energies : List Nat) (clipped total : Nat)
  | frLearnedLate (m bw : Nat)
  | pilotTrack (m bw : Nat) (freqEighths timeEighths : Int)
  | frameEnd (m bw : Nat)
  | frameTimeout (m bw : Nat)
  | agcUpdate (powerQ : Int)
  | noiseFloorUpdate (samples : Nat) (meanQ : Int)
  | frTransmit (e : FrTx)
  | nodeOccurrence (i : Nat) | nodeHeard (i : Nat) (arrival : Nat) | occurrenceEnd (i : Nat)
  | beacon
  | joinFrame (addr : BitVec 32) (arrival : Nat)
  | combineRecord (addr : BitVec 32) (epoch : BitVec 24) (r : BitVec 256)
  | combineWait (addr : BitVec 32) (epoch : BitVec 24)
  | frJesd (lockLost : Bool) (crcErrors : Nat)
  | sysrefEdge
  -- fabric
  | nodeIdWrite (by_ : Requester) (v : Nat)
  | routeTableWrite (by_ : Requester) (v : Nat)
  | messageForward (m : Msg)
  | fabricWrite (m : Msg) | fabricRead (m : Msg) | fabricLite (m : Msg) | gadd (m : Msg)
  | claim (m : Msg) | rsp (m : Msg) | staleRole (m : Msg) (r : Resolved)
  | readData (m : Msg) | freeMsg (m : Msg) | claimRetry (p : CoreId)
  | heartbeat (m : Msg) | heartbeatSend (node : Nat) | heartbeatTimeout (node : Nat)
  | mgmt (m : Msg) (f : AccFrame) | lease (m : Msg) | stepDone (m : Msg) | commit (m : Msg) | fence (m : Msg)
  | fenceRecovery (run : Nat) (survivorHolds : Bool) (inputsSurvive : Bool)
  | flitReceive (l : LinkId) (f : Flit)
  | linkCtl (l : LinkId) (ack : BitVec 12) (nak : Bool) (credits : BitVec 64)
  | linkCtlSend (l : LinkId)
  | laneDrop (l : LinkId) (lane : Fin 4)
  | retrainComplete (l : LinkId)
  | laneTest (l : LinkId) (lane : Fin 4) (pass : Bool)
  | linkTraining (l : LinkId) (t : TrainInfo)
  | linkConfigWrite (by_ : Requester) (l : LinkId) (v : Nat)
  | tunnelConfigWrite (by_ : Requester) (t : TunnelId) (v : Nat)
  | tunnelFrame (t : TunnelId) (f : TunFrame)
  | tunnelRto (t : TunnelId) | tunnelDown (t : TunnelId)
  -- time
  | timebaseTick
  | tbIncWrite (by_ : Requester) (v : Nat) | tbStep (by_ : Requester) (v : Nat) | tbSet (by_ : Requester) (v : Nat)
  | tbAdjustApply
  | scheduledInstant (t : Nat)
  | tbRefLost | tbRefOk
  | timeSourceWrite (by_ : Requester) (v : Nat)
  | frameOffsetWrite (by_ : Requester) (v : Nat)
  | fieldPortFrame (f : PortFrame)
  | portLinkUp (q : PortId) (speed : Nat) (bypassed : Bool)
  | portLatencyWrite (by_ : Requester) (q : PortId) (v : Nat)
  | pktTxSend (t : PtpTx)
  | ppsInEdge (sinceMs : Nat) | ppsOutEnd
  | timeRequest (l : LinkId) (payload : BitVec 384) | timeResponse (l : LinkId) (payload : BitVec 384)
  | timeExchangeStart
  -- management and host
  | canRead (path : Path) (f : AccFrame) | canWrite (path : Path) (f : AccFrame)
  | writeStart (path : Path) (f : AccFrame) | segment (path : Path) (f : AccFrame)
  | nextBlock (path : Path) (f : AccFrame) | abortTransfer (path : Path) (f : AccFrame)
  | transferTimeout (path : Path)
  | inBandDatagram (d : Datagram)
  | odRead (f : Option FuncId) (cmd : BitVec 64) | odWrite (f : Option FuncId) (cmd : BitVec 64) (data : Nat)
  | dictionaryWrite (by_ : Requester) (index sub len v : Nat)
  | persistComplete
  | noticeSend (ch : Fin 19)
  | journalAppend
  | ringCfgWrite (f : FuncId) (off : Nat) (v : Nat)
  | jobRingProd (f : FuncId) (set : Fin 16) (prod : BitVec 32) (descs : List (BitVec 512))
  | ringConsWrite (f : FuncId) (off : Nat) (cons : BitVec 32)
  | msiXMessage (f : FuncId) (off : Nat)
  | suspend (f : FuncId) (v : BitVec 64) | resume (f : FuncId) (v : BitVec 64)
  | release (f : FuncId) (v : BitVec 64) | setprio (f : FuncId) (v : BitVec 64)
  | functionLevelReset (f : FuncId)
  | perst
  | bar2Access (f : FuncId) (write : Bool) (off : Nat) (len : Nat) (data : Nat)
  | pktTxProd (f : FuncId) (ring : Fin 5) (prod : BitVec 32)
  | visorCountWrite (by_ : Requester) (index sub v : Nat)
  | visorSelectWrite (by_ : Requester) (index sub v : Nat)
  | visorHoldWrite (by_ : Requester) (v : Nat)
  -- safety and availability
  | safetyPartitionWrite (by_ : Requester) (v : Nat)
  | mittenCompare (p : CoreId)
  | voteRerunDone (p : CoreId)
  | gauntletRotation (c : CantonId)
  | gauntletSwap (c : CantonId)
  | gauntletStalled (c : CantonId)
  | selfTestComplete (p : CoreId) (failedPart : Nat)
  | checkerTest (row : Fin 6) (unit : Nat) (fired : Bool)
  | cantonLost (c : CantonId)
  | crownRestart (within1s : Bool)
  | pwrFail | pwrFailRelease
  | install (by_ : Requester) | installDone | handover (by_ : Requester) | fwHandover | fwRevert
  | confirm (by_ : Requester) | revert (by_ : Requester) | trialExpiry
  -- power, reset, bring-up, pins
  | porst (straps : BitVec 4)
  | warmrst
  | pwrGoodFall
  | bootVerify
  | serviceLevel (ok : Bool)
  | governorTick (pkg10us pkg100ms : Nat) (canton100us : List Nat)
  | frequencyChange (p : CoreId)
  | powerCap (k : PartId)
  | thermalRead (readings : List Int)
  | thermalThrottleStep
  | thermalTrip
  | alertRelease (by_ : Requester) (v : Nat)
  | semaphoreCrownWrite (addr : Nat) (len : Nat) (data : Nat)
  | hbmRefresh (stack : Fin 4)
  | railFault (r : Fin 19) (status : BitVec 16)
  | hbmStackLost (stack : Fin 4)
  | signalQuadLost (quad : Fin 4)
  | portLinkDown (q : PortId)
  | pcieLinkDown
  | crownStateRestored
  | frTxTailEnd
  -- held encodings and the TAP
  | cmdOpcode (p : CoreId)
  | vopSubop (p : CoreId)
  | sigOpcode (s : SigId)
  | tap (tms tdi : Bool)
deriving DecidableEq, Repr

end Sys2Proof
end

