-- ==== Sys2Proof/Config.lean ====
section
/-! DEFINITION. What the spec leaves open, as constants without a body: no proof can see their values. -/

namespace Sys2Proof.Config

/-- A value the spec does not state, the n-th one taken (log 4). -/
opaque freeNat : Nat → Nat

/-- What a loaded learned demodulator model computes: from the energies of the N bins to the metric of each bin (R405,
log 20). -/
opaque learnedMetric : List Nat → Nat → Int

/-- The check rows of the LDPC code of TS 38.212 for a base graph and lifting size: each row lists the code bits
it joins. R384 names the standard and does not print its tables (log 21). -/
opaque ldpcRows : Nat → Nat → List (List Nat)

/-- The CRC of TS 38.212 over decoded bits (R384, R397; log 21). -/
opaque crcOk : List Bool → Bool

/-- The CRC-aided list decoder for the polar codes of TS 38.212 (R385): decoded bits from the LLRs and the
number of information bits (log 21). -/
opaque polarDecode : Nat → List Int → List Bool

/-- The LDPC encoder of TS 38.212 for a base graph and lifting size, and its polar encoder (R388; log 21). -/
opaque ldpcEncode : Nat → Nat → List Bool → List Bool
opaque polarEncode : List Bool → List Bool

/-- UCI coding of TS 38.212 clause 6.3.1: the coded bits of a payload for its bit count and E (R397; log 21). -/
opaque uciEncode : Nat → Nat → List Bool → List Bool

/-- MACs per resource element that the loaded receiver program declares for a cell (R392; log 22). -/
opaque macsPerRe : Nat → Nat

/-- The done semaphore that the loaded receiver program names for a cell and stage (R372, log 22). -/
opaque doneSem : Nat → Nat → Nat

/-- Where the receiver program's section layout puts mantissa j (24: the exponent) of a section's PRB i, relative to
the section's base (R366, log 22). -/
opaque sectionOffset : Nat → Nat → Nat

/-- Where the far-reach program keeps the receive ring of a signal core, and the stamp of each half, in local memory
(R398, R420; log 22). -/
opaque ringBase : Nat → Nat
opaque ringStamp : Nat → Nat → Nat

/-- The divisor d x a of R17 for the weights and activations of the loaded receiver program (R392, log 22). -/
opaque receiverPasses : Nat

/-- Whether the common security block verifies an image's signature (R539, R553; log 23). -/
opaque imageVerifies : Nat → Bool

/-- The version an installed image reports in 0x1021.01 (R486; log 23). -/
opaque imageVersion : Nat → Nat

/-- The protocol minor of an architecture level that the image of a version runs (R454, R457; log 23). -/
opaque imageMinor : Nat → Nat → Nat

/-- The lowest voltage in mV that canton c's fused table and monitors ask for at a frequency (R545; log 24). -/
opaque cantonVoltage : Nat → Nat → Nat

/-- What the board's regulator reports of rail r at a timebase value: mV and current (0x2200; log 24). -/
opaque railReading : Nat → Nat → Nat

/-- The TAP's instruction register: its length, and the codes of IDCODE, SAMPLE/PRELOAD and EXTEST (R569, log 25). -/
opaque tapIrLen : Nat
opaque tapIdcode : Nat
opaque tapSample : Nat
opaque tapExtest : Nat

/-- The length of the boundary register (R569, log 25). -/
opaque tapBsrLen : Nat

/-- Whether the diagnostics unlock makes a TAP instruction more than BYPASS is the security block's (R569); the
device identity bits of IDCODE outside [27:12] (log 25). -/
opaque idcodeOther : BitVec 32

/-- The Vendor ID of R499, which is Noroux's and not printed (log 26). -/
opaque vendorId : Nat

/-- The 32-byte header of a journal page, from its number, its first record and its record count: R537 names the fields
and gives no layout (log 26). -/
opaque journalHeader : Nat → Nat → Nat → Nat

/-- Versions that 0x1021 reports per image where the spec gives a lower bound only (R486; log 26). -/
opaque firmwareVersion : Nat → Nat

end Sys2Proof.Config
end

