-- ==== Sys2Proof/Machine/Bits.lean ====
section
/-! DEFINITION. Bit fields of words held as natural numbers, sign extension, and byte order (R5, R6). -/

namespace Sys2Proof.Machine

/-- Bits [hi:lo] of a word (R5). -/
def bits (w hi lo : Nat) : Nat := (w >>> lo) % 2 ^ (hi + 1 - lo)

/-- Bit i of a word. -/
def bit (w i : Nat) : Bool := w.testBit i

/-- A w-bit field read as two's complement. -/
def sext (w v : Nat) : Int :=
  if v % 2 ^ w < 2 ^ (w - 1) then ((v % 2 ^ w : Nat) : Int) else ((v % 2 ^ w : Nat) : Int) - 2 ^ w

/-- Bits [hi:lo] of a word read as two's complement. -/
def sbits (w hi lo : Nat) : Int := sext (hi + 1 - lo) (bits w hi lo)

/-- An integer as a w-bit two's-complement field. -/
def enc (w : Nat) (v : Int) : Nat := (v % (2 ^ w : Int)).toNat

/-- The word with bits [hi:lo] replaced by v. -/
def setBits (w hi lo v : Nat) : Nat :=
  w % 2 ^ lo + 2 ^ lo * (v % 2 ^ (hi + 1 - lo)) + 2 ^ (hi + 1) * (w / 2 ^ (hi + 1))

/-- 0 or 1. -/
def b2n (b : Bool) : Nat := if b then 1 else 0

/-- Byte i of a little-endian word (R6). -/
def byteOf (w i : Nat) : Byte := BitVec.ofNat 8 (w >>> (8 * i))

/-- Serial-number comparison of RFC 1982 for w-bit counters: a is newer than b (R477). Pairs 2^(w-1) apart have no
defined result (R478). -/
def serialNewer (w a b : Nat) : Bool :=
  let d := (a + 2 ^ w - b % 2 ^ w) % 2 ^ w
  decide (0 < d ∧ d < 2 ^ (w - 1))

/-- Rounding down of a quotient of integers, divisor positive. -/
def floorDiv (n : Int) (d : Nat) : Int := n / (d : Int)

/-- Round half up of n / d (R33 at quantum 1): the floor of n / d + 1/2. -/
def roundDiv (n : Int) (d : Nat) : Int := (2 * n + d) / (2 * (d : Int))

/-- An integer limited to a range. -/
def clampI (lo hi v : Int) : Int := if v < lo then lo else if hi < v then hi else v

end Sys2Proof.Machine
end

