-- ==== Sys2Proof/Machine/Entries.lean ====
section
/-! DEFINITION. The object dictionary's entries: index, sub-index, type, access and default (R479, R480 and the entry
tables of every chapter). -/

namespace Sys2Proof.Machine

/-- The types of R480. -/
inductive Ty where
  | u8 | u16 | u32 | u64 | i16 | i32 | i64 | bool | time96
  | blob (n : Nat)
deriving DecidableEq, Repr

/-- Bytes of a value (R480). -/
def Ty.bytes : Ty → Nat
  | .u8 => 1 | .u16 => 2 | .u32 => 4 | .u64 => 8 | .i16 => 2 | .i32 => 4 | .i64 => 8 | .bool => 1
  | .time96 => 12 | .blob n => n

/-- Access codes of 00_scope.md. -/
inductive Access where
  | const | ro | rw | rwp | wo
deriving DecidableEq, Repr

/-- An entry: type, access code, default. -/
structure EntryInfo where
  ty : Ty
  acc : Access
  dflt : Nat
deriving DecidableEq, Repr

/-- A dictionary key: index and sub-index. -/
def odKey (index sub : Nat) : Nat := 256 * index + sub

/-- A CONST U8 sub-index 0 that counts the sub-indices (R479). -/
def countInfo (n : Nat) : EntryInfo := ⟨.u8, .const, n⟩

/-- `e` for sub-indices a to b. -/
def subIn (a b sub : Nat) (e : EntryInfo) : Option EntryInfo := if a ≤ sub ∧ sub ≤ b then some e else none

/-- An index with sub-indices 1 to n of one kind. -/
def uniform (n sub : Nat) (e : EntryInfo) : Option EntryInfo :=
  if sub = 0 then some (countInfo n) else subIn 1 n sub e

/-- The bytes 0xFF, n of them. -/
def allFF (n : Nat) : Nat := 256 ^ n - 1

/-- Identity, versions and communication (0x1000 to 0x1FFF; R2, R486, R492, R499). -/
def entries1 (index sub : Nat) : Option EntryInfo :=
  match index with
  | 0x1000 =>
    match sub with
    | 0 => some (countInfo 4)
    | 1 => some ⟨.u16, .const, 0x7200⟩
    | 2 => some ⟨.u8, .const, 0xB0⟩
    | 3 => some ⟨.u8, .const, 0x02⟩
    | 4 => some ⟨.u8, .const, 0x01⟩
    | _ => none
  | 0x1001 => if sub = 1 then some ⟨.u16, .const, Config.vendorId⟩ else none
  | 0x1020 =>
    match sub with
    | 0 => some (countInfo 0x0C)
    | 9 => some ⟨.u32, .const, 0x02030000⟩
    | 10 => some ⟨.u32, .const, 0x03010000⟩
    | 11 => some ⟨.u32, .const, 0x01040000⟩
    | 12 => some ⟨.u32, .const, 0x01020000⟩
    | _ => subIn 1 8 sub ⟨.u32, .const, 0x01000000⟩
  | 0x1021 =>
    match sub with
    | 0 => some (countInfo 6)
    | _ => subIn 1 6 sub ⟨.u32, .ro, 0⟩
  | 0x1100 =>
    match sub with
    | 0 => some (countInfo 5)
    | 1 => some ⟨.u8, .rwp, 0⟩
    | 2 => some ⟨.u8, .rwp, 8⟩
    | 3 => some ⟨.u8, .rwp, 3⟩
    | 4 => some ⟨.u8, .rwp, 3⟩
    | 5 => some ⟨.u8, .rwp, 1⟩
    | _ => none
  | 0x1110 =>
    match sub with
    | 0 => some (countInfo 8)
    | 1 => some ⟨.u16, .rwp, 0⟩
    | 2 => some ⟨.u8, .rwp, 0⟩
    | 3 => some ⟨.blob 128, .rwp, 0⟩
    | 4 => some ⟨.u8, .rwp, 0⟩
    | 5 => some ⟨.blob 18, .rwp, 0⟩
    | 6 => some ⟨.u8, .rwp, 1⟩
    | 7 => some ⟨.blob 16, .rwp, 0⟩
    | 8 => some ⟨.blob 18, .rwp, 0⟩
    | _ => none
  | _ => none

/-- Device-wide configuration, clocks and power (0x2000 to 0x2FFF). -/
def entries2 (index sub : Nat) : Option EntryInfo :=
  match index with
  | 0x2000 => uniform 3 sub ⟨.u8, .ro, 0⟩
  | 0x2100 =>
    match sub with
    | 0 => some (countInfo 10)
    | 1 => some ⟨.u16, .rwp, 300⟩
    | 10 => some ⟨.u16, .ro, 0⟩
    | _ => subIn 2 9 sub ⟨.u16, .rwp, 38⟩
  | 0x2110 => uniform 0x10 sub ⟨.u16, .rwp, 1600⟩
  | 0x2120 => uniform 0x48 sub ⟨.u16, .ro, 0⟩
  | 0x2200 => uniform 0x13 sub ⟨.u32, .ro, 0⟩
  | 0x2300 =>
    match sub with
    | 0 => some (countInfo 3)
    | 1 => some ⟨.i16, .rwp, 105⟩
    | 2 => some ⟨.i16, .ro, 0⟩
    | 3 => some ⟨.time96, .ro, 0⟩
    | _ => none
  | 0x2400 =>
    match sub with
    | 0 => some (countInfo 2)
    | 1 => some ⟨.u8, .rwp, 1⟩
    | 2 => some ⟨.bool, .wo, 0⟩
    | _ => none
  | _ => none

/-- Cantons and cores (0x3000 to 0x3FFF; R43, R194, R270, R357 to R360). -/
def entries3 (index sub : Nat) : Option EntryInfo :=
  match index with
  | 0x3100 => uniform 0x48 sub ⟨.u8, .rw, 0⟩
  | 0x3110 => uniform 0x20 sub ⟨.u8, .rw, 0⟩
  | 0x3120 => uniform 0x20 sub ⟨.u32, .rw, 0⟩
  | 0x3130 => uniform 0x20 sub ⟨.blob 16, .ro, 0⟩
  | 0x3140 => uniform 0x20 sub ⟨.blob 128, .rw, 0⟩
  | 0x3200 => uniform 0x48 sub ⟨.u16, .rw, 0⟩
  | 0x3210 => uniform 0x08 sub ⟨.u32, .rw, 0⟩
  | 0x3220 => uniform 0x20 sub ⟨.u16, .rw, 0⟩
  | 0x3300 => uniform 0x48 sub ⟨.blob 48, .ro, 0⟩
  | _ => none

/-- Partitions and jobs (0x4000 to 0x4FFF; R287, R293, R500). -/
def entries4 (index sub : Nat) : Option EntryInfo :=
  match index with
  | 0x4010 => uniform 0x10 sub ⟨.blob 64, .ro, allFF 64⟩
  | 0x4020 => if sub = 1 then some ⟨.u32, .rwp, 0x6000⟩ else uniform 0x10 sub ⟨.u32, .rwp, 0⟩
  | 0x4030 =>
    match sub with
    | 0 => some (countInfo 3)
    | 1 => some ⟨.u8, .rwp, 0⟩
    | _ => subIn 2 3 sub ⟨.u32, .ro, 0⟩
  | 0x4040 => uniform 0x10 sub ⟨.u8, .rwp, 0xFF⟩
  | 0x4180 => uniform 0x10 sub ⟨.u8, .rw, 0⟩
  | _ => none

/-- Radio and far-reach link (0x5000 to 0x5FFF). -/
def entries5 (index sub : Nat) : Option EntryInfo :=
  match index with
  | 0x5000 => uniform 3 sub ⟨.u32, .rwp, 0⟩
  | 0x5008 => uniform 3 sub ⟨.blob 256, .rwp, 0⟩
  | 0x5010 => uniform 0x12 sub ⟨.u32, .rwp, 0⟩
  | 0x5011 => if sub = 1 then some ⟨.u16, .rwp, 20⟩ else uniform 2 sub ⟨.u16, .rwp, 0⟩
  | 0x5012 => if sub = 1 then some ⟨.u32, .rwp, 0x00FFFF00⟩ else none
  | 0x5014 => if sub = 1 then some ⟨.u16, .rwp, 250⟩ else uniform 2 sub ⟨.u16, .rwp, 100⟩
  | 0x5018 => if sub = 1 then some ⟨.u8, .rwp, 8⟩ else none
  | 0x5020 =>
    match sub with
    | 0 => some (countInfo 2)
    | 1 => some ⟨.u8, .rwp, 4⟩
    | 2 => some ⟨.u32, .ro, 0⟩
    | _ => none
  | 0x5800 =>
    match sub with
    | 0 => some (countInfo 10)
    | 1 => some ⟨.u32, .rwp, 0⟩
    | 2 => some ⟨.i16, .rwp, enc 16 (-72)⟩
    | 3 => some ⟨.u8, .rwp, 3⟩
    | 4 => some ⟨.u16, .rwp, 500⟩
    | 5 => some ⟨.u64, .rwp, 0⟩
    | 6 => some ⟨.u16, .rwp, 0⟩
    | 7 => some ⟨.u32, .rwp, 10000⟩
    | 8 => some ⟨.u16, .rwp, 50⟩
    | 9 => some ⟨.u16, .rwp, 20⟩
    | 10 => some ⟨.i32, .rwp, 0⟩
    | _ => none
  | 0x5801 =>
    match sub with
    | 0 => some (countInfo 3)
    | 1 => some ⟨.i16, .ro, 0⟩
    | 2 => some ⟨.u8, .ro, 1⟩
    | 3 => some ⟨.u8, .ro, 0⟩
    | _ => none
  | 0x5810 => uniform 0x40 sub ⟨.blob 16, .rwp, allFF 16⟩
  | _ => none

/-- Fabric and time (0x6000 to 0x6FFF). -/
def entries6 (index sub : Nat) : Option EntryInfo :=
  match index with
  | 0x6000 => if sub = 1 then some ⟨.u16, .rwp, 0⟩ else none
  | 0x6001 => uniform 4 sub ⟨.u32, .ro, 0⟩
  | 0x6002 => uniform 4 sub ⟨.u16, .rwp, 0x00FF⟩
  | 0x6010 => if sub = 1 then some ⟨.blob 4096, .rwp, allFF 4096⟩ else none
  | 0x6020 => uniform 8 sub ⟨.blob 64, .rwp, 0⟩
  | 0x6030 => if sub = 1 then some ⟨.blob 4096, .ro, 0⟩ else none
  | 0x6100 =>
    match sub with
    | 0 => some (countInfo 0x0B)
    | 1 => some ⟨.time96, .ro, 0⟩
    | 2 => some ⟨.u64, .rw, 0x140000000⟩
    | 3 => some ⟨.i64, .wo, 0⟩
    | 4 => some ⟨.time96, .wo, 0⟩
    | 5 => some ⟨.u8, .ro, 2⟩
    | 6 => some ⟨.u16, .rwp, 0x1800⟩
    | 7 => some ⟨.time96, .ro, 0⟩
    | 8 => some ⟨.u32, .rwp, 0x800186A0⟩
    | 9 => some ⟨.time96, .ro, 0⟩
    | 10 => some ⟨.i64, .rwp, 0⟩
    | 11 => some ⟨.u16, .rwp, 125⟩
    | _ => none
  | 0x6110 => uniform 8 sub ⟨.u64, .rw, 0⟩
  | _ => none

/-- Safety and health (0x7000 to 0x7FFF). -/
def entries7 (index sub : Nat) : Option EntryInfo :=
  match index with
  | 0x7000 => if sub = 1 then some ⟨.u16, .rwp, 0⟩ else uniform 5 sub ⟨.u32, .ro, 0⟩
  | 0x7010 => uniform 8 sub ⟨.u32, .ro, 0⟩
  | 0x7030 =>
    match sub with
    | 0 => some (countInfo 6)
    | 1 => some ⟨.u8, .ro, 0⟩
    | 2 => some ⟨.u8, .ro, 0⟩
    | 3 => some ⟨.u64, .rw, 0⟩
    | 4 => some ⟨.u32, .rw, 0⟩
    | 5 => some ⟨.u8, .wo, 0⟩
    | 6 => some ⟨.u32, .rwp, 60⟩
    | _ => none
  | _ => none

/-- Visor, digests, notices and journal (0x8000 to 0x9FFF). -/
def entries89 (index sub : Nat) : Option EntryInfo :=
  match index with
  | 0x8000 => if sub = 1 then some ⟨.bool, .rw, 0⟩ else none
  | 0x8300 => if sub = 0 then some (countInfo 0x40) else
      (subIn 1 0x20 sub ⟨.u64, .rw, 0⟩).orElse fun _ => subIn 0x21 0x40 sub ⟨.u16, .rw, 0⟩
  | 0x9000 => uniform 0x13 sub ⟨.u16, .ro, 0⟩
  | 0x9010 => uniform 0x13 sub ⟨.u32, .ro, 0⟩
  | 0x9100 =>
    match sub with
    | 0 => some (countInfo 4)
    | 1 => some ⟨.u64, .ro, 0⟩
    | 2 => some ⟨.u64, .ro, 0⟩
    | 3 => some ⟨.u64, .rw, 0⟩
    | 4 => some ⟨.blob 4096, .ro, 0⟩
    | _ => none
  | _ =>
    if 0x8100 ≤ index ∧ index < 0x8148 then
      (if sub = 0 then some (countInfo 0x10) else
        (subIn 1 8 sub ⟨.u64, .rw, 0⟩).orElse fun _ => subIn 9 0x10 sub ⟨.u16, .rw, 0⟩)
    else if 0x8200 ≤ index ∧ index < 0x8208 then
      (if sub = 0 then some (countInfo 0x20) else
        (subIn 1 0x10 sub ⟨.u64, .rw, 0⟩).orElse fun _ => subIn 0x11 0x20 sub ⟨.u16, .rw, 0⟩)
    else if 0x8400 ≤ index ∧ index < 0x8448 then
      (if sub = 1 then some ⟨.blob 64, .ro, 0⟩ else none)
    else none

/-- The entry at an index and sub-index, none where no chapter defines it (R481). -/
def entryOf (index sub : Nat) : Option EntryInfo :=
  match index / 0x1000 with
  | 1 => entries1 index sub
  | 2 => entries2 index sub
  | 3 => entries3 index sub
  | 4 => entries4 index sub
  | 5 => entries5 index sub
  | 6 => entries6 index sub
  | 7 => entries7 index sub
  | 8 => entries89 index sub
  | 9 => entries89 index sub
  | _ => none

/-- Whether an index is defined (R481): it has an entry at sub-index 0 or 1. -/
def indexDefined (index : Nat) : Bool := (entryOf index 0).isSome || (entryOf index 1).isSome

/-- What an unwritten entry holds: its default. -/
def odDef (key : Nat) : Nat :=
  match entryOf (key / 256) (key % 256) with
  | some e => e.dflt
  | none => 0

end Sys2Proof.Machine
end

