-- ==== Sys2Proof/Machine/SMap.lean ====
section
/-! DEFINITION. Sparse maps from natural numbers, in one canonical form: keys strictly rising, no entry equal to what
an unlisted key reads as. Memory, the dictionary, semaphores, grid rows and other keyed state are held so. -/

namespace Sys2Proof.Machine

/-- A sparse map as a list of (key, value) pairs. -/
abbrev SMap (α : Type) := List (Nat × α)

/-- The value at key k; `d k` where k is not listed. -/
def sget {α : Type} (m : SMap α) (d : Nat → α) (k : Nat) : α :=
  match m with
  | [] => d k
  | (k', v) :: t => if k' = k then v else sget t d k

/-- The map with key k at v, kept canonical. -/
def sput {α : Type} [DecidableEq α] (m : SMap α) (d : Nat → α) (k : Nat) (v : α) : SMap α :=
  match m with
  | [] => if v = d k then [] else [(k, v)]
  | (k', v') :: t =>
    if k < k' then (if v = d k then (k', v') :: t else (k, v) :: (k', v') :: t)
    else if k = k' then (if v = d k then t else (k, v) :: t)
    else (k', v') :: sput t d k v

/-- The map without its entries whose key satisfies `f`. -/
def sclear {α : Type} (m : SMap α) (f : Nat → Bool) : SMap α :=
  m.filter (fun e => !f e.1)

/-- The canonical form. -/
abbrev swf {α : Type} (m : SMap α) (d : Nat → α) : Prop :=
  m.Pairwise (fun a b => a.1 < b.1) ∧ ∀ e ∈ m, e.2 ≠ d e.1

end Sys2Proof.Machine
end

