-- ==== Sys2Proof/Machine/State.lean ====
section
/-! DEFINITION. The state of one YLF-7200 node, as plain data, and the state after reset. INVENTORY.md, "State",
lists each piece with the rule that names it. -/

namespace Sys2Proof.Machine

/-- Reasons for the model to stop with a fault: none. Every fault of the device (command faults, memory responses,
refused writes) is an effect the spec describes and is a next state. Safe: nothing is stopped. -/
inductive Fault where
deriving DecidableEq, Repr

/-- Reasons for the model to give a command no meaning. -/
inductive Refusal where
  /-- A row whose meaning is not written yet; raised by exec's arms alone. Safe. -/
  | notModelled (mnemonic : String)
deriving DecidableEq, Repr

/-! ### Arithmetic state -/

/-- The arithmetic flags of a core (R41 to R43). -/
structure Flags where
  inv : Bool
  sat : Bool
  unf : Bool
  inx : Bool
deriving DecidableEq, Repr

/-- The special-state code of a cell or feeder entry (R72, R88). -/
inductive Special where
  | fin | nan | pinf | ninf
deriving DecidableEq, Repr

/-- The state of an accumulator or grid word (R97). -/
inductive AccState where
  | fin | sat | pinf | ninf | nan
deriving DecidableEq, Repr

/-- An accumulator: its state and its 112-bit two's-complement integer (R96). -/
structure Acc where
  st : AccState
  acc : Int
deriving DecidableEq, Repr

/-- A grid row: 64 accumulators and 64 grid exponents (R92), and the running residue modulo 7 of each accumulator
(R126). -/
structure GridRow where
  accs : List Acc
  g : List Int
  res : List Nat
deriving DecidableEq, Repr

/-- A grid row in the state of R237. -/
def GridRow.zero : GridRow := ⟨List.replicate 64 ⟨.fin, 0⟩, List.replicate 64 0, List.replicate 64 0⟩

/-- Scale data of one rounding unit in one column: S8 code, lane exponent and weight sum W (R105, R114). -/
structure UnitInfo where
  s8 : Nat
  lam : Int
  wsum : Int
deriving DecidableEq, Repr

/-- A WLOAD as decoded: its command, the descriptor read at decode (R196), the effective descriptor offset and tag
(R246), its ring offset and its place in decode order. -/
structure WloadCmd where
  ord : Nat
  cmd : Nat
  desc : Nat
  doff : Nat
  tag : Nat
  off : Nat
deriving DecidableEq, Repr

/-- A cell of the array: its weight, its special-state code (R88) and the residue modulo 7 that the weight loader stored
beside it (R126). -/
structure Cell where
  w : Int
  sp : Special
  res : Nat
deriving DecidableEq, Repr

/-- One column of a stationary block: its cells by row, its rounding units. -/
structure ColBlock where
  cells : List Cell
  units : List UnitInfo
deriving DecidableEq, Repr

/-- A stationary block as the loader holds it (R56, R66, R68, R88, R114), with the WLOAD that loaded it (R310). -/
structure Block where
  wl : WloadCmd
  rows : Nat
  blen : Nat
  k : Nat
  cols : List ColBlock
deriving DecidableEq, Repr

/-- One feeder queue entry (R72), with the block data that the alignment unit places on its segment's path (R75):
S8 code, lane exponent, aligned zero point. `two` marks an activation of two lane passes (R61). -/
structure FeederEntry where
  val : Int
  two : Bool
  sp : Special
  tag : Nat
  last : Bool
  s8 : Nat
  lam : Int
  zl : Int
deriving DecidableEq, Repr

/-- One unit's contribution to a column before it is scaled (R105): combined special state, the unit sum P, the residue
that P must have by the residues of the unit's cells and lane values (R126), the product of the scale mantissas, and X. -/
structure Term where
  sp : Special
  sum : Int
  res : Nat
  mu : Int
  x : Int
deriving DecidableEq, Repr

/-- A row pass in the column pipeline (R67): the grid row it lands in, whether it opens it and with which exponents,
and the terms of each column. -/
structure InFlight where
  grow : Nat
  opens : Bool
  g : List Int
  ord : Nat
  cols : List (List Term)
deriving DecidableEq, Repr

/-! ### A matrix core's commands in its queues -/

/-- An MPASS in the ARRAY queue: the fields of its command, effective by R246, its activation descriptor, its window
descriptor, the rows of its weight block, the exponents it latches (R94) and how far it has gone. -/
structure MPass where
  cmd : Nat
  off : Nat
  tag : Nat
  opens : Bool
  win : Option Nat
  desc : Nat
  r0 : Nat
  ak0 : Nat
  rows : Nat
  grow : Nat
  krows : Nat
  g : List Int
  filled : SMap Nat
  issued : Nat
  landed : Nat
  tile : Nat
deriving DecidableEq, Repr

/-- A DRAIN in its queue: fields, output descriptor and parameter block as read at decode (R121, R196). -/
structure DrainCmd where
  cmd : Nat
  off : Nat
  dg : Bool
  dslot : Nat
  desc : Nat
  pblk : Nat
  or0 : Nat
  on0 : Nat
  grow : Nat
  rows : Nat
  ncols : Nat
  started : Bool
  done : Nat
deriving DecidableEq, Repr

/-- A VOP as decoded: sub-opcode and operands, descriptors read at decode (R196), VL and step in force (R255). -/
structure VopCmd where
  cmd : Nat
  off : Nat
  sub : Nat
  opf : Nat
  maskZero : Bool
  accum : Bool
  smode : Nat
  imm : Nat
  a : Option Nat
  b : Option Nat
  c : Option Nat
  d : Option Nat
  m : Option Nat
  x : Option Nat
  y : Option Nat
  s : Option Nat
  vl : Nat
  step : Nat
deriving DecidableEq, Repr

/-- An entry of an engine queue (R239). -/
inductive QEntry where
  | wload (w : WloadCmd)
  | mpass (m : MPass)
  | drain (d : DrainCmd)
  | vop (v : VopCmd)
  | fold (slot desc cmd off : Nat)
  | store (slot addr cmd off : Nat)
  | acq (n k : Nat) (asked : Bool)
  | rel (n k : Nat)
deriving DecidableEq, Repr

/-- A queued entry with its place in decode order (R240). -/
structure Queued where
  ord : Nat
  e : QEntry
deriving DecidableEq, Repr

/-- An open loop level (R245): `body` is the ring offset of its first body command. -/
structure LoopLevel where
  count : Nat
  lstride : Int
  tstep : Nat
  i : Nat
  body : Nat
deriving DecidableEq, Repr

/-- A light-path message of a core (R226 to R228). -/
structure LiteMsg where
  ord : Nat
  data : Nat
  len : Nat
  dst : Nat
  sem : Nat
  sent : Bool
  resp : Option Nat
deriving DecidableEq, Repr

/-- What a core's sequencer is doing. -/
inductive RunMode where
  /-- no task, or its task has ended -/
  | idle
  | running
  /-- stopped at a tile boundary (R265), state not yet saved -/
  | boundary
  /-- HALT decoded and waiting (R263) -/
  | halting
  /-- HALT complete, completion reported -/
  | halted
  /-- stopped at a command fault (R268) -/
  | faulted
  /-- in Gauntlet self-test (R529) -/
  | selfTest
deriving DecidableEq, Repr

/-- What the device needs of a core at its next tile boundary (R265). -/
inductive Need where
  | preempt | suspend | gauntlet | frequency | fence | stop | refresh | scrub
deriving DecidableEq, Repr

/-- What the sequencer waits for before it decodes on. -/
inductive SeqWait where
  | none
  /-- a CUFF.WAIT or SEM.ACQ with ENG SEQ (R235) -/
  | sem (n k : Nat)
deriving DecidableEq, Repr

/-- The fault record of a core (R270). -/
structure FaultRec where
  cmd : Nat
  step : Nat
  loopI : Nat
  detail : Nat
  offset : Nat
  code : Nat
deriving DecidableEq, Repr

/-- An external action held by a core of a Mitten pair (R518): the command, its fields resolved. -/
inductive HeldAct where
  | lite (l : LiteMsg)
  | add (n : Nat) (delta : Int) (ret : Option Nat)
  | note (sev ucode payload : Nat)
  | dma (e : Nat) (desc : Nat)
  | halt
deriving DecidableEq, Repr

/-- One matrix core. `tileEnds` holds the TILE.ENDs decoded and not retired, each with its place in decode order, its ring
offset and whether decode has stopped there for a deferred fault (R265); `saveMap` the entries of the save map read when the
stopping TILE.END retired, none where everything is live (R307, R308); `digestNz` says of each digest slot whether an element
folded since it was cleared is not 0 (R382). -/
structure Core where
  mode : RunMode
  job : Option Nat
  task : Nat
  ringBase : Nat
  ringLen : Nat
  pos : Nat
  fetched : List Nat
  ord : Nat
  seqWait : SeqWait
  needs : List Need
  tileEnds : List (Nat × Nat × Bool)
  tileNo : Nat
  tileRet : Nat
  vl : Nat
  vrate : Nat
  alevel : Nat
  seed : Nat
  step : Nat
  stepHeld : Bool
  loops : List LoopLevel
  digests : List Nat
  digestNz : List Bool
  setg : List Int
  qLoader : List Queued
  qArray : List Queued
  qDrain : List Queued
  qVector : List Queued
  active : Option Block
  shadow : Option Block
  loading : Option WloadCmd
  lastW : Option Nat
  lastM : Option Nat
  wPassed : Bool
  wSince : List Nat
  wRows : SMap Nat
  wBlen : SMap Nat
  feeders : SMap (List FeederEntry)
  pipe : List InFlight
  grid : SMap GridRow
  residue : Option (Nat × Nat)
  deferred : List (Nat × Nat)
  tileCycles : SMap Nat
  lites : List LiteMsg
  liteFaults : List (Nat × Nat)
  frec : FaultRec
  flags : Flags
  haltCode : Nat
  saveMap : Option (List Nat)
  tileDigest : Nat
  actNo : Nat
  reads : List Nat
  replayAcq : List (Nat × Nat × Nat)
  held : List HeldAct
  undo : List (Nat × Nat)
  undoRows : List (Nat × GridRow)
  undoBytes : Nat
  retiredTile : Bool
  tileFault : Option Nat
deriving DecidableEq, Repr

/-! ### Memories -/

/-- The state of an SRAM bank (R189). -/
inductive BankSt where
  | on | retain | off
deriving DecidableEq, Repr

/-- A bank: state in force, requested state, waking from RETAIN, powering up, retained macros and those of them whose wake
has begun, oldest first, scrub position and whether it is marked starved (R187 to R192). Its row-valid bits (R193): all set while `cleared` is false; else those of `valid`. -/
structure Bank where
  st : BankSt
  req : BankSt
  waking : Bool
  powering : Bool
  retained : List Nat
  macroWake : List Nat
  scrubRow : Nat
  starved : Bool
  cleared : Bool
  valid : List Nat
deriving DecidableEq, Repr

/-- A bank after reset: ON (R194). -/
def Bank.reset : Bank := ⟨.on, .on, false, false, [], [], 0, false, false, []⟩

/-- A latent ECC error of a 64-bit word (R185, R186). -/
inductive EccErr where
  | none | single | double
deriving DecidableEq, Repr

/-- An access that waits for a bank: for a wake or a power-up (R190, R192). `late` where it came after a change of the
bank's state was asked for, which it then does not delay (R192). -/
structure Stalled where
  acc : MemAccess
  late : Bool
deriving DecidableEq, Repr

/-! ### DMA, semaphores, arbitration -/

/-- A transfer descriptor in an engine's queue (R217, R223). `by_` is the submitting core, or none for Crown; `part`
its partition; `next` counts the requests issued, `wait` those unanswered. -/
structure Dma where
  desc : Nat
  by_ : Option Nat
  job : Option Nat
  part : Option Nat
  started : Bool
  waiting : Bool
  moved : Bool
  next : Nat
  wait : Nat
  status : Nat
deriving DecidableEq, Repr

/-- Who waits for a semaphore (R322). -/
inductive WaitFor where
  | queue (p : Nat) (eng : Nat)
  | dma (e : Nat)
  | sig (s : Nat)
deriving DecidableEq, Repr

/-- A waiter at a semaphore: what it needs, its number in order of request, grants made to others since, and whether it
is marked aged (R320). -/
structure Waiter where
  who : WaitFor
  need : Nat
  ticket : Nat
  others : Nat
  aged : Bool
deriving DecidableEq, Repr

/-! ### Placement -/

/-- What the placement engine rewrites: cores as (old, new), and old and new semaphores in step (R165, R244, R301, R318). -/
structure Move where
  cores : List (Nat × Nat)
  oldSems : List Nat
  newSems : List Nat
deriving DecidableEq, Repr

/-- A task's state as saved at a tile boundary (R306, R310): registers and live grid rows, the core it left, live bytes by
offset, refetch ranges as (offset, length, home), core-DMA descriptors not yet started, and how many
moves of its job it knows. The save area's layout is not given; its content is. -/
structure Saved where
  core : Core
  home : Nat
  cells : SMap Byte
  refetch : List (Nat × Nat × Nat)
  dmas : List Nat
  moves : Nat
deriving DecidableEq, Repr

/-- One task of a job: its entry (R504), the physical core that runs it, its saved state, its semaphores, and whether its
collector entry is taken. -/
structure Task where
  image : Nat
  imgLen : Nat
  ringOff : Nat
  ringLen : Nat
  core : Option Nat
  saved : Option Saved
  sems : List Nat
  done : Bool
deriving DecidableEq, Repr

/-- The state of a job. -/
inductive JobSt where
  | waiting | running | suspending | suspended | resuming | faulted
deriving DecidableEq, Repr

/-- A job (R298, R504): handle, queue set, partition, descriptor and progress. `gen` is its generation (R448), `reported`
that its FAULTED completion is written, `silent` that it gets none (R508), `pairs` the pair versions of 0x6030.01 at its
start (R456, R457). -/
structure Job where
  handle : Nat
  qset : Nat
  part : Nat
  desc : Nat
  st : JobSt
  prio : Nat
  gen : Nat
  tasks : List Task
  moves : List Move
  code : Nat
  faultTask : Nat
  reported : Bool
  silent : Bool
  pairs : Nat
deriving DecidableEq, Repr

/-- A core on loan to partition 0: the core, the lender and its logical core (R312). -/
structure Loan where
  core : Nat
  lender : Nat
  logical : Nat
  ready : Bool
deriving DecidableEq, Repr

/-- A collector entry (R325), and the task of its job that it is for. -/
structure CollEntry where
  take : Nat
  job : Nat
  code : Nat
  kind : Nat
  core : Nat
  part : Nat
  task : Nat
deriving DecidableEq, Repr

/-- A Mitten pair (R516): job, leader, follower; the spare of a vote (R524) or a re-run by both (R526); the registers
at the start of the tile; what the tile has acquired, as (queue, semaphore, amount), and read of semaphores (R519). -/
structure Pair where
  job : Nat
  leader : Nat
  follower : Nat
  spare : Option Nat
  retry : Bool
  start : Core
  acqd : List (Nat × Nat × Nat)
  tileReads : List Nat
deriving DecidableEq, Repr

/-! ### Signal cores -/

/-- One signal core (11_signal_cores.md). `accs` holds 8 accumulators of 16 lanes of (real, imaginary); `posts` the
outstanding POSTs as (instruction, its address, response code), oldest first, `lines` the fetch buffer as (line, its 64 bytes),
used last at the end (R345). -/
structure Sig where
  v : Vector (BitVec 512) 32
  accs : Vector (List (Int × Int)) 8
  a : Vector (BitVec 32) 16
  m : Vector (BitVec 32) 8
  l : Vector (BitVec 32) 4
  ie : Bool
  inh : Bool
  ien : BitVec 16
  ipend : BitVec 16
  ivec : BitVec 32
  epc : BitVec 32
  tmr : BitVec 32
  watch : BitVec 16
  flags : Flags
  pc : BitVec 32
  entry : BitVec 16
  faulted : Bool
  running : Bool
  run : Bool
  waiting : Bool
  semWait : Bool
  posts : List (Nat × Nat × Nat)
  lines : List (Nat × Nat)
  frec : Nat
deriving DecidableEq, Repr

/-- A signal core with every register 0 (R332). -/
def Sig.reset : Sig where
  v := Vector.replicate 32 0#512
  accs := Vector.replicate 8 (List.replicate 16 (0, 0))
  a := Vector.replicate 16 0#32
  m := Vector.replicate 8 0#32
  l := Vector.replicate 4 0#32
  ie := false
  inh := false
  ien := 0#16
  ipend := 0#16
  ivec := 0#32
  epc := 0#32
  tmr := 0#32
  watch := 0#16
  flags := ⟨false, false, false, false⟩
  pc := 0#32
  entry := 0#16
  faulted := false
  running := false
  run := false
  waiting := false
  semWait := false
  posts := []
  lines := []
  frec := 0

/-! ### Radio -/

/-- A slot whose stages are watched (R371, R373). `took` lists the stages taken, `path` is PATH of its record,
`declared` the stage declared late or early. -/
structure SlotRec where
  frame : Int
  slot : Nat
  took : List Nat
  warned : List Nat
  declared : Option Nat
  path : Nat
  early : Bool
  frozen : Bool
  reported : Bool
deriving DecidableEq, Repr

/-- One cell. `owed` lists the stages of takes still owed to slots declared late or early (R373, R376); `enabledAt` is when
the write that enabled it was acknowledged, none where it was enabled before the device came up (R363). -/
structure CellSt where
  running : Bool
  stopping : Bool
  slots : List SlotRec
  owed : List Nat
  fallback : Option (Int × Nat)
  enabledAt : Option Nat
deriving DecidableEq, Repr

/-- One ingested stream's symbol number: digest so far of the symbol in reception, whether it is non-empty, the
digest of the previous non-empty occurrence, its run length, and FROZEN (R380, R382). -/
structure Stream where
  eaxc : Nat
  symbol : Nat
  digest : Nat
  nonEmpty : Bool
  prev : Option Nat
  run : Nat
  frozen : Bool
deriving DecidableEq, Repr

/-- A PRB received: its stream, frame, slot, symbol and number, its mantissas and exponent (R366, R368). -/
structure PrbIn where
  eaxc : Nat
  frame : Int
  slot : Nat
  symbol : Nat
  prb : Nat
  data : Prb
deriving DecidableEq, Repr

/-- S1's output for one symbol of a slot (R369, R370): of each resource element its blocks along the antenna dimension, as the
block's S8 code and its I8 element codes; the tensor scale is 1.0. -/
structure S1Out where
  cell : Nat
  frame : Int
  slot : Nat
  symbol : Nat
  blocks : List (List (Nat × List Nat))
deriving DecidableEq, Repr

/-- The frames of a job marked as a frame stream (R381, R382): stored digests of frames not yet complete, as (step, digest, whether
an element is not 0), the last digest, how often it came in a row, and whether the stream is frozen. -/
structure FrameStream where
  job : Nat
  parts : List (Nat × Nat × Bool)
  prev : Option Nat
  run : Nat
  frozen : Bool
deriving DecidableEq, Repr

/-- The radio part of the device: cells; PRBs received; S1's outputs kept; detector streams and frame streams; the code
engines; downlink symbols sent or given up as (cell, frame, slot, symbol); the last slot boundary fired, counted from
frame 0; soft buffers as they were before a slot, as (cell, frame, slot, address, bytes, old value). -/
structure Radio where
  cells : Vector CellSt 3
  received : List PrbIn
  s1out : List S1Out
  streams : List Stream
  frames : List FrameStream
  engRetired : List Bool
  engLost : Bool
  dlDone : List (Nat × Int × Nat × Nat)
  dlLateSlots : List (Nat × Int × Nat)
  lastSlot : Option Int
  harqUndo : List (Nat × Int × Nat × Nat × Nat × Nat)
deriving DecidableEq, Repr

/-! ### Far-reach link -/

/-- A far-reach frame in reception (R399 to R402). Frequency and time offsets are in eighths. -/
structure Rx where
  m : Nat
  bw : Nat
  start : Nat
  confirmed : Bool
  node : Option Nat
  freq : Int
  time : Int
  recs : List Nat
  classic : Nat
  learnedAll : Bool
deriving DecidableEq, Repr

/-- An open receive window of a scheduled node (R414): ledger place, first and last instant. -/
structure RxWindow where
  node : Nat
  opens : Int
  closes : Int
  heard : Bool
deriving DecidableEq, Repr

/-- A frame being combined at the home site (R418). -/
structure Combine where
  addr : Nat
  epoch : Nat
  recs : List Nat
  arrival : Option Nat
  learned : Bool
  closed : Bool
deriving DecidableEq, Repr

/-- The far-reach part of the device. `since` counts AGC updates since the last increase. -/
structure FarReach where
  gain : Nat
  since : Nat
  rx : List Rx
  windows : List RxWindow
  txBusy : Bool
  txEn : Bool
  rxEn : Bool
  deferred : List (Nat × Nat)
  combines : List Combine
  jesdUp : Bool
  ringHalf : SMap Nat
deriving DecidableEq, Repr

/-! ### Fabric -/

/-- One Brim link (R431 to R436): lanes that are good, width code, passing tests of dropped lanes, sequence state,
unacknowledged flits with their send counts, messages that wait for credits, credits to send and owed, the message in
reception, and the partner with the pair version and what its last training sent (R454). -/
structure LinkSt where
  up : Bool
  training : Bool
  good : BitVec 4
  width : Nat
  passes : List Nat
  nextSeq : Nat
  expSeq : Nat
  nak : Bool
  replay : List (Nat × Flit × Nat)
  txq : List Msg
  credits : List Nat
  owed : List Nat
  rxLeft : Nat
  slices : List Word128
  partner : Nat
  pairVer : Nat
  peer : Option TrainInfo
deriving DecidableEq, Repr

/-- A link before training. -/
def LinkSt.reset : LinkSt where
  up := false
  training := false
  good := 0#4
  width := 0
  passes := [0, 0, 0, 0]
  nextSeq := 0
  expSeq := 0
  nak := false
  replay := []
  txq := []
  credits := [1024, 1024, 1024, 128]
  owed := [0, 0, 0, 0]
  rxLeft := 0
  slices := []
  partner := 0
  pairVer := 0
  peer := none

/-- One tunnel (R437 to R440). -/
structure TunSt where
  up : Bool
  nextSeq : Nat
  expSeq : Nat
  unacked : List (Nat × BitVec 512)
  nak : Bool
  txq : List Msg
  credits : List Nat
  owed : List Nat
  rxLeft : Nat
  slices : List Word128
deriving DecidableEq, Repr

/-- A request this node has outstanding (R428): the engine it came from (a core's LITE by ord, a DMA engine, or
none), and its message for the resend of R443. `stale` counts STALE_ROLE answers in a row (R444). A READ of a descriptor
names where the n bytes behind the first `skip` go, or the n bytes `data` that its words are to be written back with. -/
inductive ReqFrom where
  | lite (p ord : Nat)
  | dma (e : Nat)
  | dmaRead (e dst skip n : Nat)
  | dmaMerge (e dst n data : Nat)
  | claim (p : Nat)
  | other
deriving DecidableEq, Repr

structure Outst where
  node : Nat
  tag : Nat
  origin : ReqFrom
  msg : Msg
  stale : Nat
deriving DecidableEq, Repr

/-- A lease with a partner for a step of a job (R445). -/
structure Lease where
  node : Nat
  job : Nat
  gen : Nat
  step : Nat
deriving DecidableEq, Repr

/-- A run over several nodes under staged commit (R445 to R450): job, generation, its nodes, the step in progress,
STEP_DONE received here, and the last step known committed. -/
structure Run where
  job : Nat
  gen : Nat
  nodes : List Nat
  step : Nat
  doneBy : List Nat
  committed : Option Nat
  fenced : Bool
  dropped : List Nat
deriving DecidableEq, Repr

/-- Crossing transfers of the engine at one scratchpad (R451, R452): its own claim (target node and core), whether it is
granted, whether it waits for FREE or for 512 ns; the claimants it yielded and queued, as (node, core, count or tag). -/
structure ClaimSt where
  own : Option (Nat × Nat)
  granted : Bool
  waiting : Bool
  yielded : List (Nat × Nat × Nat)
  queued : List (Nat × Nat × Nat)
deriving DecidableEq, Repr

/-- No crossing transfer. -/
def ClaimSt.none : ClaimSt := ⟨.none, false, false, [], []⟩

/-- The fabric part of the device. `inbox` holds the messages that have arrived here and are not yet taken, with the port
they came by: a link, 8 + a tunnel, or 0xFE for the own node. `roles` is the remote role table (R443). -/
structure Fabric where
  links : Vector LinkSt 4
  tuns : Vector TunSt 8
  inbox : List (Nat × Msg)
  outst : List Outst
  claims : SMap ClaimSt
  leases : List Lease
  runs : List Run
  timeSeq : Nat
  roles : SMap Nat
deriving DecidableEq, Repr

/-! ### Time -/

/-- An acknowledged timebase write that is not yet applied (R462). -/
inductive TbAdj where
  | inc (v : Nat)
  | step (v : Int)
  | set (v : Nat)
deriving DecidableEq, Repr

/-- The timebase (R459): the whole value in units of 2^-32 ns, SEC x 10^9 + NSEC with 32 fraction bits. `theta` and `delay`
are the results of the last Brim exchange (R476), `offsets` the last servo offsets, newest first; `fired` holds the scheduled
instants fired or skipped, `ppsFired` the seconds whose PPS_OUT edge has fired (R464). -/
structure TimeSt where
  now : Nat
  inc : Nat
  pend : List TbAdj
  theta : Int
  delay : Int
  refSel : Bool
  refOk : Bool
  offsets : List Int
  lastPps : Nat
  lastSysref : Nat
  ppsHigh : Bool
  portUp : List Bool
  fired : List Nat
  ppsFired : List Nat
deriving DecidableEq, Repr

/-! ### Management, notices, host -/

/-- A dictionary mailbox (R492): OD_CMD without GO, OD_STATUS fields, and DATA. -/
structure Mailbox where
  cmd : Nat
  rlen : Nat
  busy : Bool
  done : Bool
  err : Nat
  data : Nat
deriving DecidableEq, Repr

/-- An open segmented transfer (R489): a write being received or a read being sent. -/
structure Xfer where
  path : Path
  req : Nat
  isWrite : Bool
  index : Nat
  sub : Nat
  len : Nat
  seq : Nat
  data : Nat
deriving DecidableEq, Repr

/-- A notice channel (R495, R497): SEQ of the last notice meant for it, waiting notices, all drops, drops since the
last NOTICE_LOST. -/
structure Channel where
  seq : Nat
  queue : List Nat
  dropped : Nat
  recent : Nat
deriving DecidableEq, Repr

/-- A host ring's register block (R501). `open_` is true inside a MOD interval and `due` says that entries have been
written in it (R503). -/
structure Ring where
  base : Nat
  enable : Bool
  mod_ : Nat
  vec : Nat
  log2n : Nat
  prod : Nat
  cons : Nat
  open_ : Bool
  due : Bool
deriving DecidableEq, Repr

/-- A ring block at reset: CFG.LOG2N 4, the rest 0 (R501). -/
def Ring.reset : Ring := ⟨0, false, 0, 0, 4, 0, 0, false, false⟩

/-- A completion waiting for its ring (R503): queue set and 32-byte entry without PHASE. -/
structure CompEntry where
  qset : Nat
  entry : Nat
deriving DecidableEq, Repr

/-- Where the reply to a dictionary access goes: to the requester itself, to a mailbox (R492, R576), into a response frame
with its CMD and in-band request identifier (R488, R491), or into a MGMT message. -/
inductive ReplyTo where
  | direct (by_ : Requester)
  | mail (f : Option FuncId)
  | frame (path : Path) (cmd req : Nat)
  | mgmt (hdr : Word128) (cmd : Nat)
deriving DecidableEq, Repr

/-- A persisted write in progress (R485). -/
structure Persist where
  to_ : ReplyTo
  index : Nat
  sub : Nat
  old : Nat
  value : Nat
deriving DecidableEq, Repr

/-- A dictionary access: a write of `len` bytes with a route for its reply, a mailbox command, or an access frame. -/
inductive OdAccess where
  | write (by_ : Requester) (to_ : ReplyTo) (index sub len v : Nat)
  | mail (f : Option FuncId) (cmd : BitVec 64) (data : Nat)
  | frame (path : Path) (req : Nat) (f : AccFrame)
  | mgmt (hdr : Word128) (node : Nat) (f : AccFrame)
deriving DecidableEq, Repr

/-- The host side. Rings are keyed by function x 65,536 + BAR0 offset. `canHeld` is the CAN node ID and data-phase rate still
in force while transfers on CAN that were open at their change are open (table "Communication entries"). -/
structure HostSt where
  mail : SMap Mailbox
  window : Mailbox
  xfers : List Xfer
  canHeld : Option (Nat × Nat)
  chans : Vector Channel 19
  rings : SMap Ring
  held : List CompEntry
  pcieUp : Bool
  msixMask : List (Nat × Nat)
  msixPending : List (Nat × Nat)
  persists : List Persist
  waiting : List OdAccess
  journal : List Nat
  journalNew : List Nat
deriving DecidableEq, Repr

/-- What the device puts on its outputs. -/
inductive Emission where
  /-- a dictionary reply to a requester: index, sub-index, error code, length and value -/
  | odReply (by_ : Requester) (index sub err len value : Nat)
  /-- a CAN or in-band access frame, with the request identifier that an in-band one echoes -/
  | accFrame (path : Path) (req : Nat) (f : AccFrame)
  /-- a notice leaving on a channel; on CAN, as a frame on each bus that carries notices (R498) -/
  | notice (ch : Nat) (n : Nat)
  | canNotice (b : Fin 2) (h : CanHead) (n : Nat)
  /-- an entry written to host memory: function, BAR0 offset of its ring, address, bytes, value -/
  | hostWrite (f off addr bytes v : Nat)
  | msix (f vec : Nat)
  /-- a fabric message sent -/
  | msg (m : Msg)
  | linkCtl (l ack : Nat) (nak : Bool) (credits : List Nat)
  | flitSent (l : Nat) (f : Flit)
  | tunSent (t seq ack : Nat) (nak : Bool) (credits : List Nat) (flits : List (BitVec 512))
  | timeMsg (l : Nat) (payload : BitVec 384)
  /-- a datagram to an address of a dictionary entry: its key and the content -/
  | datagram (key content : Nat)
  /-- the datagrams, of at most 1,024 bytes each, with the transport blocks of a slot result: the key of their address,
  how many blocks and where they lie (R509; log 53) -/
  | transportBlocks (key count base : Nat)
  /-- the response of a memory access, to the master of the core (or signal core) that made it -/
  | memResp (m : Master) (core code data : Nat)
  /-- data of a BAR2 read -/
  | barData (data : Nat)
  /-- a frame sent on a port: its bytes in wire order -/
  | frameSent (port len content : Nat)
  /-- STATUS written into a PKT_TX entry, and its STAMP where one is written -/
  | pktDone (status : Nat) (stamp : Option Nat)
  /-- a received frame handed on: its class in Time.lean and its stamp -/
  | pktRx (cls stamp : Nat)
  /-- a C-plane section handed to the receiver program, and whether it is PRACH -/
  | cPlane (eaxc : Nat) (prach : Bool)
  /-- a far-reach frame on air: m, bandwidth code, chirp shifts of its data symbols -/
  | chirps (m bw : Nat) (shifts : List Nat)
  /-- a downlink symbol: exponent and mantissas -/
  | uPlane (cell : Nat) (exponent : Nat) (mantissas : List Int)
  | frTxStatus (status sent : Nat)
  /-- a soft symbol record sent to the home site of its group, with NODE_ADDR and EPOCH (R418) -/
  | frRecord (home addr epoch rec_ : Nat)
  /-- the coded bits of a downlink code block (R388) -/
  | encoded (bits : List Bool)
  /-- decoded bits of a code block, and whether they pass -/
  | decoded (bits : List Bool) (ok : Bool)
  /-- a persisted copy or journal page written to the boot flash -/
  | flash (kind v : Nat)
deriving DecidableEq, Repr

/-! ### Safety, power, pins -/

/-- The state of a canton's spare (7010: SPARE_STATE). -/
inductive SpareSt where
  | ready | inTest | lent | none
deriving DecidableEq, Repr

/-- Crown's service (R535). -/
inductive CrownSt where
  | running | restarting
deriving DecidableEq, Repr

/-- A core away for self-test (R529, R530, R525): the core, the core that stands in for it, whether the stand-in is lent by
another canton or a vote and so goes back, and the outcome while the way back is still to come. -/
structure SelfTest where
  core : Nat
  standIn : Nat
  lent : Bool
  passed : Option Bool
deriving DecidableEq, Repr

/-- The safety part. `spare c` is the position of the spare in canton c; `swapDue c` the core whose rotation is due;
`testDue` the cores that failed a tile outside a pair (R528); `reqRevert` says that the handover asked for goes back;
`minors` are the protocol minors of levels 1 and 2 that the running image runs, `oldMinors` the old image's (R454, R457). -/
structure Safety where
  spare : List (Option Nat)
  spareSt : List SpareSt
  retired : List Nat
  railOk : List Bool
  lastTested : List (Option Nat)
  swapDue : List (Option Nat)
  testDue : List Nat
  testing : List SelfTest
  pairs : List Pair
  crown : CrownSt
  crownFault : Bool
  reqHandover : Bool
  reqRevert : Bool
  activeSlot : Nat
  bootDefault : Nat
  version : Nat
  oldVersion : Nat
  nextVersion : Nat
  minors : List Nat
  oldMinors : List Nat
  skipped : Nat
deriving DecidableEq, Repr

/-- Power, reset and bring-up. `stopped` says that a trip has stopped the clocks (R558), `verified` that the boot ROM has a
verified slot (R553), `capSteps` the throttle steps on each canton's cap (R557), `railMv` the set values of the canton rails
(R545), `refreshOwed` the refreshes postponed per stack (R288). -/
structure Power where
  level : Nat
  limit : List Nat
  freq : List Nat
  calm : Nat
  throttled : Bool
  hotCanton : Nat
  lostDomain : Bool
  capSteps : List Nat
  railMv : List Nat
  tripped : Bool
  tripTime : Nat
  stopped : Bool
  cause : Nat
  otherSlot : Bool
  powerFail : Bool
  straps : Nat
  alertLow : Bool
  verified : Bool
  hbmLost : List Nat
  quadLost : List Nat
  refreshOwed : List Nat
deriving DecidableEq, Repr

/-- The TAP controller's states (R569, IEEE 1149.1). -/
inductive TapSt where
  | reset | idle
  | selDr | capDr | shDr | ex1Dr | pauseDr | ex2Dr | updDr
  | selIr | capIr | shIr | ex1Ir | pauseIr | ex2Ir | updIr
deriving DecidableEq, Repr

/-- The TAP's instructions (R569). -/
inductive TapInstr where
  | bypass | idcode | sample | extest
deriving DecidableEq, Repr

/-- The TAP: controller, instruction, its shift register, the data register, the boundary latches, and the level on TDO
(none: high impedance). -/
structure Tap where
  st : TapSt
  ir : TapInstr
  irShift : Nat
  dr : Nat
  latch : Nat
  tdo : Option Bool
deriving DecidableEq, Repr

/-! ### The whole device -/

/-- The state of the device. `pending`, `out` and `free` are the model's own fields. -/
structure State where
  pending : List Instr
  out : List Emission
  free : Nat
  mem : SMap Byte
  ecc : SMap EccErr
  writeBack : List Nat
  banks : SMap Bank
  lost : SMap Nat
  dmaLast : SMap Nat
  stalled : List Stalled
  cores : Vector Core 72
  sems : SMap Nat
  semOwner : SMap Nat
  waiters : SMap (List Waiter)
  ticket : Nat
  dmas : SMap (List Dma)
  roleGen : SMap Nat
  dict : SMap Nat
  dictP : SMap Nat
  logical : SMap Nat
  segOwner : SMap Nat
  segStack : SMap Nat
  bankOwner : SMap Nat
  jobs : List Job
  loans : List Loan
  latches : SMap (List CollEntry)
  latchHeld : List CollEntry
  collQ : List CollEntry
  collCycle : Nat
  sigs : Vector Sig 32
  radio : Radio
  fr : FarReach
  fab : Fabric
  time : TimeSt
  host : HostSt
  visor : SMap Nat
  safety : Safety
  power : Power
  tap : Tap
deriving DecidableEq, Repr

/-- A core that runs nothing (R237 gives the stream's state; log 1 the rest). -/
def Core.reset : Core where
  mode := .idle
  job := none
  task := 0
  ringBase := 0
  ringLen := 0
  pos := 0
  fetched := []
  ord := 0
  seqWait := .none
  needs := []
  tileEnds := []
  tileNo := 0
  tileRet := 0
  vl := 4096
  vrate := 0
  alevel := 2
  seed := 0
  step := 0
  stepHeld := false
  loops := []
  digests := List.replicate 8 0
  digestNz := List.replicate 8 false
  setg := List.replicate 64 0
  qLoader := []
  qArray := []
  qDrain := []
  qVector := []
  active := none
  shadow := none
  loading := none
  lastW := none
  lastM := none
  wPassed := true
  wSince := []
  wRows := []
  wBlen := []
  feeders := []
  pipe := []
  grid := []
  residue := none
  deferred := []
  tileCycles := []
  lites := []
  liteFaults := []
  frec := ⟨0, 0, 0, 0, 0, 0⟩
  flags := ⟨false, false, false, false⟩
  haltCode := 0
  saveMap := none
  tileDigest := 0
  actNo := 0
  reads := []
  replayAcq := []
  held := []
  undo := []
  undoRows := []
  undoBytes := 0
  retiredTile := false
  tileFault := none

/-- A cell that serves nothing. -/
def CellSt.reset : CellSt := ⟨false, false, [], [], none, none⟩

/-- A mailbox at reset (R492). -/
def Mailbox.reset : Mailbox := ⟨0, 0, false, false, 0, 0⟩

/-- A tunnel at reset. -/
def TunSt.reset : TunSt :=
  ⟨false, 0, 0, [], false, [], [32768, 32768, 32768, 32768], [0, 0, 0, 0], 0, []⟩

/-- The device right after reset: the values the spec states, and those that log 1 names. -/
def State.reset : State where
  pending := []
  out := []
  free := 0
  mem := []
  ecc := []
  writeBack := []
  banks := []
  lost := []
  dmaLast := []
  stalled := []
  cores := Vector.replicate 72 Core.reset
  sems := []
  semOwner := []
  waiters := []
  ticket := 0
  dmas := []
  roleGen := []
  dict := []
  dictP := []
  logical := []
  segOwner := []
  segStack := []
  bankOwner := []
  jobs := []
  loans := []
  latches := []
  latchHeld := []
  collQ := []
  collCycle := 0
  sigs := Vector.replicate 32 Sig.reset
  radio :=
    { cells := Vector.replicate 3 CellSt.reset
      received := []
      s1out := []
      streams := []
      frames := []
      engRetired := [false, false, false, false]
      engLost := false
      dlDone := []
      dlLateSlots := []
      lastSlot := none
      harqUndo := [] }
  fr :=
    { gain := 0
      since := 200
      rx := []
      windows := []
      txBusy := false
      txEn := false
      rxEn := false
      deferred := []
      combines := []
      jesdUp := false
      ringHalf := [] }
  fab :=
    { links := Vector.replicate 4 LinkSt.reset
      tuns := Vector.replicate 8 TunSt.reset
      inbox := []
      outst := []
      claims := []
      leases := []
      runs := []
      timeSeq := 0
      roles := [] }
  time :=
    { now := 0
      inc := 0x140000000
      pend := []
      theta := 0
      delay := 0
      refSel := true
      refOk := false
      offsets := []
      lastPps := 0
      lastSysref := 0
      ppsHigh := false
      portUp := List.replicate 8 false
      fired := []
      ppsFired := [] }
  host :=
    { mail := []
      window := Mailbox.reset
      xfers := []
      canHeld := none
      chans := Vector.replicate 19 ⟨0, [], 0, 0⟩
      rings := []
      held := []
      pcieUp := false
      msixMask := []
      msixPending := []
      persists := []
      waiting := []
      journal := []
      journalNew := [] }
  visor := []
  safety :=
    { spare := List.replicate 8 none
      spareSt := List.replicate 8 .none
      retired := []
      railOk := List.replicate 8 false
      lastTested := List.replicate 8 none
      swapDue := List.replicate 8 none
      testDue := []
      testing := []
      pairs := []
      crown := .running
      crownFault := false
      reqHandover := false
      reqRevert := false
      activeSlot := 0
      bootDefault := 0
      version := 0
      oldVersion := 0
      nextVersion := 0
      minors := [1, 0]
      oldMinors := [1, 0]
      skipped := 0 }
  power :=
    { level := 0
      limit := List.replicate 72 1600
      freq := List.replicate 72 0
      calm := 0
      throttled := false
      hotCanton := 0
      lostDomain := false
      capSteps := List.replicate 8 0
      railMv := List.replicate 8 750
      tripped := false
      tripTime := 0
      stopped := false
      cause := 0
      otherSlot := false
      powerFail := false
      straps := 0
      alertLow := false
      verified := false
      hbmLost := []
      quadLost := []
      refreshOwed := [0, 0, 0, 0] }
  tap := ⟨.reset, .idcode, 0, 0, 0, none⟩

end Sys2Proof.Machine
end

