-- ==== Sys2Proof/Machine/Flags.lean ====
section
/-! DEFINITION. The arithmetic flags (R41 to R43, R331). -/

namespace Sys2Proof.Machine

/-- No flag. -/
def Flags.clear : Flags := ⟨false, false, false, false⟩

/-- INV alone. -/
def Flags.ofInv (b : Bool) : Flags := ⟨b, false, false, false⟩

/-- SAT with INX, as a saturated stored result sets them (R41). -/
def Flags.saturated : Flags := ⟨false, true, false, true⟩

/-- INX alone. -/
def Flags.ofInx (b : Bool) : Flags := ⟨false, false, false, b⟩

/-- SAT alone (R101, R334). -/
def Flags.ofSat (b : Bool) : Flags := ⟨false, b, false, false⟩

/-- The flags set by either of two operations: flags are sticky (R42). -/
def Flags.join (a b : Flags) : Flags :=
  ⟨a.inv || b.inv, a.sat || b.sat, a.unf || b.unf, a.inx || b.inx⟩

/-- The flags of a list of operations together. -/
def Flags.joinAll (l : List Flags) : Flags := l.foldl Flags.join Flags.clear

/-- The flags as the table "Flags entry" lays them out (R43). -/
def Flags.toNat (f : Flags) : Nat := 8 * b2n f.inv + 4 * b2n f.sat + 2 * b2n f.unf + b2n f.inx

/-- A write of the flags entry: a 1 clears its flag (W1C), a 0 leaves it (R43). -/
def Flags.w1c (f : Flags) (v : Nat) : Flags :=
  ⟨f.inv && !bit v 3, f.sat && !bit v 2, f.unf && !bit v 1, f.inx && !bit v 0⟩

/-- Flags read back from a saved entry. -/
def Flags.ofNat (v : Nat) : Flags := ⟨bit v 3, bit v 2, bit v 1, bit v 0⟩

end Sys2Proof.Machine
end

