-- ==== Sys2Proof/Machine/Exact.lean ====
section
/-! DEFINITION. Number formats, exact values, rounding, saturation and conversion (02_number_formats.md). An exact
value is a fraction; every operation rounds once, at its end (R34). -/

namespace Sys2Proof.Machine

/-- An encoding of the tables "Format codes" and "Floating-point encodings" (R25, R26): two's complement of a width,
or a float with exponent and mantissa widths, bias, an infinity and NaN codes; `ocp` is F8A, whose only special
code is all ones. -/
inductive Enc where
  | int (w : Nat)
  | flt (e m : Nat) (bias : Int) (hasInf hasNan ocp : Bool)
deriving DecidableEq, Repr

/-- The encoding behind a format code; CI16 (0x3) has none of its own and 0xC to 0xF are held (R25). -/
def encOf (fmt : Nat) : Option Enc :=
  match fmt with
  | 0x0 => some (.int 4)
  | 0x1 => some (.int 8)
  | 0x2 => some (.int 16)
  | 0x4 => some (.flt 2 1 1 false false false)
  | 0x5 => some (.flt 3 2 3 false false false)
  | 0x6 => some (.flt 2 3 1 false false false)
  | 0x7 => some (.flt 4 3 7 false true true)
  | 0x8 => some (.flt 5 2 15 true true false)
  | 0x9 => some (.flt 8 7 127 true true false)
  | 0xA => some (.flt 5 10 15 true true false)
  | 0xB => some (.flt 8 23 127 true true false)
  | _ => none

/-- Element width in bits of a format code (R202). -/
def fmtBits (fmt : Nat) : Nat :=
  match fmt with
  | 0x0 => 4 | 0x1 => 8 | 0x2 => 16 | 0x3 => 32 | 0x4 => 4 | 0x5 => 6 | 0x6 => 6 | 0x7 => 8 | 0x8 => 8
  | 0x9 => 16 | 0xA => 16 | 0xB => 32 | _ => 8

/-- Whether a format code is an integer format. -/
def fmtIsInt (fmt : Nat) : Bool := fmt < 3

/-- An exact value: a fraction with positive divisor and, where it is zero, its sign; an infinity; a NaN, quiet or
signalling (R27). -/
inductive Val where
  | num (n : Int) (d : Nat) (negZero : Bool)
  | inf (neg : Bool)
  | nan (signalling : Bool)
deriving DecidableEq, Repr

/-- 2^e as a fraction. -/
def pow2 (e : Int) : Int × Nat := if 0 ≤ e then (2 ^ e.toNat, 1) else (1, 2 ^ (-e).toNat)

/-- n / d x 2^e as a value. -/
def scaled (n : Int) (d : Nat) (e : Int) : Val :=
  .num (n * (pow2 e).1) (d * (pow2 e).2) false

/-- An integer as a value. -/
def ofInt (n : Int) : Val := .num n 1 false

/-- The value of a code in an encoding (R26, R27). -/
def decodeEnc (c : Enc) (code : Nat) : Val :=
  match c with
  | .int w => ofInt (sext w code)
  | .flt eb mb bias _ hasNan ocp =>
    let neg := bit code (eb + mb)
    let e := bits code (eb + mb - 1) mb
    let m := code % 2 ^ mb
    let ones := e = 2 ^ eb - 1
    if hasNan ∧ ones ∧ ocp ∧ m = 2 ^ mb - 1 then .nan false
    else if hasNan ∧ ones ∧ ¬ ocp then
      (if m = 0 then .inf neg else .nan (!bit m (mb - 1)))
    else
      let mag : Nat := if e = 0 then m else 2 ^ mb + m
      let ex : Int := (if e = 0 then 1 - bias else (e : Int) - bias) - mb
      let n : Int := if neg then -(mag : Int) else mag
      .num (n * (pow2 ex).1) (pow2 ex).2 (neg && mag == 0)

/-- The value of an element code of a format (R25). -/
def decodeFmt (fmt code : Nat) : Val :=
  match encOf fmt with
  | some c => decodeEnc c code
  | none => .nan false

/-- The canonical NaN of a float encoding (R28): quiet bit and exponent all ones; F8A's is 0x7F. -/
def canonNan (eb mb : Nat) (ocp : Bool) : Nat :=
  (2 ^ eb - 1) * 2 ^ mb + (if ocp then 2 ^ mb - 1 else 2 ^ (mb - 1))

/-- The code of the largest finite magnitude of a float encoding, sign clear (R26). -/
def maxFinCode (eb mb : Nat) (hasNan ocp : Bool) : Nat :=
  if !hasNan then 2 ^ (eb + mb) - 1
  else if ocp then 2 ^ (eb + mb) - 2
  else (2 ^ eb - 1) * 2 ^ mb - 1

/-- A magnitude code with its sign. -/
def withSign (eb mb : Nat) (neg : Bool) (mag : Nat) : Nat := mag + (if neg then 2 ^ (eb + mb) else 0)

/-- The exponent of the binade of |n| / d, n not 0. -/
def binade (n : Nat) (d : Nat) : Int :=
  let e : Int := (Nat.log2 n : Int) - Nat.log2 d
  if (n : Int) * (pow2 e).2 < (d : Int) * (pow2 e).1 then e - 1 else e

/-- A stored code and the flags its storing sets. -/
structure Stored where
  code : Nat
  fl : Flags
deriving DecidableEq, Repr

/-- Storing a value in an integer format (R33, R37 to R39, R41). -/
def storeInt (w : Nat) (v : Val) : Stored :=
  let lo : Int := -(2 ^ (w - 1))
  let hi : Int := 2 ^ (w - 1) - 1
  match v with
  | .nan _ => ⟨enc w hi, Flags.ofInv true⟩
  | .inf neg => ⟨enc w (if neg then lo else hi), Flags.saturated⟩
  | .num n d _ =>
    let r := roundDiv n d
    if r < lo then ⟨enc w lo, Flags.saturated⟩
    else if hi < r then ⟨enc w hi, Flags.saturated⟩
    else ⟨enc w r, Flags.ofInx (decide (r * d ≠ n))⟩

/-- Storing a value in a float format (R33, R35, R37 to R39, R41). -/
def storeFlt (eb mb : Nat) (bias : Int) (hasInf hasNan ocp : Bool) (v : Val) : Stored :=
  match v with
  | .nan _ =>
    if hasNan then ⟨canonNan eb mb ocp, Flags.clear⟩
    else ⟨maxFinCode eb mb hasNan ocp, Flags.ofInv true⟩
  | .inf neg =>
    if hasInf then ⟨withSign eb mb neg ((2 ^ eb - 1) * 2 ^ mb), Flags.clear⟩
    else ⟨withSign eb mb neg (maxFinCode eb mb hasNan ocp), Flags.saturated⟩
  | .num n d negZero =>
    if n = 0 then ⟨withSign eb mb negZero 0, Flags.clear⟩
    else
      let emin : Int := 1 - bias
      let e := binade n.natAbs d
      let e' := if e < emin then emin else e
      let q := pow2 (e' - mb)
      let r := roundDiv (n * q.2) (d * q.1.toNat)
      let inexact := decide (r * q.1 * d ≠ n * q.2)
      let mag : Nat := (e' - emin).toNat * 2 ^ mb + r.natAbs
      let neg := decide (n < 0)
      if maxFinCode eb mb hasNan ocp < mag then
        ⟨withSign eb mb neg (maxFinCode eb mb hasNan ocp), Flags.saturated⟩
      else
        ⟨withSign eb mb neg (if r = 0 then 0 else mag),
          ⟨false, false, decide (e < emin) && inexact, inexact⟩⟩

/-- Storing a value in a format, quantisation mode "none" (R33 to R39). -/
def storeFmt (fmt : Nat) (v : Val) : Stored :=
  match encOf fmt with
  | some (.int w) => storeInt w v
  | some (.flt eb mb bias i n o) => storeFlt eb mb bias i n o v
  | none => ⟨0, Flags.clear⟩

/-- INV of reading a signalling NaN (R40). -/
def Val.sigInv (v : Val) : Bool :=
  match v with
  | .nan s => s
  | _ => false

/-- Conversion between two real formats (R45): the source's exact value, stored in the destination. -/
def convert (src dst code : Nat) : Stored :=
  let v := decodeFmt src code
  let s := storeFmt dst v
  ⟨s.code, Flags.join s.fl (Flags.ofInv v.sigInv)⟩

/-! ### Arithmetic on exact values (R34, R35, R40) -/

/-- A result and whether the operation sets INV. -/
abbrev ValI := Val × Bool

/-- The sign of a finite value, with the sign of zero. -/
def numNeg (n : Int) (negZero : Bool) : Bool := if n = 0 then negZero else decide (n < 0)

/-- Negation: exact, keeps NaN. -/
def Val.neg : Val → Val
  | .num n d z => .num (-n) d (if n = 0 then !z else false)
  | .inf s => .inf (!s)
  | .nan s => .nan s

/-- Sum (R35, R40). -/
def valAdd (a b : Val) : ValI :=
  match a, b with
  | .nan s, y => (.nan false, s || y.sigInv)
  | x, .nan s => (.nan false, s || x.sigInv)
  | .inf s, .inf t => if s = t then (.inf s, false) else (.nan false, true)
  | .inf s, .num _ _ _ => (.inf s, false)
  | .num _ _ _, .inf t => (.inf t, false)
  | .num n d z, .num n' d' z' =>
    (.num (n * d' + n' * d) (d * d') (n == 0 && n' == 0 && z && z'), false)

/-- Product (R35, R40). -/
def valMul (a b : Val) : ValI :=
  match a, b with
  | .nan s, y => (.nan false, s || y.sigInv)
  | x, .nan s => (.nan false, s || x.sigInv)
  | .inf s, .inf t => (.inf (s != t), false)
  | .inf s, .num n _ z => if n = 0 then (.nan false, true) else (.inf (s != numNeg n z), false)
  | .num n _ z, .inf t => if n = 0 then (.nan false, true) else (.inf (t != numNeg n z), false)
  | .num n d z, .num n' d' z' =>
    (.num (n * n') (d * d') (n * n' == 0 && (numNeg n z != numNeg n' z')), false)

/-- Fused multiply-add, rounded once by its caller; the product is judged on its own operands (R40). -/
def valFma (a b c : Val) : ValI :=
  let p := valMul a b
  let s := valAdd p.1 c
  (s.1, s.2 || p.2 || c.sigInv)

/-- Ordering of non-NaN values: a < b. Zeros of both signs are equal. -/
def valLt (a b : Val) : Bool :=
  match a, b with
  | .inf s, .inf t => s && !t
  | .inf s, _ => s
  | _, .inf t => !t
  | .num n d _, .num n' d' _ => decide (n * d' < n' * d)
  | _, _ => false

/-- Equality of non-NaN values, -0 equal to +0 (R145). -/
def valEq (a b : Val) : Bool :=
  match a, b with
  | .inf s, .inf t => s == t
  | .num n d _, .num n' d' _ => decide (n * d' = n' * d)
  | _, _ => false

/-- Whether a value is a NaN. -/
def Val.isNan : Val → Bool
  | .nan _ => true
  | _ => false

/-- The larger of two values; +0 is larger than -0; a NaN gives NaN (R53). -/
def valMax (a b : Val) : ValI :=
  if a.isNan || b.isNan then (.nan false, a.sigInv || b.sigInv)
  else if valEq a b then
    (match a with
     | .num n _ z => if n = 0 ∧ z = true then b else a
     | _ => a, false)
  else (if valLt a b then b else a, false)

/-- The smaller of two values; -0 is smaller than +0; a NaN gives NaN (R53). -/
def valMin (a b : Val) : ValI :=
  if a.isNan || b.isNan then (.nan false, a.sigInv || b.sigInv)
  else if valEq a b then
    (match a with
     | .num n _ z => if n = 0 ∧ z = false then b else a
     | _ => a, false)
  else (if valLt a b then a else b, false)

/-- Product of a finite value with n / d. -/
def Val.times (v : Val) (n : Int) (d : Nat) : Val :=
  match v with
  | .num a b z => .num (a * n) (b * d) z
  | w => w

/-! ### S8 codes and tensor scales (R29 to R32, R103) -/

/-- An S8 code as read: a held code reads as 0xFF and sets INV (R30). -/
def readS8 (code : Nat) : Nat × Bool :=
  if 0x80 ≤ code ∧ code < 0xFF then (0xFF, true) else (code % 256, false)

/-- The mantissa of an S8 code (R103). -/
def s8Mu (code : Nat) : Int := if code < 8 then (code : Int) else 8 + (code % 8 : Nat)

/-- The exponent of an S8 code (R103). -/
def s8Eps (code : Nat) : Int := if code < 8 then -9 else (bits code 6 3 : Int) - 10

/-- The value of a valid S8 code as a fraction: mantissa x 2^exponent (R29, R103). -/
def s8Val (code : Nat) : Int × Nat :=
  (s8Mu code * (pow2 (s8Eps code)).1, (pow2 (s8Eps code)).2)

/-- A tensor scale: positive, finite, normal FP32 (R32). -/
def tscaleOk (t : Nat) : Bool := !bit t 31 && decide (1 ≤ bits t 30 23 ∧ bits t 30 23 ≤ 254)

/-- The value of a valid tensor scale as a fraction. -/
def tscaleVal (t : Nat) : Int × Nat :=
  let p := pow2 ((bits t 30 23 : Int) - 127 - 23)
  ((2 ^ 23 + (t % 2 ^ 23 : Nat) : Int) * p.1, p.2)

/-- The value of element code q of a block with S8 code s (as read), zero point z, in a tensor with scale T (R29,
R31). Where forming it sets INV (R40: a signalling NaN read, infinity minus infinity) it is a NaN whose use sets INV. -/
def blockVal (fmt : Nat) (asym : Bool) (q s z t : Nat) : Val :=
  if s = 0xFF then .nan false
  else if s = 0 then .num 0 1 false
  else
    let v := decodeFmt fmt q
    let d := valAdd v (decodeFmt fmt z).neg
    let x := if asym then (if d.2 then .nan true else d.1) else v
    (x.times (s8Val s).1 (s8Val s).2).times (tscaleVal t).1 (tscaleVal t).2

/-- The largest finite element value of a format (R26). -/
def maxElem (fmt : Nat) : Int × Nat :=
  match encOf fmt with
  | some (.int w) => (2 ^ (w - 1) - 1, 1)
  | some (.flt eb mb bias i n o) =>
    (match decodeEnc (.flt eb mb bias i n o) (maxFinCode eb mb n o) with
     | .num a b _ => (a, b)
     | _ => (0, 1))
  | none => (0, 1)

/-- The least finite element value: the most negative integer, or minus the largest finite value (R47). -/
def minElem (fmt : Nat) : Int × Nat :=
  match encOf fmt with
  | some (.int w) => (-(2 ^ (w - 1)), 1)
  | _ => (-(maxElem fmt).1, (maxElem fmt).2)

/-- a <= b for fractions. -/
def fracLe (a b : Int × Nat) : Bool := decide (a.1 * b.2 ≤ b.1 * a.2)

/-- x / (s x T) for a fraction x. -/
def unscale (x : Int × Nat) (s t : Nat) : Int × Nat :=
  (x.1 * (s8Val s).2 * (tscaleVal t).2, x.2 * (s8Val s).1.toNat * (tscaleVal t).1.toNat)

/-- The finite values among a block's source elements. -/
def finites (xs : List Val) : List (Int × Nat) :=
  xs.filterMap (fun v => match v with | .num n d _ => some (n, d) | _ => none)

/-- Whether S8 code s meets the bound of R47 for the finite source elements xs. -/
def s8Fits (fmt : Nat) (asym : Bool) (z t : Nat) (xs : List (Int × Nat)) (s : Nat) : Bool :=
  xs.all fun x =>
    let u := unscale x s t
    if asym then
      match decodeFmt fmt z with
      | .num zn zd _ =>
        let y : Int × Nat := (u.1 * zd + zn * u.2, u.2 * zd)
        fracLe (minElem fmt) y && fracLe y (maxElem fmt)
      | _ => false
    else fracLe (u.1.natAbs, u.2) (maxElem fmt)

/-- The computed S8 code of a block (R47). -/
def computeS8 (fmt : Nat) (asym : Bool) (z t : Nat) (xs : List Val) : Nat :=
  let fs := finites xs
  if fs.all (fun x => x.1 = 0) then (if asym then 1 else 0)
  else
    match ((List.range 0x7F).map (· + 1)).find? (s8Fits fmt asym z t fs) with
    | some s => s
    | none => 0x7F

/-- A source element of a block: its value, and whether it is a SAT grid word, which then stands as an infinity of ACC's
sign (R147). -/
abbrev BlockSrc := Val × Bool

/-- A source element that no scaling changes: a SAT grid word is stored as the largest finite element value of its sign,
with SAT and INX (R147), any other by R38. -/
def storeBlockInf (fmt : Nat) (x : BlockSrc) : Stored :=
  match x.1, x.2 with
  | .inf neg, true =>
    let e := if neg then minElem fmt else maxElem fmt
    ⟨(storeFmt fmt (.num e.1 e.2 false)).code, ⟨false, true, false, true⟩⟩
  | v, _ => storeFmt fmt v

/-- Storing a source element into a block with S8 code s that is neither 0x00 nor NaN (R48): x / (s x T), plus v(z) in
asymmetric mode, a zero with the sign of R35; infinities by R38. -/
def storeBlockElem (fmt : Nat) (asym : Bool) (s z t : Nat) (x : BlockSrc) : Stored :=
  match x.1 with
  | .num n d nz =>
    let u := unscale (n, d) s t
    if asym then
      match decodeFmt fmt z with
      | .num zn zd zz => storeFmt fmt (.num (u.1 * zd + zn * u.2) (u.2 * zd) (n == 0 && zn == 0 && nz && zz))
      | w => storeFmt fmt w
    else storeFmt fmt (.num u.1 u.2 nz)
  | _ => storeBlockInf fmt x

/-- What storing a whole block gives: element codes, the S8 to write to the scale table (none: entry kept), flags. -/
structure BlockOut where
  codes : List Nat
  s8 : Option Nat
  fl : Flags
deriving DecidableEq, Repr

/-- A block of source values stored into a block-scaled tensor (R47, R48, R128, R129). `learned` is the learned S8
as it stands in the table, or none for a computed one. DESIGN CHOICE (log 140): in a symmetric block whose computed S8 is 0x00,
where x / (s x T) has no value, a zero keeps its own code, -0 included. -/
def storeBlock (fmt : Nat) (asym : Bool) (learned : Option Nat) (z t : Nat) (srcs : List BlockSrc) :
    BlockOut :=
  let xs := srcs.map (·.1)
  let inv := Flags.ofInv (xs.any Val.sigInv)
  let zNan := asym && (decodeFmt fmt z).isNan
  let srcNan := xs.any Val.isNan
  let ls := learned.map readS8
  let heldInv := Flags.ofInv (match ls with | some (_, h) => h | none => false)
  let nanBlock : BlockOut :=
    ⟨xs.map (fun _ => 0), if srcNan || zNan then some 0xFF else none, Flags.join inv heldInv⟩
  if srcNan || zNan then nanBlock
  else
    match ls with
    | some (0xFF, _) => nanBlock
    | some (0, _) =>
      ⟨xs.map (fun _ => if asym then z else 0), none,
        Flags.ofInx (xs.any (fun v => match v with | .num n _ _ => n != 0 | _ => true))⟩
    | some (s, _) =>
      let es := srcs.map (storeBlockElem fmt asym s z t)
      ⟨es.map (·.code), none, Flags.joinAll (es.map (·.fl))⟩
    | none =>
      let s := computeS8 fmt asym z t xs
      if s = 0 then
        let es := srcs.map (storeBlockInf fmt)
        ⟨es.map (·.code), some 0, Flags.joinAll (es.map (·.fl))⟩
      else
        let es := srcs.map (storeBlockElem fmt asym s z t)
        ⟨es.map (·.code), some s, Flags.joinAll (es.map (·.fl))⟩

/-! ### Block alignment for the array (R49 to R51) -/

/-- The unbiased exponent of a finite non-zero element code of a float format; a subnormal counts with the smallest
normal exponent (R49). None for zeros and specials. -/
def elemExp (fmt code : Nat) : Option Int :=
  match encOf fmt with
  | some (.flt eb mb bias i n o) =>
    (match decodeEnc (.flt eb mb bias i n o) code with
     | .num v _ _ =>
       if v = 0 then none
       else
         let e := bits code (eb + mb - 1) mb
         some (if e = 0 then 1 - bias else (e : Int) - bias)
     | _ => none)
  | _ => none

/-- The smallest normal exponent of a float format. -/
def minExp (fmt : Nat) : Int :=
  match encOf fmt with
  | some (.flt _ _ bias _ _ _) => 1 - bias
  | _ => 0

/-- e_max of a block over all its element codes (and its zero point, R113), and so its lane exponent in a lane of L
bits; 0 for an integer format (R49). -/
def laneExp (fmt L : Nat) (codes : List Nat) : Int :=
  if fmtIsInt fmt then 0
  else
    let es := codes.filterMap (elemExp fmt)
    match es with
    | [] => minExp fmt - ((L : Int) - 2)
    | e :: t => t.foldl max e - ((L : Int) - 2)

/-- The lane integer of an element code for its block's lane exponent, and whether it rounded (R49, R50). Special
elements align to 0 and keep their state (R51). -/
def laneVal (fmt : Nat) (lam : Int) (code : Nat) : Int × Bool :=
  match decodeFmt fmt code with
  | .num n d _ =>
    if fmtIsInt fmt then (n, false)
    else
      let p := pow2 (-lam)
      let r := roundDiv (n * p.1) (d * p.2)
      (r, decide (r * (d * p.2) ≠ n * p.1))
  | _ => (0, false)

/-- The lane integer of an element of a block with S8 code s (as read), and whether it rounded: every element of a block
with S8 0x00 is +0 and of one with 0xFF a NaN (R29), so that neither enters a value of its own or rounds (R50, R51). -/
def blockLane (fmt : Nat) (lam : Int) (s code : Nat) : Int × Bool :=
  if s = 0 ∨ s = 0xFF then (0, false) else laneVal fmt lam code

/-- The special state of an element code (R88). -/
def specialOf (fmt code : Nat) : Special :=
  match decodeFmt fmt code with
  | .num _ _ _ => .fin
  | .inf neg => if neg then .ninf else .pinf
  | .nan _ => .nan

end Sys2Proof.Machine
end

