-- ==== Sys2Proof/Machine/Random.lean ====
section
/-! DEFINITION. Random words (R277, R278) and digest terms (R280). -/

namespace Sys2Proof.Machine

/-- The four words of a Philox counter or output. -/
structure Four where
  w0 : Nat
  w1 : Nat
  w2 : Nat
  w3 : Nat
deriving DecidableEq, Repr

/-- Word i of four. -/
def Four.word (f : Four) (i : Nat) : Nat :=
  match i with
  | 0 => f.w0
  | 1 => f.w1
  | 2 => f.w2
  | _ => f.w3

/-- `n` rounds of Philox-4x32 on a counter with key (k0, k1) (R278). -/
def philoxRounds (n : Nat) (k0 k1 : Nat) (c : Four) : Four :=
  match n with
  | 0 => c
  | n + 1 =>
    let p0 := 0xD2511F53 * c.w0
    let p1 := 0xCD9E8D57 * c.w2
    philoxRounds n ((k0 + 0x9E3779B9) % 2 ^ 32) ((k1 + 0xBB67AE85) % 2 ^ 32)
      ⟨Nat.xor (Nat.xor (p1 / 2 ^ 32) c.w1) k0, p1 % 2 ^ 32,
        Nat.xor (Nat.xor (p0 / 2 ^ 32) c.w3) k1, p0 % 2 ^ 32⟩

/-- Philox-4x32-10 (R278). -/
def philox10 (k0 k1 : Nat) (c : Four) : Four := philoxRounds 10 k0 k1 c

/-- The step key of a seed and step counter (R277). -/
def stepKey (seed step : Nat) : Nat × Nat :=
  let o := philox10 (bits seed 31 0) (bits seed 63 32)
    ⟨bits step 31 0, bits step 63 32, bits seed 95 64, bits seed 127 96⟩
  (o.w0, o.w1)

/-- The random word of the element with global index g of tensor `id` (R278). -/
def randomWord (seed step id g : Nat) : Nat :=
  let k := stepKey seed step
  let b := g / 4
  (philox10 k.1 k.2 ⟨bits b 31 0, bits b 63 32, id % 2 ^ 32, 0⟩).word (g % 4)

/-- fmix of R280. -/
def fmix (x0 : Nat) : Nat :=
  let x1 := Nat.xor x0 (x0 >>> 30) * 0xBF58476D1CE4E5B9 % 2 ^ 64
  let x2 := Nat.xor x1 (x1 >>> 27) * 0x94D049BB133111EB % 2 ^ 64
  Nat.xor x2 (x2 >>> 31)

/-- term of R280. -/
def term (t g v : Nat) : Nat :=
  fmix (Nat.xor (Nat.xor (g * 0x9E3779B97F4A7C15 % 2 ^ 64) (t % 2 ^ 32 * 0xC2B2AE3D27D4EB4F % 2 ^ 64))
    (v % 2 ^ 64))

/-- The term or terms of an element of `w` bits (R281): a grid word enters as two. -/
def elemTerm (t g w v : Nat) : Nat :=
  if 64 < w then (term t (2 * g) (bits v 63 0) + term t (2 * g + 1) (bits v 127 64)) % 2 ^ 64
  else term t g v

end Sys2Proof.Machine
end

