-- ==== Sys2Proof/Machine/Ops.lean ====
section
/-! DEFINITION. The operations every family shares: units of the state, the dictionary's values, time, Visor counts,
notices, memory and its responses, semaphores, command faults. -/

namespace Sys2Proof.Machine

/-! ### Units -/

/-- Matrix core p. -/
def State.core (s : State) (p : CoreId) : Core := s.cores[p.val]

/-- The state with matrix core p replaced. -/
def State.setCore (s : State) (p : CoreId) (c : Core) : State := { s with cores := s.cores.set p.val c }

/-- Matrix core n, a core that runs nothing where there is none. -/
def State.coreAt (s : State) (n : Nat) : Core := if h : n < 72 then s.core ⟨n, h⟩ else Core.reset

/-- The state with matrix core n changed by f; unchanged where there is none. -/
def State.modCoreAt (s : State) (n : Nat) (f : Core → Core) : State :=
  if h : n < 72 then s.setCore ⟨n, h⟩ (f (s.core ⟨n, h⟩)) else s

/-- Signal core g. -/
def State.sig (s : State) (g : SigId) : Sig := s.sigs[g.val]

/-- The state with signal core g replaced. -/
def State.setSig (s : State) (g : SigId) (c : Sig) : State := { s with sigs := s.sigs.set g.val c }

/-- The state with one more output. -/
def State.emit (s : State) (e : Emission) : State := { s with out := s.out ++ [e] }

/-- A free value and the state that has taken it (log 4). -/
def State.takeFree (s : State) : Nat × State := (Config.freeNat s.free, { s with free := s.free + 1 })

/-- The default of zero. -/
def zeroD : Nat → Nat := fun _ => 0

/-- Element n of a list of numbers, 0 past its end. -/
def nth (l : List Nat) (n : Nat) : Nat := l.getD n 0

/-! ### Dictionary values -/

/-- The stored value of an entry. -/
def State.od (s : State) (index sub : Nat) : Nat := sget s.dict odDef (odKey index sub)

/-- The state with an entry's stored value replaced. -/
def State.setOd (s : State) (index sub v : Nat) : State :=
  { s with dict := sput s.dict odDef (odKey index sub) v }

/-- An entry counted up by one, modulo its width (R477). -/
def State.incOd (s : State) (index sub : Nat) : State :=
  s.setOd index sub ((s.od index sub + 1) % 2 ^ 32)

/-- The CAN node ID that is set: 0x10 + 0x40 x b until it is written (0x1100.01). -/
def State.canNodeSet (s : State) : Nat :=
  if s.od 0x1100 1 = 0 then 0x10 + 0x40 * b2n (bit s.power.straps 2) else s.od 0x1100 1

/-- The CAN node ID and data-phase rate in force. -/
def State.canInForce (s : State) : Nat × Nat := s.host.canHeld.getD (s.canNodeSet, s.od 0x1100 2)

/-- The head of the CAN FD frames of this node with identifier `base` + N (R487). -/
def State.canHead (s : State) (base : Nat) : CanHead := ⟨base + s.canInForce.1, true, false, false, s.canInForce.2⟩

/-- Whether a segmented transfer is open on CAN (R489). -/
def State.canOpen (s : State) : Bool := s.host.xfers.any (fun x => match x.path with | .can _ _ => true | .inband _ => false)

/-- A change of the CAN node ID or rate: what was in force stays so while a transfer on CAN is open. -/
def State.holdCan (s : State) : State :=
  if s.canOpen then { s with host := { s.host with canHeld := some s.canInForce } } else s

/-- Once no transfer on CAN is open, what is set is in force. -/
def State.freeCan (s : State) : State := if s.canOpen then s else { s with host := { s.host with canHeld := none } }

/-- The path on which a request's answer goes out: the same bus, under 0x480 + N (R487). -/
def outPath : Path → Path
  | .can b h => .can b { h with id := h.id + 0x80 }
  | .inband src => .inband src

/-- The node's ID (R422). -/
def State.nodeId (s : State) : Nat := s.od 0x6000 1

/-! ### Time -/

/-- One second of the timebase, in units of 2^-32 ns. -/
def secUnits : Nat := 1000000000 * 2 ^ 32

/-- A timebase value as TIME96 (R458): SUBNS drops the fraction below 2^-16 ns. -/
def toTime96 (now : Nat) : Nat :=
  2 ^ 48 * (now / secUnits) + 2 ^ 16 * (now % secUnits / 2 ^ 32) + now % 2 ^ 32 / 2 ^ 16

/-- A TIME96 value as a timebase value. -/
def ofTime96 (t : Nat) : Nat := secUnits * bits t 95 48 + 2 ^ 32 * bits t 47 16 + 2 ^ 16 * bits t 15 0

/-- The time stamp of this moment. -/
def State.stamp (s : State) : Nat := toTime96 s.time.now

/-! ### Partitions and owners -/

/-- The logical map: the byte of logical core l of partition k (R293). -/
def State.mapByte (s : State) (k l : Nat) : Nat := sget s.logical (fun _ => 0xFF) (64 * k + l)

/-- The state with a map byte replaced. -/
def State.setMapByte (s : State) (k l v : Nat) : State :=
  { s with logical := sput s.logical (fun _ => 0xFF) (64 * k + l) v }

/-- The physical core that a map byte names: its own, or a borrowed one (R293). -/
def byteCore (b : Nat) : Option Nat :=
  if b < 72 then some b else if 0x80 ≤ b ∧ b < 0x80 + 72 then some (b - 0x80) else none

/-- The core for whose logical core p runs: the follower of the pair whose tile it runs again as the spare of a vote (R524),
else p itself. -/
def State.standsFor (s : State) (p : Nat) : Nat :=
  match s.safety.pairs.find? (fun q => q.spare == some p) with
  | some q => q.follower
  | none => p

/-- The partition and logical core that physical core p serves: R183, none for a spare, a core in self-test and a
retired core. -/
def State.coreHome (s : State) (p : Nat) : Option (Nat × Nat) :=
  (s.logical.find? (fun e => byteCore e.2 == some (s.standsFor p))).map (fun e => (e.1 / 64, e.1 % 64))

/-- The partition that owns physical core p. -/
def State.coreOwner (s : State) (p : Nat) : Option Nat := (s.coreHome p).map (·.1)

/-- A requester of memory: Crown, a partition, or nobody (a core that no partition owns). -/
inductive Req where
  | crown
  | part (k : Nat)
  | nobody
deriving DecidableEq, Repr

/-- The requester behind a command's operand. -/
def Req.of : Who → Req
  | .crown => .crown
  | .part k => .part k.val

/-- The requester that physical core p is. -/
def State.coreReq (s : State) (p : Nat) : Req :=
  match s.coreOwner p with
  | some k => .part k
  | none => .nobody

/-- The partition of a requester. -/
def Req.partOf : Req → Option Nat
  | .part k => some k
  | _ => none

/-- Whether partition k is a safety partition (R513). -/
def State.isSafety (s : State) (k : Nat) : Bool := bit (s.od 0x7000 1) k

/-! ### Visor (R510 to R512) -/

/-- One counter of a scope whose entry is `index`, with n counters: counter i adds `by_` where its select chooses the
event. -/
def visorOne (m : SMap Nat) (index n i event : Nat) (part : Option Nat) (by_ : Nat) : SMap Nat :=
  let sel := sget m zeroD (odKey index (n + 1 + i))
  if bit sel 15 ∧ bits sel 8 0 = event ∧ (bit sel 14 = false ∨ part = some (bits sel 13 10)) then
    let v := sget m zeroD (odKey index (1 + i))
    let c := bits v 47 0 + by_
    sput m zeroD (odKey index (1 + i))
      (c % 2 ^ 48 + (if bit v 48 ∨ 2 ^ 48 ≤ c then 2 ^ 48 else 0))
  else m

/-- An event counted in every counter of its scope that selects it, unless the counters hold (R510). -/
def State.visorCount (s : State) (index n event : Nat) (part : Option Nat) (by_ : Nat) : State :=
  if s.od 0x8000 1 = 1 then s
  else { s with visor := (List.range n).foldl (fun m i => visorOne m index n i event part by_) s.visor }

/-- A core event of physical core p. -/
def State.countCore (s : State) (p event : Nat) (by_ : Nat := 1) : State :=
  s.visorCount (0x8100 + p) 8 event (s.coreOwner p) by_

/-- A canton event. -/
def State.countCanton (s : State) (c event : Nat) (part : Option Nat := none) (by_ : Nat := 1) : State :=
  s.visorCount (0x8200 + c) 16 event part by_

/-- A device event. -/
def State.countDev (s : State) (event : Nat) (part : Option Nat := none) (by_ : Nat := 1) : State :=
  s.visorCount 0x8300 32 event part by_

/-! ### Notices (R493 to R498) -/

/-- What a notice says, but for its TIME and SEQ. -/
structure Notice where
  sev : Nat
  code : Nat
  part : Option Nat
  kind : Nat
  unit : Nat
  index : Nat
  sub : Nat
  payload : Nat
deriving DecidableEq, Repr

/-- The 256 bits of a notice (R493). -/
def noticeBits (time seq : Nat) (n : Notice) : Nat :=
  time % 2 ^ 96 * 2 ^ 160 + n.payload % 2 ^ 64 * 2 ^ 96 + seq % 2 ^ 16 * 2 ^ 80 + n.code % 2 ^ 16 * 2 ^ 64 +
    n.index % 2 ^ 16 * 2 ^ 48 + n.sub % 2 ^ 8 * 2 ^ 40 + (n.kind % 16 * 2 ^ 12 + n.unit % 2 ^ 12) * 2 ^ 24 +
    n.sev % 4 * 2 ^ 22 + (match n.part with | some k => k % 32 | none => 0x1F) * 2 ^ 17 + 1

/-- Whether a notice is meant for channel ch (R495). -/
def State.meantFor (s : State) (n : Notice) (ch : Nat) : Bool :=
  if ch = 0 then true
  else if ch ≤ 16 then
    (match n.part with
     | some k => s.od 0x4040 ch == k
     | none => false)
  else if ch = 17 then
    decide (Nat.land (s.od 0x1100 4) (s.od 0x1100 3) % 4 ≠ 0) && decide (s.od 0x1100 5 ≤ n.sev)
  else decide (s.od 0x1110 1 ≠ 0) && decide (s.od 0x1110 5 ≠ 0) && decide (s.od 0x1110 6 ≤ n.sev)

/-- A channel that a notice is meant for: its SEQ advances; a full queue drops the notice (R495, R497). -/
def Channel.offer (c : Channel) (time : Nat) (n : Notice) : Channel :=
  let seq := (c.seq + 1) % 2 ^ 16
  if 64 ≤ c.queue.length then { c with seq := seq, dropped := (c.dropped + 1) % 2 ^ 32, recent := c.recent + 1 }
  else { c with seq := seq, queue := c.queue ++ [noticeBits time seq n] }

/-- Channels that drop a notice. -/
def State.dropsOf (s : State) (n : Notice) : Nat :=
  ((List.range 19).filter (fun ch =>
    s.meantFor n ch && decide (64 ≤ (s.host.chans.toList.getD ch ⟨0, [], 0, 0⟩).queue.length))).length

/-- A notice of the condition detected at `time` raised: to its channels (R495), to the journal (R498), to ALERT# (R569);
drops are counted (R512). -/
def State.raiseAt (s : State) (time : Nat) (n : Notice) : State :=
  let d := s.dropsOf n
  let s1 := { s with
    host := { s.host with
      chans := Vector.ofFn (fun i : Fin 19 =>
        if s.meantFor n i.val then s.host.chans[i.val].offer time n else s.host.chans[i.val])
      journalNew := s.host.journalNew ++ [noticeBits time ((s.host.chans[0].seq + 1) % 2 ^ 16) n] }
    power := { s.power with
      alertLow := s.power.alertLow || (decide (s.od 0x2400 1 ≤ n.sev) && decide (s.od 0x2400 1 ≠ 3)) } }
  if d = 0 then s1 else s1.countDev 0x050 n.part d

/-- A notice raised now. -/
def State.raise (s : State) (n : Notice) : State := s.raiseAt s.stamp n

/-- A WARN notice. -/
def State.warn (s : State) (code : Nat) (part : Option Nat) (kind unit payload : Nat) : State :=
  s.raise ⟨1, code, part, kind, unit, 0, 0, payload⟩

/-- An INFO notice. -/
def State.info (s : State) (code : Nat) (part : Option Nat) (kind unit payload : Nat) : State :=
  s.raise ⟨0, code, part, kind, unit, 0, 0, payload⟩

/-- A FAULT notice. -/
def State.faultNotice (s : State) (code : Nat) (part : Option Nat) (kind unit payload : Nat) : State :=
  s.raise ⟨2, code, part, kind, unit, 0, 0, payload⟩

/-! ### Memory map (R163, R164, R303) -/

/-- What an address names. Bank numbers are 4p + b for scratchpads, 288 + 8c + b for cantons, 352 + 4s + b for
local memories. -/
inductive Place where
  | hbm (g : Nat)
  | bank (b : Nat)
  | sem (n : Nat)
  | window (off : Nat)
  | unmapped
deriving DecidableEq, Repr

/-- The mode bits of an address (R166). -/
def addrMode (a : Nat) : Nat := bits a 49 48

/-- The address without its mode bits: they take no part in selection (R166). -/
def addrBase (a : Nat) : Nat := 2 ^ 50 * (a / 2 ^ 50) + a % 2 ^ 48

/-- Base addresses of R163. -/
def spBase (p : Nat) : Nat := 0x10000000000 + 0x400000 * p
def cantonBase (c : Nat) : Nat := 0x11000000000 + 0x800000 * c
def sigBase (g : Nat) : Nat := 0x12000000000 + 0x40000 * g
def semBase : Nat := 0x13000000000
def windowBase : Nat := 0x14000000000

/-- The place of an address. Every region starts at a multiple of 2^36 and is shorter. -/
def placeOf (addr : Nat) : Place :=
  let a := addrBase addr
  if a < 96 * 2 ^ 30 then .hbm (a / 2 ^ 30)
  else if spBase 0 ≤ a ∧ a < spBase 72 then .bank (a % 2 ^ 36 / 2 ^ 20)
  else if cantonBase 0 ≤ a ∧ a < cantonBase 8 then .bank (288 + a % 2 ^ 36 / 2 ^ 20)
  else if sigBase 0 ≤ a ∧ a < sigBase 32 then .bank (352 + a % 2 ^ 36 / 2 ^ 16)
  else if semBase ≤ a ∧ a < semBase + 65536 * 8 then .sem (a % 2 ^ 36 / 8)
  else if windowBase ≤ a ∧ a < windowBase + 8192 then .window (a % 2 ^ 36)
  else .unmapped

/-- Whether a place is one of the three SRAM regions. -/
def Place.isSram : Place → Bool
  | .bank _ => true
  | _ => false

/-- Rows of a bank (R193). -/
def bankRows (b : Nat) : Nat := if b < 352 then 4096 else 1024

/-- Bytes of a row (R164). -/
def rowBytes (b : Nat) : Nat := if b < 352 then 256 else 64

/-- Bytes of a bank (R163). -/
def bankBytes (b : Nat) : Nat := if b < 352 then 2 ^ 20 else 2 ^ 16

/-- Address of the first byte of a bank. -/
def bankStart (b : Nat) : Nat :=
  if b < 288 then spBase 0 + 2 ^ 20 * b
  else if b < 352 then cantonBase 0 + 2 ^ 20 * (b - 288)
  else sigBase 0 + 2 ^ 16 * (b - 352)

/-- The row of a bank that an address of it lies in: a bank starts at a multiple of its size. -/
def rowOf (b addr : Nat) : Nat := addrBase addr % bankBytes b / rowBytes b

/-- 64 KiB macros of a bank (R161). -/
def bankMacros (b : Nat) : Nat := if b < 352 then 16 else 1

/-- The macro of a bank that an address of it lies in. -/
def macroOf (b addr : Nat) : Nat := addrBase addr % bankBytes b / 2 ^ 16

/-- A bank's state. -/
def State.bank (s : State) (b : Nat) : Bank := sget s.banks (fun _ => Bank.reset) b

/-- The state with a bank replaced. -/
def State.setBank (s : State) (b : Nat) (x : Bank) : State :=
  { s with banks := sput s.banks (fun _ => Bank.reset) b x }

/-- Whether a row's valid bit is set (R193). -/
def Bank.rowValid (x : Bank) (r : Nat) : Bool := !x.cleared || x.valid.contains r

/-- The option bits of a bank's entry: ZSCRUB and AUTO_RET (R194). -/
def State.bankEntry (s : State) (b : Nat) : Nat :=
  if b < 288 then s.od 0x3200 (b / 4 + 1)
  else if b < 352 then s.od 0x3210 ((b - 288) / 8 + 1)
  else s.od 0x3220 ((b - 352) / 4 + 1)
def State.zscrub (s : State) (b : Nat) : Bool :=
  if 288 ≤ b ∧ b < 352 then bit (s.bankEntry b) 16 else bit (s.bankEntry b) 8
def State.autoRet (s : State) (b : Nat) : Bool :=
  if 288 ≤ b ∧ b < 352 then bit (s.bankEntry b) 17 else bit (s.bankEntry b) 9

/-- Whether a bank refuses accesses with BANK_OFF: it is OFF and not in a power-up whose zero-scrub accesses wait for
(R189, R192). -/
def State.bankRefuses (s : State) (b : Nat) : Bool :=
  (s.bank b).st == .off && !((s.bank b).powering && s.zscrub b)

/-- Units of 256 MiB that the owned segments use on a stack (R303). -/
def State.stackUse (s : State) (st : Nat) : Nat :=
  (s.segOwner.map (fun e =>
    let m := sget s.segStack zeroD e.1
    if m = 0 then 1 else if m = st + 1 then 4 else 0)).sum

/-- Whether HBM is trained and mapped at the service level in force (R554, R555). -/
def State.hbmUp (s : State) : Bool := decide (3 ≤ s.power.level ∧ s.power.level ≤ 5)

/-- Whether canton c serves at the service level in force: canton 0 from REDUCED on, the others from FULL on (R554,
R555). -/
def State.cantonUp (s : State) (c : Nat) : Bool :=
  s.power.level == 4 || s.power.level == 5 || ((s.power.level == 2 || s.power.level == 3) && c == 0)

/-- Whether a stack backs segment g (R303): HBM is mapped; an owned one is backed; free ones are backed interleaved, lowest first,
while every stack has room. A lost stack backs nothing (R533). -/
def State.segBacked (s : State) (g : Nat) : Bool :=
  let m := sget s.segStack zeroD g
  let up := if m = 0 then s.power.hbmLost.isEmpty else !s.power.hbmLost.contains (m - 1)
  s.hbmUp && up && (if sget s.segOwner zeroD g ≠ 0 then true
    else
      let room := ((List.range 4).map (fun st => 96 - s.stackUse st)).foldl min 96
      let before := ((List.range g).filter (fun x => sget s.segOwner zeroD x = 0)).length
      decide (before < room))

/-- The owner of a place for the rule of R183 and R304: 0 nobody, k + 1 partition k. -/
def State.placeOwner (s : State) (pl : Place) : Nat :=
  match pl with
  | .hbm g => sget s.segOwner zeroD g
  | .bank b =>
    if b < 288 then (match s.coreOwner (b / 4) with | some k => k + 1 | none => 0)
    else if b < 352 then sget s.bankOwner zeroD (b - 288)
    else 1
  | .sem n => sget s.semOwner zeroD n
  | _ => 0

/-- An access mode of an operation: a read, a normal write, or a SET or CLR write. -/
inductive Acc2 where
  | read | write
deriving DecidableEq, Repr

/-- The least code of a list of causes, 0 where there is none (R182). -/
def leastCode (l : List (Bool × Nat)) : Nat :=
  (l.filter (·.1)).foldl (fun m e => if m = 0 then e.2 else min m e.2) 0

/-- The response of R182 to an access at one place, POISON and W_LOST apart. -/
def State.placeCode (s : State) (who : Req) (addr len : Nat) (k : Acc2) (pl : Place) : Nat :=
  let mode := addrMode addr
  let mapped := match pl with
    | .unmapped => false
    | .hbm g => s.segBacked g
    | .window off => who != .crown || decide (off < 12) || decide (0x1000 ≤ off)
    | _ => true
  let denied := match who with
    | .crown => false
    | .nobody => true
    | .part p => match pl with
      | .window _ => true
      | .sem _ => k == .write || s.placeOwner pl != p + 1
      | _ => s.placeOwner pl != p + 1
  let off := match pl with
    | .bank b => s.bankRefuses b
    | _ => false
  leastCode
    [(!mapped || (mode != 0 && !pl.isSram), 2), (denied && pl != .unmapped, 3),
     (mode == 3 && pl.isSram, 4),
     (pl.isSram && (mode == 1 || mode == 2) && k == .write && !(len == 8 && addrBase addr % 8 == 0), 5),
     (off, 7)]

/-- One address in every unit that the bytes addr to addr + len - 1 touch, for units of g bytes: the first, each multiple
of g behind it, the last. -/
def probes (g addr len : Nat) : List Nat :=
  addr :: ((List.range (len / g)).map (fun i => (addr / g + i + 1) * g)).filter (fun a => a < addr + len) ++
    [addr + (len - 1)]

/-- The response of R182 to an access of len bytes: the lowest code over the places its bytes lie in. Units of ownership
are no smaller than 64 KiB, but for the 8-byte semaphores. -/
def State.accessCode (s : State) (who : Req) (addr len : Nat) (k : Acc2) : Nat :=
  let g := match placeOf addr with
    | .sem _ => 8
    | _ => 2 ^ 16
  leastCode ((probes g addr len).map (fun a =>
    let c := s.placeCode who addr len k (placeOf a)
    (c != 0, c)))

/-! ### What partitions hold -/

/-- Whether core p is in service: its canton is up and has power, it is no spare, not in self-test, not retired (R12, R529). -/
def State.inService (s : State) (p : Nat) : Bool :=
  s.cantonUp (p / 9) && s.safety.railOk.getD (p / 9) true && !s.safety.retired.contains p && s.safety.spare.getD (p / 9) none != some (p % 9) &&
    !s.safety.testing.any (fun t => t.core == p)

/-- How many cores of canton c partition k holds. -/
def State.holdsIn (s : State) (k c : Nat) : Nat :=
  ((List.range 9).filter (fun i => s.coreOwner (9 * c + i) == some k)).length

/-- Segments that partition k owns. -/
def State.segsOf (s : State) (k : Nat) : List Nat :=
  (List.range 96).filter (fun g => sget s.segOwner zeroD g == k + 1)

/-- Stacks on which another partition than k owns a segment. -/
def State.stackTaken (s : State) (k st : Nat) : Bool :=
  (List.range 96).any (fun g =>
    let o := sget s.segOwner zeroD g
    let m := sget s.segStack zeroD g
    o != 0 && o != k + 1 && (m == 0 || m == st + 1))

/-! ### Timing locks (R287) -/

/-- Cantons in which partition k holds cores. -/
def State.cantonsOf (s : State) (k : Nat) : List Nat := (List.range 8).filter (fun c => decide (s.holdsIn k c ≠ 0))

/-- LOCK_ACTIVE of partition k (R287). -/
def State.lockActive (s : State) (k : Nat) : Bool :=
  let cs := s.cantonsOf k
  let segs := s.segsOf k
  decide (s.od 0x4180 (k + 1) % 8 = 7) &&
    cs.all (fun c =>
      (List.range 9).all (fun i => !s.inService (9 * c + i) || s.coreOwner (9 * c + i) == some k) &&
      (List.range 8).all (fun b => sget s.bankOwner zeroD (8 * c + b) == k + 1 && !s.autoRet (288 + 8 * c + b))) &&
    (List.range 72).all (fun p => s.coreOwner p != some k || !s.autoRet (4 * p)) &&
    (k != 0 || (List.range 32).all (fun g => !s.autoRet (352 + 4 * g))) &&
    bit (s.od 0x4020 (k + 1)) 15 &&
    segs.all (fun g => let m := sget s.segStack zeroD g
      m != 0 && !s.stackTaken k (m - 1))

/-! ### Bytes -/

/-- What an unlisted byte reads as (log 5). -/
def memDef : Nat → Byte := fun _ => 0#8

/-- Byte a of memory. -/
def State.byte (s : State) (a : Nat) : Byte := sget s.mem memDef a

/-- n bytes from a, little-endian (R6). -/
def readMem (m : SMap Byte) (a n : Nat) : Nat :=
  match n with
  | 0 => 0
  | n + 1 => (sget m memDef a).toNat + 256 * readMem m (a + 1) n

/-- n bytes from a. -/
def State.rd (s : State) (a n : Nat) : Nat := readMem s.mem a n

/-- n bytes of v stored from a, little-endian. -/
def writeMem (m : SMap Byte) (a n v : Nat) : SMap Byte :=
  match n with
  | 0 => m
  | n + 1 => writeMem (sput m memDef a (BitVec.ofNat 8 v)) (a + 1) n (v / 256)

/-- The memory without the bytes from a to a + n - 1: they read as zero. -/
def zeroMem (m : SMap Byte) (a n : Nat) : SMap Byte := sclear m (fun k => decide (a ≤ k ∧ k < a + n))

/-- Visor's count of an ECC event at an address (R185, R186, R512). -/
def State.countEcc (s : State) (a : Nat) (corrected : Bool) : State :=
  match placeOf a with
  | .bank b =>
    if b < 288 then s.countCore (b / 4) (if corrected then 0x19 else 0x1A)
    else if b < 352 then s.countCanton ((b - 288) / 8) (if corrected then 0x21 else 0x22)
    else s.countDev (if corrected then 0x012 else 0x013)
  | .hbm _ => s.countDev (if corrected then 0x005 else 0x006)
  | _ => s

/-- Whether the row of an address is checked: its valid bit is set (R193). -/
def State.rowChecked (s : State) (a : Nat) : Bool :=
  match placeOf a with
  | .bank b => (s.bank b).rowValid (rowOf b a)
  | _ => true

/-- What a read of n bytes finds in their check bits: corrected words are counted and await their write-back,
uncorrectable ones are counted (R185, R186). -/
def State.eccRead (s : State) (a n : Nat) : State :=
  s.ecc.foldl (fun st e =>
    if decide (a < 8 * e.1 + 8 ∧ 8 * e.1 < a + n) && s.rowChecked (8 * e.1) then
      (match e.2 with
       | .single =>
         let s1 := st.countEcc (8 * e.1) true
         if s1.writeBack.contains e.1 then s1 else { s1 with writeBack := s1.writeBack ++ [e.1] }
       | .double => st.countEcc (8 * e.1) false
       | .none => st)
    else st) s

/-- Whether a write of n bytes from a covers word w in part: it is stored by a read-modify-write (R174). -/
def partialWord (a n w : Nat) : Bool :=
  (decide (8 * w < a) && decide (a < 8 * w + 8)) || (decide (8 * w < a + n) && decide (a + n < 8 * w + 8))

/-- What the read half of a partial write finds in its words (R174, R185, R186): corrected words, whose write-back the
write itself makes void, and uncorrectable ones, are counted. -/
def State.eccMerge (s : State) (a n : Nat) : State :=
  s.ecc.foldl (fun st e =>
    if partialWord a n e.1 && s.rowChecked (8 * e.1) && e.2 != .none then st.countEcc (8 * e.1) (e.2 == .single) else st) s

/-- The latent errors after a write: a word written whole gets new check bits, a word written in part is corrected by
its read-modify-write where it can be (R174, R185). DESIGN CHOICE (log 148): the spec does not say what a partial write
makes of a word with a double-bit error; here the bytes written change and the word stays uncorrectable. -/
def eccAfter (m : SMap EccErr) (a n : Nat) : SMap EccErr :=
  m.filter (fun e =>
    decide (8 * e.1 + 8 ≤ a ∨ a + n ≤ 8 * e.1) || (e.2 == .double && decide (8 * e.1 < a ∨ a + n < 8 * e.1 + 8)))

/-- The row of a write marked valid, its other bytes zeroed with valid check bits (R193). An invalid row holds zeros: its
content was lost in OFF. -/
def State.touchRow (s : State) (a : Nat) : State :=
  match placeOf a with
  | .bank b =>
    let x := s.bank b
    if x.cleared && !x.valid.contains (rowOf b a) then
      let lo := bankStart b + rowOf b a * rowBytes b
      let other := fun (w : Nat) => decide (8 * w + 8 ≤ lo ∨ lo + rowBytes b ≤ 8 * w)
      { s.setBank b { x with valid := rowOf b a :: x.valid } with
        ecc := s.ecc.filter (fun e => other e.1)
        writeBack := s.writeBack.filter other }
    else s
  | _ => s

/-- Every row of a write of n bytes from a marked valid. -/
def State.touchRows (s : State) (a n : Nat) : State :=
  if s.banks.isEmpty then s else (probes 64 a n).foldl State.touchRow s

/-- A write of n bytes, as the memory performs it: the rows' valid bits, what a read-modify-write finds, the bytes, their
check bits and the write-back that they make void (R174, R185, R193). -/
def State.wr (s : State) (a n v : Nat) : State :=
  let s1 := (s.touchRows a n).eccMerge a n
  { s1 with
    mem := writeMem s.mem a n v
    ecc := eccAfter s1.ecc a n
    writeBack := s1.writeBack.filter (fun w => decide (8 * w + 8 ≤ a ∨ a + n ≤ 8 * w)) }

/-- Whether a word of the bytes a to a + n - 1 holds a double-bit error, in a row that is checked (R186, R193). -/
def State.poisoned (s : State) (a n : Nat) : Bool :=
  s.ecc.any (fun e => e.2 == .double && decide (a < 8 * e.1 + 8 ∧ 8 * e.1 < a + n) &&
    (match placeOf (8 * e.1) with
     | .bank b => (s.bank b).rowValid (rowOf b (8 * e.1))
     | _ => true))

/-- The response to an engine's read of n bytes (R182): POISON where a word is uncorrectable. -/
def State.readCode (s : State) (who : Req) (a n : Nat) : Nat :=
  let c := s.accessCode who a n .read
  if c = 0 && s.poisoned (addrBase a) n then 6 else c

/-- The fault code behind a memory response (R184). -/
def memFault (code : Nat) : Nat :=
  match code with
  | 2 => 0x40
  | 3 => 0x41
  | 4 => 0x42
  | 5 => 0x42
  | 6 => 0x43
  | 7 => 0x44
  | _ => 0

/-! ### A core's own scratchpad -/

/-- Whether core p is one of a Mitten pair, or a spare that runs a pair's tile (R516, R524). -/
def State.inPair (s : State) (p : Nat) : Bool :=
  s.safety.pairs.any (fun q => q.leader == p || q.follower == p || q.spare == some p)

/-- The lines of an undo log that a write of n bytes at offset `off` adds: (offset, old contents) of each 64-byte line
not yet logged (R522). -/
def undoAdds (m : SMap Byte) (base off n : Nat) (log : List (Nat × Nat)) : List (Nat × Nat) :=
  ((List.range (n / 64 + 2)).map (fun i => off / 64 * 64 + 64 * i)).filterMap (fun o =>
    if decide (o < off + n) && !log.any (fun e => e.1 == o) then some (o, readMem m (base + o) 64) else none)

/-- The terms of the 64-bit words that a write touched (R517). -/
def wordTerms (m : SMap Byte) (base off n : Nat) : Nat :=
  ((List.range (n / 8 + 2)).map (fun i => off / 8 + i)).foldl (fun a w =>
    if 8 * w < off + n then (a + term 0xFFFFFFFF w (readMem m (base + 8 * w) 8)) % 2 ^ 64 else a) 0

/-- A write by core p into its own scratchpad at offset `off`, logged and folded where it is one of a pair. -/
def State.wrOwn (s : State) (p off n v : Nat) : State :=
  let s1 := s.wr (spBase p + off) n v
  if s.inPair p then
    s1.modCoreAt p (fun c =>
      let adds := undoAdds s.mem (spBase p) off n c.undo
      { c with
        undo := c.undo ++ adds
        undoBytes := c.undoBytes + 72 * adds.length
        tileDigest := (c.tileDigest + wordTerms s1.mem (spBase p) off n) % 2 ^ 64 })
  else s1

/-! ### Semaphores (R259, R260) -/

/-- The count of semaphore n. -/
def State.semCount (s : State) (n : Nat) : Nat := sget s.sems zeroD n

/-- Signal cores that watch semaphore n get SEMWATCH when it goes from 0 to non-zero (R354, interrupt sources). -/
def State.semWatch (s : State) (n old new : Nat) : State :=
  if old = 0 ∧ new ≠ 0 then
    { s with sigs := Vector.ofFn (fun i : SigId =>
        if (s.sig i).watch.toNat = n then { s.sig i with ipend := (s.sig i).ipend ||| 0x10#16 } else s.sig i) }
  else s

/-- The state with the count of semaphore n replaced. -/
def State.setSem (s : State) (n v : Nat) : State :=
  { s with sems := sput s.sems zeroD n v }.semWatch n (s.semCount n) v

/-- The partition that owns semaphore n. -/
def State.semPart (s : State) (n : Nat) : Option Nat :=
  let o := sget s.semOwner zeroD n
  if o = 0 then none else some (o - 1)

/-- A signed amount added to semaphore n, clamped to its range with SEM_SAT (R259). -/
def State.semAdd (s : State) (n : Nat) (d : Int) : State :=
  let r : Int := (s.semCount n : Int) + d
  let v := (clampI 0 (2 ^ 32 - 1) r).toNat
  let s1 := s.setSem n v
  if r < 0 ∨ 2 ^ 32 - 1 < r then s1.warn 0x0102 (s.semPart n) 3 (n / 8192) n else s1

/-! ### Command faults (R90, R268 to R270) -/

/-- The loop indices of a core as LOOP_I holds them (R270). -/
def loopBits (l : List LoopLevel) : Nat :=
  ((List.range l.length).map (fun i => (l.getD i ⟨0, 0, 0, 0, 0⟩).i % 65536 * 2 ^ (16 * i))).sum

/-- The job with handle h. -/
def State.jobOf (s : State) (h : Nat) : Option Job := s.jobs.find? (fun j => j.handle == h)

/-- Node n's byte of a table of pair versions: level and minor, 0 where unknown (R455). -/
def pairByte (tab n : Nat) : Nat := bits tab (8 * n + 7) (8 * n)

/-- The protocol minors of levels 1 and 2 that the image of a version runs (R454). -/
def minorsOf (version : Nat) : List Nat := [Config.imageMinor version 1 % 16, Config.imageMinor version 2 % 16]

/-- The state with job h changed by f. -/
def State.modJob (s : State) (h : Nat) (f : Job → Job) : State :=
  { s with jobs := s.jobs.map (fun j => if j.handle = h then f j else j) }

/-- The priority in force of a job (R319): its own, limited by its partition's PCEIL. -/
def State.jobPrio (s : State) (h : Option Nat) : Nat :=
  match h.bind s.jobOf with
  | some j => min j.prio (bits (s.od 0x4020 (j.part + 1)) 14 13)
  | none => 0

/-- The entries waiting at canton c's collector, in order of arrival (R323). -/
def State.latchesOf (s : State) (c : Nat) : List CollEntry := sget s.latches (fun _ => []) c

/-- Whether a core stands at a tile boundary: its TILE.END has retired, or its HALT is complete (R263, R265). -/
def Core.stopped (c : Core) : Bool := (c.mode == .boundary || c.mode == .halted) && c.tileEnds.isEmpty

/-- Whether every core of partition k is at a tile boundary, faulted or without a task (R288). -/
def State.allAtBoundary (s : State) (k : Nat) : Bool :=
  (List.range 72).all (fun p => s.coreOwner p != some k || (s.coreAt p).job.isNone || (s.coreAt p).stopped || (s.coreAt p).mode == .faulted)

/-- Core p told that the device needs it at its next tile boundary. -/
def State.needCore (s : State) (p : Nat) (n : Need) : State :=
  s.modCoreAt p (fun c => if c.needs.contains n then c else { c with needs := c.needs ++ [n] })

/-- A core that has been needed at its boundary for n goes on, where nothing else holds it there. -/
def Core.needDone (n : Need) (c : Core) : Core :=
  let needs := c.needs.filter (fun x => x != n)
  { c with
    needs := needs
    mode := if c.mode = .boundary ∧ needs.isEmpty ∧ c.deferred.isEmpty ∧ ¬ c.retiredTile then .running else c.mode }

/-- The cores of partition k that have a task, told that the device needs them at their next boundary, or released from it. -/
def State.needPart (s : State) (k : Nat) (n : Need) (on : Bool) : State :=
  (List.range 72).foldl (fun st p =>
    if st.coreOwner p = some k ∧ (st.coreAt p).job.isSome then
      (if on then st.needCore p n else st.modCoreAt p (Core.needDone n))
    else st) s

/-- A gap between tiles of timing-locked partition k in the cantons cs, counted (R289). -/
def State.countGap (s : State) (k : Nat) (cs : List Nat) : State :=
  if s.lockActive k then cs.foldl (fun st c => st.countCanton c 0x41 (some k)) s else s

/-- REFRESH_ALIGN of partition k (R286). -/
def State.refreshAlign (s : State) (k : Nat) : Bool := bit (s.od 0x4180 (k + 1)) 1

/-- Whether core p's one latch holds an entry (R323). -/
def State.latchFull (s : State) (p : Nat) : Bool := (s.latchesOf (p / 9)).any (fun e => e.core == p)

/-- An entry in its core's latch, counted (R323). -/
def State.enterLatch (s : State) (e : CollEntry) : State :=
  ({ s with latches := sput s.latches (fun _ => []) (e.core / 9) (s.latchesOf (e.core / 9) ++ [e]) }).countCanton
    (e.core / 9) 0x30

/-- A collector entry put into its latch; held by its core where that is still full, which is counted (R323, R324). -/
def State.latchEntry (s : State) (e : CollEntry) : State :=
  if s.latchFull e.core then ({ s with latchHeld := s.latchHeld ++ [e] }).countCanton (e.core / 9) 0x31
  else s.enterLatch e

/-- A collector entry of core p for the job it runs. -/
def State.latch (s : State) (p code kind : Nat) : State :=
  s.latchEntry ⟨0, (s.coreAt p).job.getD 0, code, kind, p, (s.coreOwner p).getD 0, (s.coreAt p).task⟩

/-- The other cores of a job stop at their next tile boundary, and the job is faulted (R269). -/
def State.faultJob (s : State) (p : Nat) : State :=
  match (s.coreAt p).job with
  | none => s
  | some h =>
    let s1 := s.modJob h (fun j => if j.st = .running ∨ j.st = .suspending then { j with st := .faulted } else j)
    { s1 with cores := Vector.ofFn (fun i : Fin 72 =>
        let c := s1.core i
        if c.job = some h ∧ i.val ≠ p ∧ ¬ c.needs.contains .stop then { c with needs := c.needs ++ [.stop] } else c) }

/-- A command fault of core p: the stream stops; the first of the job fills the fault record, raises a FAULT notice and has
its job faulted and the collector told (R268 to R270, R325); a later one is counted only (R270). A core that failed a tile is to be
tested (R528). A core of a Mitten pair stops and leaves the rest to the comparison (R521). -/
def State.fault (s : State) (p : Nat) (code detail cmd off : Nat) : State :=
  let c := s.coreAt p
  let s1 := s.modCoreAt p (fun c => { c with mode := .faulted, deferred := [] })
  let s2 :=
    if c.frec.code = 0 then
      s1.modCoreAt p (fun c => { c with frec := ⟨cmd, c.step, loopBits c.loops, detail, off, code⟩ })
    else s1.countCore p 0x23
  if s.inPair p then s2.modCoreAt p (fun c => { c with tileFault := some code })
  else
    let s3 := if code = 0x27 ∨ code = 0x43 then
        { s2 with safety := { s2.safety with testDue := s2.safety.testDue ++ [p] } }
      else s2
    if c.frec.code = 0 then
      ((s3.raise ⟨2, code, s.coreOwner p, 1, p, 0x3300, p + 1, detail⟩).faultJob p).latch p code 1
    else s3

/-- The flags of core p joined with f (R42). -/
def State.addFlags (s : State) (p : Nat) (f : Flags) : State :=
  s.modCoreAt p (fun c => { c with flags := c.flags.join f })

end Sys2Proof.Machine
end

