-- ==== Sys2Proof/Machine/Operands.lean ====
section
/-! DEFINITION. Tensor descriptors: fields, checks, element addresses, global indices, scale tables (R196 to R212). -/

namespace Sys2Proof.Machine

/-- A dimension entry (R197). -/
structure Dim where
  gsize : Nat
  gorigin : Nat
  size : Nat
  stride : Int
deriving DecidableEq, Repr

/-- A tensor descriptor (R197): its raw 1,024 bits and its fields. -/
structure Desc where
  raw : Nat
  zpBase : Nat
  scaleBase : Nat
  base : Nat
  tscale : Nat
  tid : Nat
  layout : Nat
  bdim : Nat
  blenCode : Nat
  qmode : Nat
  fmt : Nat
  gw : Bool
  rank : Nat
  dver : Nat
  dims : List Dim
deriving DecidableEq, Repr

/-- Dimension entry d of a descriptor's bits. -/
def dimOf (w d : Nat) : Dim :=
  let e := bits w (256 + 128 * d + 127) (256 + 128 * d)
  ⟨bits e 127 96, bits e 95 64, bits e 63 40, sbits e 39 0⟩

/-- A descriptor from its bits. -/
def parseDesc (w : Nat) : Desc where
  raw := w
  zpBase := bits w 242 191
  scaleBase := bits w 190 139
  base := bits w 138 87
  tscale := bits w 86 55
  tid := bits w 54 23
  layout := bits w 22 19
  bdim := bits w 18 16
  blenCode := bits w 15 14
  qmode := bits w 13 12
  fmt := bits w 11 8
  gw := bit w 7
  rank := bits w 6 4
  dver := bits w 3 0
  dims := (List.range (min (bits w 6 4) 6)).map (dimOf w)

/-- Dimension d, the size-1 dimension where there is none. -/
def Desc.dim (t : Desc) (d : Nat) : Dim := t.dims.getD d ⟨1, 0, 1, 0⟩

/-- Block length of a BLEN code (R197). -/
def blenOf (code : Nat) : Nat :=
  match code with
  | 0 => 32
  | 1 => 16
  | _ => 64

/-- Block length of a tensor. -/
def Desc.blen (t : Desc) : Nat := blenOf t.blenCode

/-- Element width in bits (R202). -/
def Desc.width (t : Desc) : Nat := if t.gw then 128 else fmtBits t.fmt

/-- Product of a list of numbers. -/
def prod (l : List Nat) : Nat := l.foldl (· * ·) 1

/-- Elements of the piece. -/
def Desc.count (t : Desc) : Nat := prod (t.dims.map (·.size))

/-- Element offset of an index (R201, R204). -/
def Desc.offset (t : Desc) (idx : List Nat) : Int :=
  let i := fun d => idx.getD d 0
  if t.layout = 1 then
    ((i 0 % 32 + 32 * (i 1 % 64) : Nat) : Int) + (t.dim 0).stride * (i 0 / 32 : Nat) +
      (t.dim 1).stride * (i 1 / 64 : Nat) +
      ((List.range (t.rank - 2)).map (fun d => (t.dim (d + 2)).stride * (i (d + 2) : Int))).sum
  else ((List.range t.rank).map (fun d => (t.dim d).stride * (i d : Int))).sum

/-- Bit address of an element (R202). -/
def Desc.bitAddr (t : Desc) (idx : List Nat) : Int := 8 * (addrBase t.base : Int) + t.width * t.offset idx

/-- Smallest and largest element offset of the piece. -/
def Desc.offsetRange (t : Desc) : Int × Int :=
  let steps : List (Int × Nat) :=
    if t.layout = 1 then
      [((t.dim 0).stride, (t.dim 0).size / 32 - 1), ((t.dim 1).stride, (t.dim 1).size / 64 - 1)] ++
        (List.range (t.rank - 2)).map (fun d => ((t.dim (d + 2)).stride, (t.dim (d + 2)).size - 1))
    else (List.range t.rank).map (fun d => ((t.dim d).stride, (t.dim d).size - 1))
  let lo := (steps.map (fun e => min 0 (e.1 * (e.2 : Int)))).sum
  let hi := (steps.map (fun e => max 0 (e.1 * (e.2 : Int)))).sum
  (lo, if t.layout = 1 then hi + 2047 else hi)

/-- The multi-index of the n-th element in iteration order, dimension 0 fastest (R133). -/
def unravel : List Dim → Nat → List Nat
  | [], _ => []
  | d :: ds, n => n % d.size :: unravel ds (n / d.size)

/-- The multi-index of the n-th element of a piece. -/
def Desc.index (t : Desc) (n : Nat) : List Nat := unravel t.dims n

/-- Global linear index of a multi-index (R209). -/
def globalOf : List Dim → List Nat → Nat
  | [], _ => 0
  | d :: ds, [] => d.gorigin + d.gsize * globalOf ds []
  | d :: ds, i :: is => d.gorigin + i + d.gsize * globalOf ds is

/-- Global linear index of an element (R209). -/
def Desc.global (t : Desc) (idx : List Nat) : Nat := globalOf t.dims idx

/-- The multi-index of a global linear index, none where it names no element of the piece (R209, R215). -/
def localOf : List Dim → Nat → Option (List Nat)
  | [], g => if g = 0 then some [] else none
  | d :: ds, g =>
    let i := g % d.gsize
    if d.gorigin ≤ i ∧ i < d.gorigin + d.size then (localOf ds (g / d.gsize)).map (fun r => (i - d.gorigin) :: r)
    else none

/-- The element of a piece with global linear index g. -/
def Desc.find (t : Desc) (g : Nat) : Option (List Nat) := localOf t.dims g

/-- Place of an element's block in the scale and zero-point tables (R211). -/
def blockOf (bdim blen : Nat) : List Dim → List Nat → Nat → Nat
  | [], _, _ => 0
  | d :: ds, idx, k =>
    let i := idx.headD 0
    (if k = bdim then i / blen else i) +
      (if k = bdim then d.size / blen else d.size) * blockOf bdim blen ds idx.tail (k + 1)

/-- Place of an element's block (R211). -/
def Desc.block (t : Desc) (idx : List Nat) : Nat := blockOf t.bdim t.blen t.dims idx 0

/-- Blocks of the piece. -/
def Desc.blocks (t : Desc) : Nat := t.count / t.blen

/-- w bits of memory from a bit address (R202). -/
def readBits (m : SMap Byte) (ba w : Nat) : Nat :=
  bits (readMem m (ba / 8) ((ba % 8 + w + 7) / 8)) (ba % 8 + w - 1) (ba % 8)

/-- The code of an element. -/
def Desc.read (t : Desc) (m : SMap Byte) (idx : List Nat) : Nat := readBits m (t.bitAddr idx).toNat t.width

/-- S8 byte of a block as stored. -/
def Desc.s8Raw (t : Desc) (m : SMap Byte) (blk : Nat) : Nat := readMem m (addrBase t.scaleBase + blk) 1

/-- Zero-point code of a block (R211). -/
def Desc.zp (t : Desc) (m : SMap Byte) (blk : Nat) : Nat :=
  readBits m (8 * addrBase t.zpBase + t.width * blk) t.width

/-- The value of an element (R29 to R31), and whether reading its S8 sets INV (R30). -/
def Desc.value (t : Desc) (m : SMap Byte) (idx : List Nat) : Val × Bool :=
  let c := t.read m idx
  if t.qmode = 0 then (decodeFmt t.fmt c, false)
  else
    let b := t.block idx
    let s := readS8 (t.s8Raw m b)
    (blockVal t.fmt (t.qmode == 2) c s.1 (if t.qmode = 2 then t.zp m b else 0) t.tscale, s.2)

/-! ### The descriptor check (R212) -/

/-- A table or element extent in bytes, first and last. -/
abbrev Extent := Int × Int

/-- Bytes that the elements occupy (R205). -/
def Desc.extent (t : Desc) : Extent :=
  let r := t.offsetRange
  let b : Int := 8 * (addrBase t.base : Int)
  ((b + t.width * r.1) / 8, (b + t.width * r.2 + t.width - 1) / 8)

/-- Bytes of the scale table. -/
def Desc.scaleExtent (t : Desc) : Extent :=
  ((addrBase t.scaleBase : Int), (addrBase t.scaleBase : Int) + t.blocks - 1)

/-- Bytes of the zero-point table. -/
def Desc.zpExtent (t : Desc) : Extent :=
  ((addrBase t.zpBase : Int), (8 * (addrBase t.zpBase : Int) + t.width * t.blocks - 1) / 8)

/-- Whether an extent lies in the scratchpad of core p (R205, R212). -/
def inScratch (p : Nat) (e : Extent) : Bool :=
  decide ((spBase p : Int) ≤ e.1) && decide (e.2 < spBase p + 0x400000)

/-- A breach of R200: a grid-word descriptor's other fields. -/
def Desc.badGw (t : Desc) : Bool :=
  t.gw && !(t.fmt == 0 && t.qmode == 0 && t.blenCode == 0 && t.bdim == 0 && t.scaleBase == 0 && t.zpBase == 0 &&
    t.tscale == 0x3F800000 && t.layout == 0)

/-- A breach of R204. -/
def Desc.badTiled (t : Desc) : Bool :=
  t.layout == 1 && !(decide (2 ≤ t.rank) && t.bdim == 0 && (t.dim 0).size % 32 == 0 && (t.dim 1).size % 64 == 0 &&
    (t.dim 0).stride % 2048 == 0 && (t.dim 1).stride % 2048 == 0)

/-- DESC_FIELD (0x51): R198, R200, R204, held codes, RANK, BDIM, zero sizes; BLEN 16 at YA1 (R275). -/
def Desc.badField (t : Desc) (alevel : Nat) : Bool :=
  bits t.raw 255 243 != 0 || decide (0xC ≤ t.fmt) || t.qmode == 3 || t.blenCode == 3 || decide (1 < t.layout) ||
    t.rank == 0 || t.rank == 7 || decide (t.rank ≤ t.bdim) ||
    t.dims.any (fun d => d.size == 0 || d.gsize == 0) ||
    decide (t.raw / 2 ^ (256 + 128 * min t.rank 6) % 2 ^ (1024 - (256 + 128 * min t.rank 6)) ≠ 0) ||
    t.badGw || t.badTiled || (alevel == 1 && t.blenCode == 1)

/-- A breach of R207 in a destination. -/
def Desc.aliases (t : Desc) : Bool :=
  (List.range t.rank).any (fun d =>
    (t.dim d).stride == 0 &&
      decide ((if t.layout = 1 then (if d = 0 then 32 else if d = 1 then 64 else 1) else 1) < (t.dim d).size))

/-- A breach of R208. -/
def Desc.badGlobal (t : Desc) : Bool :=
  t.dims.any (fun d => decide (d.gsize < d.gorigin + d.size)) || decide (2 ^ 63 < prod (t.dims.map (·.gsize)))

/-- A breach of R203. -/
def Desc.badAlign (t : Desc) : Bool :=
  if t.gw then t.base % 16 != 0 else decide (16 ≤ t.width) && t.base % (t.width / 8) != 0

/-- A breach of R210. -/
def Desc.badShard (t : Desc) : Bool :=
  !t.gw && ((t.dim t.bdim).gorigin % t.blen != 0 || (t.dim t.bdim).size % t.blen != 0 ||
    (t.dim t.bdim).gsize % t.blen != 0)

/-- DESC_SCALE (0x54): R32 and tables where there are none. -/
def Desc.badScale (t : Desc) : Bool :=
  !tscaleOk t.tscale || (t.qmode == 0 && t.tscale != 0x3F800000) || (t.qmode == 0 && t.scaleBase != 0) ||
    (t.qmode != 2 && t.zpBase != 0)

/-- DESC_MODE (0x55): R206. -/
def Desc.badMode (t : Desc) : Bool :=
  addrMode t.base != 0 || addrMode t.scaleBase != 0 || addrMode t.zpBase != 0

/-- Whether an extent of the descriptor lies outside the scratchpad of core p (R212). -/
def Desc.outOfReach (t : Desc) (p : Nat) : Bool :=
  !inScratch p t.extent || (t.qmode != 0 && !inScratch p t.scaleExtent) ||
    (t.qmode == 2 && !inScratch p t.zpExtent)

/-- The fault codes that a descriptor meets (R212): `dest` for a destination, `vop` where an unreachable table is
VOP_BANK's to report. -/
def Desc.causes (t : Desc) (p alevel : Nat) (dest : Bool) : List (Bool × Nat) :=
  [(t.dver != 1, 0x50), (t.badField alevel, 0x51),
   (t.badAlign || (dest && t.aliases) || t.badGlobal || t.outOfReach p, 0x52), (t.badShard, 0x53), (t.badScale, 0x54),
   (t.badMode, 0x55)]

/-- The lowest descriptor fault, 0 where it passes. -/
def Desc.check (t : Desc) (p alevel : Nat) (dest : Bool) : Nat := leastCode (t.causes p alevel dest)

/-- The descriptor at a slot of core p's scratchpad: offset / 128 (R242). -/
def State.desc (s : State) (p slot : Nat) : Desc := parseDesc (s.rd (spBase p + 128 * slot) 128)

/-! ### Stores of elements -/

/-- w bits stored at a bit address of a memory image: the bytes from `first`, as (address, bytes, value). -/
def bitWrite (m : SMap Byte) (ba w v : Nat) : Nat × Nat × Nat :=
  let n := (ba % 8 + w + 7) / 8
  let old := readMem m (ba / 8) n
  (ba / 8, n, setBits old (ba % 8 + w - 1) (ba % 8) v)

/-- An element stored by core p into its own scratchpad. -/
def State.putElem (s : State) (p : Nat) (t : Desc) (idx : List Nat) (code : Nat) : State :=
  let ba := (t.bitAddr idx).toNat
  let w := bitWrite s.mem ba t.width code
  s.wrOwn p (w.1 - spBase p) w.2.1 w.2.2

/-- An S8 byte stored by core p. -/
def State.putS8 (s : State) (p : Nat) (t : Desc) (blk code : Nat) : State :=
  s.wrOwn p (addrBase t.scaleBase + blk - spBase p) 1 code

/-- The term of an element of `t` (R280, R281). -/
def Desc.elemDigest (t : Desc) (idx : List Nat) (code : Nat) : Nat :=
  elemTerm t.tid (t.global idx) t.width code

end Sys2Proof.Machine
end

