-- ==== Sys2Proof/Machine/Grid.lean ====
section
/-! DEFINITION. Grid accumulation: accumulators and grid words, segment scaling, conversion, and the drain's store
(04_grid_accumulation.md). -/

namespace Sys2Proof.Machine

/-- Least and greatest ACC (R96). -/
def accMin : Int := -(2 ^ 111)
def accMax : Int := 2 ^ 111 - 1

/-- Bounds of a contribution (R107). -/
def conMin : Int := -(2 ^ 88)
def conMax : Int := 2 ^ 88 - 1

/-- A result on accumulators and the flags it sets. -/
structure AccRes where
  acc : Acc
  fl : Flags
deriving DecidableEq, Repr

/-- A sum of ACC fields clamped by R101; `sat` tells that an operand is SAT already. -/
def accSum (sat : Bool) (x : Int) : AccRes :=
  if x < accMin then ⟨⟨.sat, accMin⟩, Flags.ofSat true⟩
  else if accMax < x then ⟨⟨.sat, accMax⟩, Flags.ofSat true⟩
  else ⟨⟨if sat then .sat else .fin, x⟩, Flags.clear⟩

/-- The sum of two accumulators (R100, R101). -/
def accAdd (a b : Acc) : AccRes :=
  if a.st = .nan ∨ b.st = .nan then ⟨⟨.nan, 0⟩, Flags.clear⟩
  else if (a.st = .pinf ∧ b.st = .ninf) ∨ (a.st = .ninf ∧ b.st = .pinf) then ⟨⟨.nan, 0⟩, Flags.ofInv true⟩
  else if a.st = .pinf ∨ b.st = .pinf then ⟨⟨.pinf, 0⟩, Flags.clear⟩
  else if a.st = .ninf ∨ b.st = .ninf then ⟨⟨.ninf, 0⟩, Flags.clear⟩
  else accSum (a.st == .sat || b.st == .sat) (a.acc + b.acc)

/-- The state code of a grid word (R97). -/
def accCode : AccState → Nat
  | .fin => 0
  | .sat => 1
  | .pinf => 2
  | .ninf => 3
  | .nan => 4

/-- ACC as a grid word carries it: 0 in the special states (R98). -/
def Acc.stored (a : Acc) : Int :=
  match a.st with
  | .fin => a.acc
  | .sat => a.acc
  | _ => 0

/-- A grid word (R97). -/
def gridWord (a : Acc) (g : Int) : Nat := accCode a.st * 2 ^ 124 + enc 12 g * 2 ^ 112 + enc 112 a.stored

/-- A grid word read: accumulator, G, and whether its STATE is held, which sets INV (R98, R99). -/
def readGridWord (w : Nat) : Acc × Int × Bool :=
  let g := sbits w 123 112
  match bits w 127 124 with
  | 0 => (⟨.fin, sbits w 111 0⟩, g, false)
  | 1 => (⟨.sat, sbits w 111 0⟩, g, false)
  | 2 => (⟨.pinf, 0⟩, g, false)
  | 3 => (⟨.ninf, 0⟩, g, false)
  | 4 => (⟨.nan, 0⟩, g, false)
  | _ => (⟨.nan, 0⟩, g, true)

/-- The sum of two grid words (R116, R117): the word, the flags, and whether their G differ. The result carries the
first word's G. -/
def gridAdd (x y : Nat) : Nat × Flags × Bool :=
  let a := readGridWord x
  let b := readGridWord y
  let held := Flags.ofInv (a.2.2 || b.2.2)
  if a.2.1 ≠ b.2.1 then (gridWord ⟨.nan, 0⟩ a.2.1, Flags.join held (Flags.ofInv true), true)
  else
    let r := accAdd a.1 b.1
    (gridWord r.acc a.2.1, Flags.join held r.fl, false)

/-- A contribution from an exact value n / d before rounding: clamped by R107, flags by R107 and R108. -/
def contribute (n : Int) (d : Nat) : AccRes :=
  let c := roundDiv n d
  if c < conMin then ⟨⟨.sat, conMin⟩, Flags.ofSat true⟩
  else if conMax < c then ⟨⟨.sat, conMax⟩, Flags.ofSat true⟩
  else
    let inx := decide (c * d ≠ n)
    ⟨⟨.fin, c⟩, ⟨false, false, inx && decide (n ≠ 0 ∧ c = 0), inx⟩⟩

/-- The contribution of a unit with scaled sum Q and combined exponent X under grid exponent G (R105). -/
def unitContribution (q x g : Int) : AccRes :=
  let p := pow2 (x + 40 - g)
  contribute (q * p.1) p.2

/-! ### Residues (R126) -/

/-- The residue of an integer modulo 7. -/
def res7 (v : Int) : Nat := (v % 7).toNat

/-- The check of the shift (stage 10) of Q to C under a shift of sigma. -/
def shiftChecked (q c sigma : Int) : Bool :=
  if 0 ≤ sigma then res7 c == res7 ((res7 q : Int) * 2 ^ (sigma % 3).toNat)
  else
    let k := (-sigma).toNat
    res7 ((res7 q : Int) + res7 (2 ^ (k - 1))) ==
      res7 ((res7 c : Int) * res7 (2 ^ k) + res7 (q + 2 ^ (k - 1) - c * 2 ^ k))

/-- What bit errors add to the value formed at a stage, in unit u of column j. -/
def errorAt (errs : List BitError) (stage j u : Nat) : Int :=
  ((errs.filter (fun e => e.stage == stage && e.col == j && e.unit == u)).map (·.delta)).sum

/-- A value converted into an accumulator with exponent G (R118). -/
def valToAcc (v : Val) (g : Int) : AccRes :=
  match v with
  | .nan s => ⟨⟨.nan, 0⟩, Flags.ofInv s⟩
  | .inf neg => ⟨⟨if neg then .ninf else .pinf, 0⟩, Flags.clear⟩
  | .num n d _ =>
    let p := pow2 (40 - g)
    contribute (n * p.1) (d * p.2)

/-- A special state as an accumulator. -/
def Special.acc : Special → Acc
  | .fin => ⟨.fin, 0⟩
  | .nan => ⟨.nan, 0⟩
  | .pinf => ⟨.pinf, 0⟩
  | .ninf => ⟨.ninf, 0⟩

/-- An accumulator as a row pass leaves it: with its running residue, the flags set, and the check points that found a
mismatch, the first one first (R126). -/
structure Landed where
  acc : Acc
  res : Nat
  fl : Flags
  bad : List Nat
deriving DecidableEq, Repr

/-- One unit's term, with the errors e8 to e11 of its stages, added into an accumulator (R105 to R110), and the residue
checks of R126. A contribution that R107 clamps and a unit with a special state are not checked. DESIGN CHOICE (log 141): where
R101 clamps the accumulator, its running residue is that of the clamped value. -/
def landTerm (g : Int) (e8 e9 e10 e11 : Int) (a : Landed) (t : Term) : Landed :=
  if t.sp = .fin then
    let p := t.sum + e8
    let q := p * t.mu + e9
    let c0 := unitContribution q t.x g
    let c : Acc := ⟨c0.acc.st, c0.acc.acc + e10⟩
    let r := accAdd a.acc c
    let acc : Acc := ⟨r.acc.st, r.acc.acc + e11⟩
    let res := if r.fl.sat then res7 acc.acc
      else if acc.st = .fin ∨ acc.st = .sat then (a.res + res7 c.acc) % 7 else 0
    let checks : List (Bool × Nat) :=
      [(res7 p == t.res, 8), (res7 q == res7 ((res7 p : Int) * res7 t.mu), 9),
       (shiftChecked q c.acc (t.x + 40 - g), 10), (acc.st == .nan || acc.st == .pinf || acc.st == .ninf || res7 acc.acc == res, 11)]
    ⟨acc, res, Flags.join a.fl (Flags.join c0.fl r.fl),
      a.bad ++ (if c0.acc.st = .fin then (checks.filter (fun e => !e.1)).map (·.2) else [])⟩
  else
    let r := accAdd a.acc t.sp.acc
    ⟨r.acc, 0, Flags.join a.fl r.fl, a.bad⟩

/-- A row pass's terms of column j added into its accumulator, unit by unit. DESIGN CHOICE (log 141): the order matters only
beyond the 2^23 contributions of R111, where the clamp of R101 can occur and the spec leaves the order open. -/
def landColumn (errs : List BitError) (j : Nat) (g : Int) (a : Acc) (res : Nat) (ts : List Term) : Landed :=
  ts.zipIdx.foldl (fun l t => landTerm g (errorAt errs 8 j t.2) (errorAt errs 9 j t.2) (errorAt errs 10 j t.2)
    (errorAt errs 11 j t.2) l t.1) ⟨a, res, Flags.clear, []⟩

/-! ### Special states in a unit (R52, R88) -/

/-- The special state of one cell's product, and whether it sets INV: `wz` and `az` tell an aligned zero, `wn` and
`an` a negative sign. -/
def prodSpecial (ws as_ : Special) (wz az wn an : Bool) : Special × Bool :=
  if ws = .nan ∨ as_ = .nan then (.nan, false)
  else if ws = .fin ∧ as_ = .fin then (.fin, false)
  else if (ws = .fin ∧ wz) ∨ (as_ = .fin ∧ az) then (.nan, true)
  else
    let neg := (if ws = .fin then wn else ws == .ninf) != (if as_ = .fin then an else as_ == .ninf)
    (if neg then .ninf else .pinf, false)

/-- Product states combined within a column (R52), and whether the combination sets INV. -/
def combineSpecial (l : List Special) : Special × Bool :=
  if l.contains .nan then (.nan, false)
  else if l.contains .pinf ∧ l.contains .ninf then (.nan, true)
  else if l.contains .pinf then (.pinf, false)
  else if l.contains .ninf then (.ninf, false)
  else (.fin, false)

/-! ### The drain's store (R123) -/

/-- A drain parameter block (R121). -/
structure DrainParams where
  clampEn : Bool
  hi : Int
  lo : Int
  raw : Nat
deriving DecidableEq, Repr

/-- A parameter block from its bits. -/
def drainParams (w : Nat) : DrainParams := ⟨bit w 2112, sbits w 2111 2080, sbits w 2079 2048, w⟩

/-- Column j's bias. -/
def DrainParams.bias (d : DrainParams) (j : Nat) : Int := sbits d.raw (32 * j + 31) (32 * j)

/-- A malformed parameter block (R122). -/
def DrainParams.bad (d : DrainParams) : Bool :=
  bits d.raw 2303 2113 != 0 || (d.clampEn && decide (d.hi < d.lo))

/-- A finite y stored (R123, rule 3). -/
def drainFinite (fmt : Nat) (g y : Int) : Stored :=
  if fmtIsInt fmt then storeFmt fmt (.num y (2 ^ 40) false) else storeFmt fmt (scaled y 1 (g - 40))

/-- The largest finite value of a sign, with SAT and INX (R123, rule 2). -/
def drainSat (fmt : Nat) (neg : Bool) : Stored :=
  let m := if neg then minElem fmt else maxElem fmt
  ⟨(storeFmt fmt (.num m.1 m.2 false)).code, Flags.saturated⟩

/-- An accumulator stored in a destination that is not grid words (R123). -/
def drainStore (fmt : Nat) (d : DrainParams) (j : Nat) (g : Int) (a : Acc) : Stored :=
  let y := a.acc + d.bias j * 2 ^ 40
  let hi := d.hi * 2 ^ 40
  let lo := d.lo * 2 ^ 40
  match a.st with
  | .nan => storeFmt fmt (.nan false)
  | .fin => drainFinite fmt g (if d.clampEn then clampI lo hi y else y)
  | st =>
    let neg := if st = .ninf then true else if st = .pinf then false else decide (y < 0)
    if d.clampEn then drainFinite fmt g (if neg then lo else hi)
    else if st = .sat then drainSat fmt neg
    else storeFmt fmt (.inf neg)

/-- Formats a DRAIN may write (R119). -/
def drainFmtOk (t : Desc) : Bool :=
  t.gw || (t.qmode == 0 && (t.fmt == 0 || t.fmt == 1 || t.fmt == 2 || t.fmt == 9 || t.fmt == 0xA || t.fmt == 0xB))

end Sys2Proof.Machine
end

