-- ==== Sys2Proof/Machine/Stream.lean ====
section
/-! DEFINITION. A core's stream: fetching, decoding, effective fields, queues (R234 to R247). -/

namespace Sys2Proof.Machine

/-- What decoding a command comes to: decode stalls, the command faults, or it is decoded. -/
inductive DecR where
  | stall
  | fault (code detail : Nat)
  | ok (s : State)

/-- The command that core p decodes next, none where its sequencer is not decoding. -/
def State.nextCmd (s : State) (p : CoreId) : Option Nat :=
  let c := s.core p
  if c.mode = .running ∧ c.seqWait = .none ∧ ¬ s.power.stopped then c.fetched.head? else none

/-- The ring offset of the command after the one at `pos` (R234). -/
def ringNext (base len pos : Nat) : Nat := if pos + 16 = base + len then base else pos + 16

/-- A core that has decoded the command at its head. -/
def Core.decoded (c : Core) : Core :=
  { c with fetched := c.fetched.tail, pos := ringNext c.ringBase c.ringLen c.pos, ord := c.ord + 1 }

/-- One decode of core p: where its next command has opcode `op`, what `k` makes of it; otherwise nothing happens
(log 7). A stall leaves the command at the head (R238). -/
def State.decodeCmd (s : State) (p : CoreId) (op : Nat) (k : State → Nat → DecR) : State :=
  match s.nextCmd p with
  | none => s
  | some cmd =>
    if bits cmd 127 120 = op then
      match k (s.setCore p (s.core p).decoded) cmd with
      | .stall => s
      | .fault code detail => s.fault p.val code detail cmd (s.core p).pos
      | .ok s' => s'
    else s

/-- The lowest fault code that applies, or what follows where none does (R91, R212). -/
def orFault (causes : List (Bool × Nat)) (k : DecR) : DecR :=
  if leastCode causes = 0 then k else .fault (leastCode causes) 0

/-! ### Effective fields (R246) -/

/-- Sum over the open levels of I x LSTRIDE x 128. -/
def Core.advance (c : Core) : Int := (c.loops.map (fun l => (l.i : Int) * l.lstride * 128)).sum

/-- The effective offset of a scratchpad place; none outside 0 to 4 MiB - 1, which is CMD_RANGE. -/
def Core.effOffset (c : Core) (adv : Bool) (off : Nat) : Option Nat :=
  let e := (off : Int) + (if adv then c.advance else 0)
  if 0 ≤ e ∧ e < 0x400000 then some e.toNat else none

/-- The effective pass tag. -/
def Core.effTag (c : Core) (adv : Bool) (tag : Nat) : Nat :=
  if adv then (tag + (c.loops.map (fun l => l.i * l.tstep)).sum) % 8 else tag

/-! ### Queues (R239) -/

/-- A queue by its ENG value. -/
def Core.queue (c : Core) (eng : Nat) : List Queued :=
  match eng with
  | 1 => c.qLoader
  | 2 => c.qArray
  | 3 => c.qDrain
  | 4 => c.qVector
  | _ => []

/-- A core with a queue replaced. -/
def Core.setQueue (c : Core) (eng : Nat) (q : List Queued) : Core :=
  match eng with
  | 1 => { c with qLoader := q }
  | 2 => { c with qArray := q }
  | 3 => { c with qDrain := q }
  | 4 => { c with qVector := q }
  | _ => c

/-- Whether an entry is a WLOAD. -/
def QEntry.isWload : QEntry → Bool
  | .wload _ => true
  | _ => false

/-- Whether an entry waits for a semaphore. -/
def QEntry.isAcq : QEntry → Bool
  | .acq _ _ _ => true
  | _ => false

/-- Whether queue `eng` has room for an entry (R239). -/
def Core.room (c : Core) (eng : Nat) (e : QEntry) : Bool :=
  match eng with
  | 1 => if e.isWload then !c.qLoader.any (fun q => q.e.isWload)
         else decide ((c.qLoader.filter (fun q => !q.e.isWload)).length < 4)
  | 2 => decide (c.qArray.length < 8)
  | 3 => decide (c.qDrain.length < 4)
  | 4 => decide (c.qVector.length < 8)
  | _ => false

/-- A core with an entry at the back of a queue, at its place in decode order. -/
def Core.push (c : Core) (eng : Nat) (e : QEntry) : Core := c.setQueue eng (c.queue eng ++ [⟨c.ord, e⟩])

/-- The state with an entry pushed, or a stall where its queue is full (R238). -/
def State.pushTo (s : State) (p : CoreId) (eng : Nat) (e : QEntry) : DecR :=
  if (s.core p).room eng e then .ok (s.setCore p ((s.core p).push eng e)) else .stall

/-- The entries of a queue that an unsatisfied acquisition does not hold back (R240). -/
def reach : List Queued → List Queued
  | [] => []
  | q :: t => if q.e.isAcq then [] else q :: reach t

/-! ### Engine accesses (R182, R184, R190) -/

/-- The lowest response code of an engine's reads of a list of (address, length), with its address. -/
def State.readsCode (s : State) (who : Req) (l : List (Nat × Nat)) : Nat × Nat :=
  l.foldl (fun m e =>
    let c := s.readCode who e.1 e.2
    if c ≠ 0 ∧ (m.1 = 0 ∨ c < m.1) then (c, e.1) else m) (0, 0)

/-- The same for writes. -/
def State.writesCode (s : State) (who : Req) (l : List (Nat × Nat)) : Nat × Nat :=
  l.foldl (fun m e =>
    let c := s.accessCode who e.1 e.2 .write
    if c ≠ 0 ∧ (m.1 = 0 ∨ c < m.1) then (c, e.1) else m) (0, 0)

/-- A bank whose power-up ends (R192, R193): with ZSCRUB every row is valid and zero, without it no row is valid. -/
def State.powerUp (s : State) (b : Nat) : State :=
  let x := s.bank b
  s.setBank b { x with st := x.req, powering := false, cleared := !s.zscrub b, valid := [], retained := [], macroWake := [] }

/-- A macro of bank b awake again: counted for a core's bank (R512) and scrubbed (R191). -/
def State.wakeMacro (s : State) (b m : Nat) : State :=
  let x := s.bank b
  let s1 := s.setBank b { x with retained := x.retained.filter (fun k => k ≠ m),
                                 macroWake := x.macroWake.filter (fun k => k ≠ m) }
  (if b < 288 then s1.countCore (b / 4) 0x1C else s1).eccRead (bankStart b + 2 ^ 16 * m) (2 ^ 16)

/-- An access to a bank in RETAIN, or to a retained macro, wakes it; the access waits for the wake, or for the end of a
zero-scrub, and proceeds (R190 to R192). -/
def State.wake (s : State) (a : Nat) : State :=
  match placeOf a with
  | .bank b =>
    let x := s.bank b
    if x.powering && s.zscrub b then s.setBank b { (s.powerUp b).bank b with st := .on, req := .on }
    else if x.st = .retain then
      s.setBank b { x with st := .on, req := .on, waking := false, retained := [], macroWake := [] }
    else if x.retained.contains (macroOf b a) then s.wakeMacro b (macroOf b a)
    else s
  | _ => s

/-- Every bank and macro that n bytes from a lie in, awake. -/
def State.wakeSpan (s : State) (a n : Nat) : State :=
  if s.banks.isEmpty then s else (probes (2 ^ 16) a n).foldl State.wake s

/-- Every bank and macro that a list of accesses meets, awake. -/
def State.wakeAll (s : State) (l : List (Nat × Nat)) : State := l.foldl (fun s e => s.wakeSpan e.1 e.2) s

/-- Whether any of n bytes from an address lies in a bank in OFF. -/
def State.bankOff (s : State) (addr n : Nat) : Bool :=
  (probes (2 ^ 16) addr n).any (fun a => match placeOf a with
    | .bank b => s.bankRefuses b
    | _ => false)

/-- The response of core p's own banks to one of its engines (R184): BANK_OFF, or POISON on a read. -/
def State.ownCode (s : State) (read : Bool) (l : List (Nat × Nat)) : Nat × Nat :=
  if s.ecc.isEmpty && s.banks.isEmpty then (0, 0)
  else l.foldl (fun m e =>
    let c : Nat := if (read && s.poisoned e.1 e.2) = true then 6 else if s.bankOff e.1 e.2 = true then 7 else 0
    if c ≠ 0 ∧ (m.1 = 0 ∨ c < m.1) then (c, e.1) else m) (0, 0)

/-- Whether core p's own banks answer a list of reads with OK. -/
def State.readsOwn (s : State) (l : List (Nat × Nat)) : Bool := (s.ownCode true l).1 == 0

/-- The banks and check bits that a list of reads meets (R185 to R187, R190). -/
def State.readAll (s : State) (l : List (Nat × Nat)) : State :=
  (l.foldl (fun st e => st.eccRead e.1 e.2) s).wakeAll l

/-- A read by the sequencer at decode: a response that is not OK faults the command with the lowest of its own code and
those of `pre` that apply (R91, R184, R212). -/
def State.seqRead (s : State) (l : List (Nat × Nat)) (pre : List (Bool × Nat)) (k : State → DecR) : DecR :=
  let rd := s.ownCode true l
  if rd.1 = 0 then k (s.readAll l)
  else
    let code := leastCode ((true, memFault rd.1) :: pre)
    .fault code (if code = memFault rd.1 then rd.2 else 0)

/-! ### Fetch (R235) -/

/-- Whether a command is a CUFF.WAIT or SEM.ACQ with ENG SEQ. -/
def isSeqWait (cmd : Nat) : Bool :=
  (bits cmd 127 120 == 0x30 || bits cmd 127 120 == 0x38) && bits cmd 119 117 == 0

/-- Up to n commands from ring offset `pos` to the end of its 64-byte line, none behind a wait with ENG SEQ. -/
def fetchLine (m : SMap Byte) (base pos : Nat) : Nat → List Nat
  | 0 => []
  | n + 1 =>
    let cmd := readMem m (base + pos) 16
    if isSeqWait cmd ∨ (pos + 16) % 64 = 0 then [cmd] else cmd :: fetchLine m base (pos + 16) n

/-- The ring offset n commands behind `pos`. -/
def ringSkip (base len pos : Nat) : Nat → Nat
  | 0 => pos
  | n + 1 => ringSkip base len (ringNext base len pos) n

/-- One fetch of core p (R235): at most 16 commands ahead, nothing behind an unsatisfied wait with ENG SEQ. -/
def State.fetch (s : State) (p : CoreId) : State :=
  let c := s.core p
  if c.mode = .running ∧ c.seqWait = .none ∧ c.ringLen ≠ 0 ∧ ¬ c.fetched.any isSeqWait then
    let at_ := ringSkip c.ringBase c.ringLen c.pos c.fetched.length
    let code := s.readCode (s.coreReq p.val) (spBase p.val + at_) 16
    if code ≠ 0 then
      (if c.fetched.isEmpty then s.fault p.val (memFault code) (spBase p.val + at_) 0 at_ else s)
    else
      let l := fetchLine s.mem (spBase p.val) at_ 4
      if c.fetched.length + l.length ≤ 16 then
        (s.readAll [(spBase p.val + at_, 16 * l.length)]).setCore p { c with fetched := c.fetched ++ l }
      else s
  else s

/-- SEQUENCER_FETCH. -/
def execSequencerFetch (p : CoreId) (s : State) : Host.Outcome State Fault Refusal := .next (s.fetch p)

/-- The bytes of an element. -/
def Desc.span (t : Desc) (idx : List Nat) : Nat × Nat :=
  let ba := (t.bitAddr idx).toNat
  (ba / 8, (ba % 8 + t.width + 7) / 8)

end Sys2Proof.Machine
end

