-- ==== Sys2Proof/Machine/Array.lean ====
section
/-! DEFINITION. The bit-serial array: stationary blocks, feeders, row passes, contributions (03_matrix_array.md and
R102 to R114). -/

namespace Sys2Proof.Machine

/-! ### WLOAD fields and checks (R56, R57, R65, R82, R83, R248) -/

/-- Lane width of a LANE code (R56). -/
def laneBits (lane : Nat) : Nat :=
  match lane with
  | 0 => 4
  | 1 => 6
  | 2 => 8
  | _ => 16

/-- Whether a weight format may enter a lane (R57), at an arithmetic level (R275). -/
def laneOk (fmt lane alevel : Nat) : Bool :=
  match lane with
  | 0 => fmt == 0 || fmt == 4
  | 1 => (fmt == 5 || fmt == 6) && alevel != 1
  | 2 => fmt == 1 || fmt == 5 || fmt == 6 || fmt == 7 || fmt == 8
  | _ => fmt == 2 || fmt == 9 || fmt == 0xA

/-- Rows, columns and first indices that a WLOAD names. -/
def wRowsOf (cmd : Nat) : Nat := bits cmd 51 43 + 1
def wColsOf (cmd : Nat) : Nat := bits cmd 42 37 + 1
def wK0 (cmd : Nat) : Nat := bits cmd 99 76
def wN0 (cmd : Nat) : Nat := bits cmd 75 52

/-- BLOCK_SHAPE (R248). -/
def blockShapeBad (t : Desc) (cmd : Nat) : Bool :=
  decide ((t.dim 0).size < wK0 cmd + wRowsOf cmd) || decide ((t.dim 1).size < wN0 cmd + wColsOf cmd) ||
    ((t.dim 0).gorigin + wK0 cmd) % t.blen != 0 || t.bdim != 0 || (t.dims.drop 2).any (fun d => d.size != 1)

/-- The faults of a WLOAD that its command and the stream show without the descriptor: the 6-bit lane is YA2's (R275). -/
def wloadOwnCauses (c : Core) (cmd tag : Nat) : List (Bool × Nat) :=
  [(bits cmd 35 0 != 0, 0x02),
   (match c.lastW with | some l => tag != (l + 1) % 8 | none => false, 0x21),
   (c.lastW.isSome && !c.wPassed, 0x22), (bits cmd 116 115 == 1 && c.alevel == 1, 0x25)]

/-- The faults of a WLOAD, on the core that has decoded it. -/
def wloadCauses (p : Nat) (c : Core) (cmd tag : Nat) (t : Desc) : List (Bool × Nat) :=
  wloadOwnCauses c cmd tag ++
  [(blockShapeBad t cmd, 0x23), (t.gw || !laneOk t.fmt (bits cmd 116 115) c.alevel, 0x25), (t.qmode == 2, 0x26)] ++
  t.causes p c.alevel false

/-! ### Building a stationary block -/

/-- One alignment block of one column: S8 as read, lane exponent, and whether the S8 was held. -/
structure AlignedBlock where
  s8 : Nat
  lam : Int
  held : Bool
deriving DecidableEq, Repr

/-- The alignment block that holds index `k` of dimension 0, at the other indices `rest` (R49): a tensor in mode none
uses S8 0x38, which is 1.0 (R104). `zp` is the block's zero point in asymmetric mode (R113). -/
def alignedBlock (t : Desc) (m : SMap Byte) (L k : Nat) (rest : List Nat) : AlignedBlock :=
  let b := k / t.blen
  let codes := (List.range t.blen).map (fun e => t.read m ((b * t.blen + e) :: rest))
  let blk := t.block (k :: rest)
  let codes' := if t.qmode = 2 then t.zp m blk :: codes else codes
  let s := if t.qmode = 0 then (0x38, false) else readS8 (t.s8Raw m blk)
  ⟨s.1, laneExp t.fmt L codes', s.2⟩

/-- The special state recorded for an element (R88). -/
def recordSpecial (fmt s8 code : Nat) : Special :=
  if s8 = 0xFF then .nan else if s8 = 0 then .fin else specialOf fmt code

/-- One column of a block, and the flags its loading sets (R30, R50). -/
def buildColumn (t : Desc) (m : SMap Byte) (cmd L j : Nat) : ColBlock × Flags :=
  let rows := wRowsOf cmd
  let us := if t.blen = 16 then 16 else 32
  let at_ := fun i => alignedBlock t m L (wK0 cmd + i) [wN0 cmd + j]
  let cells := (List.range rows).map (fun i =>
    let a := at_ i
    let code := t.read m [wK0 cmd + i, wN0 cmd + j]
    (blockLane t.fmt a.lam a.s8 code, recordSpecial t.fmt a.s8 code, a.held))
  let ws := cells.map (fun e => e.1.1)
  let units := (List.range ((rows + us - 1) / us)).map (fun u =>
    let a := at_ (u * us)
    ⟨a.s8, a.lam, ((ws.drop (u * us)).take us).sum⟩)
  (⟨cells.map (fun e => ⟨e.1.1, e.2.1, res7 e.1.1⟩), units⟩,
    ⟨cells.any (fun e => e.2.2), false, false, cells.any (fun e => e.1.2)⟩)

/-- Whether a weight fits in k digits (R68). -/
def fitsDigits (k : Nat) (w : Int) : Bool := decide (-(2 ^ (2 * k - 1)) ≤ w ∧ w ≤ 2 ^ (2 * k - 1) - 1)

/-- The effective digit count of a block (R68): at most 8. -/
def digitCount (ws : List Int) : Nat :=
  (([1, 2, 3, 4, 5, 6, 7].find? (fun k => ws.all (fitsDigits k)))).getD 8

/-- The block that a WLOAD loads, and the flags of its loading. -/
def buildBlock (m : SMap Byte) (w : WloadCmd) : Block × Flags :=
  let t := parseDesc w.desc
  let L := laneBits (bits w.cmd 116 115)
  let cols := (List.range (wColsOf w.cmd)).map (buildColumn t m w.cmd L)
  (⟨w, wRowsOf w.cmd, t.blen, digitCount (cols.flatMap (fun c => c.1.cells.map (·.w))), cols.map (·.1)⟩,
    Flags.joinAll (cols.map (·.2)))

/-- A column outside the block: the weight loader writes 0 into each of its cells (R66). -/
def ColBlock.outside (rows blen : Nat) : ColBlock :=
  let us := if blen = 16 then 16 else 32
  ⟨List.replicate rows ⟨0, .fin, 0⟩, List.replicate ((rows + us - 1) / us) ⟨0x38, 0, 0⟩⟩

/-- What a WLOAD reads: the whole alignment blocks of its cells, and their S8 codes. -/
def wloadReads (w : WloadCmd) : List (Nat × Nat) :=
  let t := parseDesc w.desc
  let b0 := wK0 w.cmd / t.blen * t.blen
  let n := (wK0 w.cmd + wRowsOf w.cmd + t.blen - 1) / t.blen * t.blen - b0
  (List.range (wColsOf w.cmd)).flatMap (fun j =>
    (List.range n).map (fun i => t.span [b0 + i, wN0 w.cmd + j]) ++
    (if t.qmode = 0 then []
     else (List.range (n / t.blen)).map (fun b =>
       (addrBase t.scaleBase + t.block [b0 + b * t.blen, wN0 w.cmd + j], 1))))

/-! ### MPASS fields and checks (R77 to R80, R82, R250) -/

/-- A window descriptor (R79). -/
structure Window where
  raw : Nat
  dh : Nat
  dw : Nat
  pt : Nat
  pb : Nat
  pl : Nat
  pr : Nat
  outH : Nat
  outW : Nat
  inH : Nat
  inW : Nat
  c : Nat
  kh : Nat
  kw : Nat
  sh : Nat
  sw : Nat
deriving DecidableEq, Repr

/-- A window descriptor from its bits. -/
def parseWindow (w : Nat) : Window where
  raw := w
  dh := bits w 127 124
  dw := bits w 123 120
  pt := bits w 119 116
  pb := bits w 115 112
  pl := bits w 111 108
  pr := bits w 107 104
  outH := bits w 103 88
  outW := bits w 87 72
  inH := bits w 63 48
  inW := bits w 47 32
  c := bits w 31 16
  kh := bits w 15 12
  kw := bits w 11 8
  sh := bits w 7 4
  sw := bits w 3 0

/-- An output extent by the formula of R80. -/
def outExtent (inn p0 p1 d k st : Nat) : Int :=
  ((inn : Int) + p0 + p1 - d * ((k : Int) - 1) - 1) / (st : Int) + 1

/-- WINDOW_BAD (R80). DEDUCED (log 142): IN_H, IN_W, C, OUT_H or OUT_W of 0, outside the ranges of R79, fails the check too. -/
def Window.bad (w : Window) (t : Desc) : Bool :=
  bits w.raw 255 128 != 0 || bits w.raw 67 64 != 0 || bits w.raw 71 68 != 1 || t.rank != 4 || t.bdim != 0 ||
    decide ((t.dim 1).size < w.inW) || decide ((t.dim 2).size < w.inH) ||
    w.kh == 0 || w.kw == 0 || w.sh == 0 || w.sw == 0 || w.dh == 0 || w.dw == 0 ||
    w.c % t.blen != 0 || w.c != (t.dim 0).size ||
    decide (outExtent w.inH w.pt w.pb w.dh w.kh w.sh ≠ w.outH) ||
    decide (outExtent w.inW w.pl w.pr w.dw w.kw w.sw ≠ w.outW) || w.outH == 0 || w.outW == 0 ||
    w.inH == 0 || w.inW == 0 || w.c == 0

/-- Where reduction index r of activation row t reads the input (R77): its index, or none for padding (R78). -/
def Window.index (w : Window) (t r : Nat) : Option (List Nat) :=
  let pos := r / w.c
  let ih := ((t / w.outW % w.outH * w.sh : Nat) : Int) - w.pt + (pos / w.kw * w.dh : Nat)
  let iw := ((t % w.outW * w.sw : Nat) : Int) - w.pl + (pos % w.kw * w.dw : Nat)
  if 0 ≤ ih ∧ ih < w.inH ∧ 0 ≤ iw ∧ iw < w.inW then
    some [r % w.c, iw.toNat, ih.toNat, t / (w.outW * w.outH)]
  else none

/-- Fields of an MPASS. -/
def mRows (cmd : Nat) : Nat := bits cmd 34 26 + 1
def mGrow (cmd : Nat) : Nat := bits cmd 25 17

/-- ROW_RANGE (R250). -/
def rowRangeBad (t : Desc) (win : Option Window) (cmd krows : Nat) : Bool :=
  let r0 := bits cmd 82 59
  let ak0 := bits cmd 58 35
  decide (511 < mGrow cmd + bits cmd 34 26) || ((t.dim 0).gorigin + ak0) % t.blen != 0 ||
  match win with
  | some w => decide ((t.dim 3).size * w.outH * w.outW < r0 + mRows cmd) || decide (w.kh * w.kw * w.c < ak0 + krows)
  | none => decide ((t.dim 1).size < r0 + mRows cmd) || decide ((t.dim 0).size < ak0 + krows) || t.bdim != 0 ||
      (t.dims.drop 2).any (fun d => d.size != 1)

/-- Whether R82 allows an MPASS's tag: the last MPASS's, or that of a WLOAD decoded after it. -/
def passTagOk (c : Core) (tag : Nat) : Bool := c.lastM == some tag || c.wSince.contains tag

/-- The faults of an MPASS that its command and the stream show without any descriptor. -/
def mpassOwnCauses (c : Core) (cmd tag : Nat) : List (Bool × Nat) :=
  [(bits cmd 15 0 != 0 || (!bit cmd 115 && bits cmd 99 83 != 0), 0x02), (!passTagOk c tag, 0x20),
   (decide (511 < mGrow cmd + bits cmd 34 26), 0x28)]

/-- The faults of an MPASS that its activation descriptor shows without a window. -/
def mpassDescCauses (p : Nat) (c : Core) (cmd tag : Nat) (t : Desc) : List (Bool × Nat) :=
  mpassOwnCauses c cmd tag ++
  [(((t.dim 0).gorigin + bits cmd 58 35) % t.blen != 0, 0x28),
   (t.gw || t.fmt == 0xB || t.fmt == 3 || t.blen != sget c.wBlen zeroD tag, 0x29)] ++
  t.causes p c.alevel false

/-- The faults of an MPASS. -/
def mpassCauses (p : Nat) (c : Core) (cmd tag : Nat) (t : Desc) (win : Option Window) : List (Bool × Nat) :=
  mpassDescCauses p c cmd tag t ++
  [(match win with | some w => w.bad t | none => false, 0x24),
   (rowRangeBad t win cmd (sget c.wRows zeroD tag), 0x28)]

/-! ### Feeders (R60, R61, R72, R75, R78) -/

/-- Whether an activation format takes two lane passes (R61), and the lane's width. -/
def actTwo (fmt : Nat) : Bool := fmt == 2 || fmt == 9 || fmt == 0xA
def actLane (fmt : Nat) : Nat := if actTwo fmt then 16 else 12

/-- The index that feeder i reads for activation row t of an MPASS, none for padding. -/
def MPass.index (q : MPass) (t i : Nat) : Option (List Nat) :=
  match q.win with
  | some w => (parseWindow w).index (q.r0 + t) (q.ak0 + i)
  | none => some [q.ak0 + i, q.r0 + t]

/-- The special state of a value. -/
def Val.special : Val → Special
  | .num _ _ _ => .fin
  | .inf neg => if neg then .ninf else .pinf
  | .nan _ => .nan

/-- The entry that feeder i fills for activation row t, and the flags its alignment sets. DEDUCED (log 143): in asymmetric mode
the special state of an element is that of v(q) - v(z), so that a NaN or infinite zero point marks the whole block, and
infinity minus infinity is NaN without INV. -/
def MPass.entry (q : MPass) (m : SMap Byte) (t i : Nat) : FeederEntry × Flags :=
  let d := parseDesc q.desc
  let last := t + 1 == q.rows
  match q.index t i with
  | none => (⟨0, actTwo d.fmt, .fin, q.tag, last, 0x38, 0, 0⟩, Flags.clear)
  | some idx =>
    let a := alignedBlock d m (actLane d.fmt) (idx.headD 0) idx.tail
    let code := d.read m idx
    let v := blockLane d.fmt a.lam a.s8 code
    let z := if d.qmode = 2 then blockLane d.fmt a.lam a.s8 (d.zp m (d.block idx)) else (0, false)
    let sp := if d.qmode = 2 ∧ a.s8 ≠ 0 ∧ a.s8 ≠ 0xFF then
        (valAdd (decodeFmt d.fmt code) (decodeFmt d.fmt (d.zp m (d.block idx))).neg).1.special
      else recordSpecial d.fmt a.s8 code
    (⟨v.1, actTwo d.fmt, sp, q.tag, last, a.s8, a.lam, z.1⟩,
      ⟨a.held, false, false, v.2 || z.2⟩)

/-- What a feeder reads for an entry: the element's alignment block, its S8 code and its zero point. -/
def MPass.reads (q : MPass) (t i : Nat) : List (Nat × Nat) :=
  let d := parseDesc q.desc
  match q.index t i with
  | none => []
  | some idx =>
    let b := idx.headD 0 / d.blen * d.blen
    (List.range d.blen).map (fun e => d.span ((b + e) :: idx.tail)) ++
      (if d.qmode = 0 then [] else [(addrBase d.scaleBase + d.block idx, 1)]) ++
      (if d.qmode = 2 then [((8 * addrBase d.zpBase + d.width * d.block idx) / 8, (d.width + 7) / 8)] else [])

/-! ### Row passes (R59 to R64, R74, R105, R112) -/

/-- One unit's term in one column, and whether its special states set INV. An activation stands for its lane value less
the aligned zero point: it counts as zero, and has its sign, by that difference (R51). -/
def unitTerm (us u : Nat) (col : ColBlock) (row : List FeederEntry) : Term × Bool :=
  let ui := col.units.getD u ⟨0x38, 0, 0⟩
  let es := (row.drop (u * us)).take us
  let cs := (col.cells.drop (u * us)).take us
  let e0 := es.headD ⟨0, false, .fin, 0, false, 0x38, 0, 0⟩
  let ps := (cs.zip es).map (fun x =>
    prodSpecial x.1.sp x.2.sp (x.1.w == 0 || ui.s8 == 0) (x.2.val == x.2.zl || e0.s8 == 0) (decide (x.1.w < 0))
      (decide (x.2.val < x.2.zl)))
  let sp := combineSpecial (ps.map (·.1))
  let pSum := ((cs.zip es).map (fun x => x.1.w * x.2.val)).sum - e0.zl * ui.wsum
  let rSum : Int := ((cs.zip es).map (fun x => (x.1.res * res7 x.2.val : Int))).sum -
    (res7 e0.zl : Int) * ((cs.map (fun x => x.res)).sum : Nat)
  (⟨sp.1, pSum, res7 rSum, s8Mu ui.s8 * s8Mu e0.s8, ui.lam + e0.lam + s8Eps ui.s8 + s8Eps e0.s8⟩,
    sp.2 || ps.any (·.2))

/-- The terms of one column for a row, and whether they set INV. -/
def columnTerms (blen : Nat) (row : List FeederEntry) (col : ColBlock) : List Term × Bool :=
  let us := if blen = 16 then 16 else 32
  let r := (List.range col.units.length).map (fun u => unitTerm us u col row)
  (r.map (·.1), r.any (·.2))

/-- Cycles of a row pass (R69). -/
def rowCycles (k : Nat) (two : Bool) : Nat := max k 2 * (if two then 2 else 1)

/-- The MPASS whose row is next to issue: the first in its queue with rows left, in front of every unsatisfied
acquisition. -/
def nextPass : List Queued → Option (Nat × MPass)
  | [] => none
  | q :: t =>
    match q.e with
    | .mpass m => if m.issued < m.rows then some (q.ord, m) else nextPass t
    | .acq _ _ _ => none
    | _ => nextPass t

/-- A queue with the MPASS of a place in decode order changed. -/
def mapPass (ord : Nat) (f : MPass → MPass) (l : List Queued) : List Queued :=
  l.map (fun q => match q.e with
    | .mpass m => if q.ord = ord then { q with e := .mpass (f m) } else q
    | _ => q)

/-- Whether a DRAIN decoded before place `ord` still holds grid row r (R125). -/
def drainHolds (l : List Queued) (ord r : Nat) : Bool :=
  l.any (fun q => match q.e with
    | .drain d => decide (q.ord < ord) && decide (d.grow + d.done ≤ r ∧ r < d.grow + d.rows)
    | _ => false)

/-- Grid row r of a core. -/
def Core.gridRow (c : Core) (r : Nat) : GridRow := sget c.grid (fun _ => GridRow.zero) r

/-- A core with grid row r replaced. -/
def Core.setGridRow (c : Core) (r : Nat) (v : GridRow) : Core :=
  { c with grid := sput c.grid (fun _ => GridRow.zero) r v }

/-- Feeder i's queue. -/
def Core.feeder (c : Core) (i : Nat) : List FeederEntry := sget c.feeders (fun _ => []) i

/-- A core with feeder i's queue replaced. -/
def Core.setFeeder (c : Core) (i : Nat) (l : List FeederEntry) : Core :=
  { c with feeders := sput c.feeders (fun _ => []) i l }

/-- The terms of all 64 columns for a row of a block: those of its columns, and in each column outside it the products
of the row with cells of 0, where a NaN or an infinity still shows (R52, R66). -/
def rowTerms (b : Block) (row : List FeederEntry) : List (List Term × Bool) :=
  b.cols.map (columnTerms b.blen row) ++
    List.replicate (64 - b.cols.length) (columnTerms b.blen row (ColBlock.outside b.rows b.blen))

/-- A row pass landed in its grid row: opened if it opens, each column's terms added (R93, R105 to R110); the row, the
flags, and the first column and check point where residues differ (R126, R127). -/
def landRow (errs : List BitError) (old : GridRow) (f : InFlight) : GridRow × Flags × Option (Nat × Nat) :=
  let base : GridRow := if f.opens then ⟨List.replicate 64 ⟨.fin, 0⟩, f.g, List.replicate 64 0⟩ else old
  let r := (List.range 64).map (fun j =>
    landColumn errs j (base.g.getD j 0) (base.accs.getD j ⟨.fin, 0⟩) (nth base.res j) (f.cols.getD j []))
  (⟨r.map (·.acc), base.g, r.map (·.res)⟩, Flags.joinAll (r.map (·.fl)),
    (r.zipIdx.flatMap (fun e => e.1.bad.map (fun b => (e.2, b)))).head?)

end Sys2Proof.Machine
end

