-- ==== Sys2Proof/Machine/Frames.lean ====
section
/-! DEFINITION. The frames of a frame stream: their digests and the frozen-frame detector (R381 to R383). -/

namespace Sys2Proof.Machine

/-- The detector's view of a frame stream's job (R381): none outside a job marked as one. -/
def State.frameStream (s : State) (h : Nat) : FrameStream :=
  (s.radio.frames.find? (fun x => x.job == h)).getD ⟨h, [], none, 0, false⟩

/-- The state with a frame stream's record replaced. -/
def State.setFrames (s : State) (x : FrameStream) : State :=
  { s with radio := { s.radio with frames := s.radio.frames.filter (fun y => y.job != x.job) ++ [x] } }

/-- A digest slot of core p stored by a job marked as a frame stream: a part of the frame of that step (R282, R381; log 131). A
follower's digests are its leader's (R519). -/
def State.storeFrame (s : State) (p v : Nat) (nz : Bool) : State :=
  match (s.coreAt p).job.bind s.jobOf with
  | none => s
  | some j =>
    if bit j.desc 124 ∧ ¬ s.safety.pairs.any (fun q => q.follower == p) then
      let x := s.frameStream j.handle
      s.setFrames { x with parts := x.parts ++ [((s.coreAt p).step, v, nz)] }
    else s

/-- A frame's digest compared with those of the stream's previous frames (R381 to R383); one whose elements are all 0 is empty. -/
def State.compareFrame (s : State) (h d : Nat) (nz : Bool) : State :=
  let x := s.frameStream h
  let part := (s.jobOf h).map (·.part)
  if ¬ nz then s
  else if x.prev = some d then
    let s1 := s.setFrames { x with run := x.run + 1, frozen := x.frozen || decide (x.run + 1 = s.od 0x5020 1) }
    if x.run + 1 = s.od 0x5020 1 ∧ ¬ x.frozen then
      (s1.setOd 0x5020 2 ((s1.od 0x5020 2 + 1) % 2 ^ 32)).warn 0x0114 part 4 (part.getD 0) h
    else s1
  else
    let s1 := s.setFrames { x with prev := some d, run := 1, frozen := false }
    if x.frozen then s1.info 0x0115 part 4 (part.getD 0) h else s1

/-- The step of the oldest frame whose parts are not yet summed. -/
def FrameStream.oldest (x : FrameStream) : Option Nat :=
  match x.parts with
  | [] => none
  | e :: t => some (t.foldl (fun m y => min m y.1) e.1)

/-- The frames of job h of steps below `bound`, at most n, summed and compared in the order of their steps. -/
def State.closeFrames (s : State) (h bound : Nat) : Nat → State
  | 0 => s
  | n + 1 =>
    let x := s.frameStream h
    match x.oldest with
    | none => s
    | some k =>
      if bound ≤ k then s
      else
        let mine := x.parts.filter (fun e => e.1 == k)
        let s1 := s.setFrames { x with parts := x.parts.filter (fun e => e.1 != k) }
        (s1.compareFrame h ((mine.map (fun e => e.2.1)).sum % 2 ^ 64) (mine.any (fun e => e.2.2))).closeFrames h bound n

/-- The frames that every core of the job of core p has left behind, compared. -/
def State.frameStep (s : State) (p : Nat) : State :=
  match (s.coreAt p).job with
  | none => s
  | some h =>
    let steps := ((List.range 72).filter (fun q => (s.coreAt q).job == some h)).map (fun q => (s.coreAt q).step)
    s.closeFrames h (steps.foldl min (s.coreAt p).step) (s.frameStream h).parts.length

/-- A job that ends: its last frames compared, its stream's record gone. -/
def State.endFrames (s : State) (h : Nat) : State :=
  let x := s.frameStream h
  let s1 := s.closeFrames h (x.parts.foldl (fun m e => max m (e.1 + 1)) 0) x.parts.length
  { s1 with radio := { s1.radio with frames := s1.radio.frames.filter (fun y => y.job != h) } }

end Sys2Proof.Machine
end

