-- ==== Sys2Proof/Machine/Transcend.lean ====
section
/-! DEFINITION. The transcendental functions of the vector engine (R155 to R159). -/

namespace Sys2Proof.Machine

/-- T[i] of R156, i from 0 to 63. -/
def tabT : List Int :=
  [1073741824, 1085434106, 1097253708, 1109202018, 1121280436, 1133490379, 1145833280, 1158310587, 1170923762,
   1183674286, 1196563654, 1209593378, 1222764986, 1236080024, 1249540052, 1263146652, 1276901417, 1290805962,
   1304861917, 1319070932, 1333434672, 1347954824, 1362633090, 1377471191, 1392470869, 1407633882, 1422962010,
   1438457051, 1454120821, 1469955159, 1485961921, 1502142985, 1518500250, 1535035634, 1551751076, 1568648537,
   1585730000, 1602997467, 1620452965, 1638098541, 1655936265, 1673968228, 1692196547, 1710623359, 1729250827,
   1748081133, 1767116489, 1786359126, 1805811301, 1825475297, 1845353420, 1865448001, 1885761398, 1906295993,
   1927054196, 1948038440, 1969251188, 1990694927, 2012372174, 2034285470, 2056437387, 2078830522, 2101467502,
   2124350982]

/-- L[i] of R156, i from 0 to 63. -/
def tabL : List Int :=
  [0, 24017256, 47667823, 70962728, 93912511, 116527249, 138816582, 160789745, 182455581, 203822568, 224898838,
   245692198, 266210141, 286459867, 306448298, 326182095, 345667660, 364911161, 383918542, 402695523, 421247625,
   439580171, 457698295, 475606957, 493310944, 510814882, 528123240, 545240343, 562170370, 578917365, 595485245,
   611877800, 628098702, 644151509, 660039670, 675766524, 691335320, 706749198, 722011214, 737124328, 752091421,
   766915285, 781598637, 796144115, 810554284, 824831638, 838978603, 852997541, 866890746, 880660456, 894308842,
   907838030, 921250079, 934547002, 947730758, 960803258, 973766363, 986621888, 999371608, 1012017244, 1024560485,
   1037002979, 1049346326, 1061592099]

/-- R[i] of R156. -/
def tabR (i : Nat) : Nat := (2 ^ 37 + (64 + i)) / (2 * (64 + i))

/-- RS[par][i] of R156: the nearest integer to a square root. -/
def tabRS (par i : Nat) : Nat := (Nat.sqrt (4 * tabR i * 2 ^ (30 - par)) + 1) / 2

/-- C1 to C3 and D1 to D4 of R156. -/
def cC1 : Int := 744261118
def cC2 : Int := 257941248
def cC3 : Int := 59597083
def cD1 : Int := 1549082005
def cD2 : Int := 774541002
def cD3 : Int := 516360668
def cD4 : Int := 387270501

/-- rnd(v, k) of R155. -/
def rnd (v : Int) (k : Nat) : Int := (2 * v + 2 ^ k) / 2 ^ (k + 1)

/-- A function's exact value v before its last rounding, INV, and whether R159 counts it as exact. -/
structure TRes where
  v : Val
  inv : Bool
  exact : Bool
deriving DecidableEq, Repr

/-- A value too large for any format, and one too small: stored, they saturate and underflow (R158). -/
def hugeVal (neg : Bool) : Val := scaled (if neg then -1 else 1) 1 400
def tinyVal : Val := scaled 1 1 (-400)

/-- M and e of R157: |x| = M x 2^(e - 23). -/
def mantExp (n d : Nat) : Int × Int :=
  let e := binade n d
  let p := pow2 (e - 23)
  (((n : Int) * p.2) / ((d : Int) * p.1), e)

/-- i and u of R157. -/
def mantIU (M : Int) : Nat × Int :=
  let i := (M / 2 ^ 17 - 64).toNat
  (i, rnd (M * tabR i) 23 - (2 ^ 30 : Int))

/-- EXP2 (R157, R158; R275 for level 1). -/
def fExp2 (alevel : Nat) (x : Val) : TRes :=
  match x with
  | .nan s => ⟨.nan false, s, false⟩
  | .inf neg => ⟨if neg then .num 0 1 false else .inf false, false, true⟩
  | .num n d _ =>
    if n = 0 then ⟨ofInt 1, false, true⟩
    else if 128 * (d : Int) ≤ n then ⟨hugeVal false, false, false⟩
    else if n < -160 * (d : Int) then ⟨tinyVal, false, false⟩
    else
      let X := roundDiv (n * 2 ^ 24) d
      let q := X / 2 ^ 24
      let f := X - q * 2 ^ 24
      let i : Nat := Int.toNat (f / 2 ^ 18)
      let r := f - (i : Int) * 2 ^ 18
      let p := if alevel = 1 then rnd (r * cC1) 24 + rnd (r ^ 2 * cC2) 48
        else rnd (r * cC1) 24 + rnd (r ^ 2 * cC2) 48 + rnd (r ^ 3 * cC3) 72
      let t := tabT.getD i 0
      ⟨scaled (t + rnd (t * p) 30) 1 (q - 30), false, n % d == 0⟩

/-- LOG2 (R157, R158). -/
def fLog2 (alevel : Nat) (x : Val) : TRes :=
  match x with
  | .nan s => ⟨.nan false, s, false⟩
  | .inf neg => if neg then ⟨.nan false, true, false⟩ else ⟨.inf false, false, true⟩
  | .num n d _ =>
    if n = 0 then ⟨hugeVal true, false, false⟩
    else if n < 0 then ⟨.nan false, true, false⟩
    else
      let me := mantExp n.toNat d
      let iu := mantIU me.1
      let u := iu.2
      let q3 := rnd (u * cD1) 30 - rnd (u ^ 2 * cD2) 60 + rnd (u ^ 3 * cD3) 90
      let q := if alevel = 1 then q3 else q3 - rnd (u ^ 4 * cD4) 120
      ⟨scaled (me.2 * 2 ^ 30 + tabL.getD iu.1 0 + q) 1 (-30), false, me.1 == 2 ^ 23⟩

/-- RCP (R157, R158). -/
def fRcp (alevel : Nat) (x : Val) : TRes :=
  match x with
  | .nan s => ⟨.nan false, s, false⟩
  | .inf neg => ⟨.num 0 1 neg, false, true⟩
  | .num n d z =>
    if n = 0 then ⟨hugeVal z, false, false⟩
    else
      let me := mantExp n.natAbs d
      let iu := mantIU me.1
      let u := iu.2
      let s4 := 2 ^ 30 - u + rnd (u ^ 2) 30 - rnd (u ^ 3) 60
      let s := if alevel = 1 then s4 else s4 + rnd (u ^ 4) 90
      let m := rnd (tabR iu.1 * s) 30
      ⟨scaled (if n < 0 then -m else m) 1 (-30 - me.2), false, me.1 == 2 ^ 23⟩

/-- RSQRT (R157, R158). -/
def fRsqrt (alevel : Nat) (x : Val) : TRes :=
  match x with
  | .nan s => ⟨.nan false, s, false⟩
  | .inf neg => if neg then ⟨.nan false, true, false⟩ else ⟨.num 0 1 false, false, true⟩
  | .num n d z =>
    if n = 0 then ⟨hugeVal z, false, false⟩
    else if n < 0 then ⟨.nan false, true, false⟩
    else
      let me := mantExp n.toNat d
      let iu := mantIU me.1
      let u := iu.2
      let h := me.2 / 2
      let par := (me.2 - 2 * h).toNat
      let s4 := 2 ^ 30 - rnd u 1 + rnd (3 * u ^ 2) 33 - rnd (5 * u ^ 3) 64
      let s := if alevel = 1 then s4 else s4 + rnd (35 * u ^ 4) 97
      ⟨scaled (rnd (tabRS par iu.1 * s) 30) 1 (-30 - h), false, me.1 == 2 ^ 23 && par == 0⟩

/-- A value rounded into FP32 (R155). -/
def fp32 (v : Val) : Val := decodeFmt 0xB (storeFmt 0xB v).code

/-- The constants of R156. -/
def kLog2e : Val := decodeFmt 0xB 0x3FB8AA3B
def k2Log2e : Val := decodeFmt 0xB 0x4038AA3B
def kA : Val := decodeFmt 0xB 0x3D372713
def kG : Val := decodeFmt 0xB 0x3FCC422A

/-- |x|. -/
def Val.abs : Val → Val
  | .num n d _ => .num n.natAbs d false
  | .inf _ => .inf false
  | .nan s => .nan s

/-- The sign of a value that is not a NaN. -/
def Val.isNeg : Val → Bool
  | .num n _ z => numNeg n z
  | .inf neg => neg
  | .nan _ => false

/-- a x b and a + b, rounded into FP32. -/
def mul32 (a b : Val) : Val := fp32 (valMul a b).1
def add32 (a b : Val) : Val := fp32 (valAdd a b).1

/-- SIGMOID (R157, R158). -/
def fSigmoid (alevel : Nat) (x : Val) : TRes :=
  match x with
  | .nan s => ⟨.nan false, s, false⟩
  | .inf neg => ⟨ofInt (if neg then 0 else 1), false, true⟩
  | .num n d _ =>
    if n = 0 then ⟨.num 1 2 false, false, true⟩
    else if n < -16 * (d : Int) then { fExp2 alevel (mul32 x kLog2e) with exact := false }
    else { fRcp alevel (add32 (ofInt 1) (fp32 (fExp2 alevel (mul32 x.neg kLog2e)).v)) with exact := false }

/-- TANH (R157, R158). -/
def fTanh (alevel : Nat) (x : Val) : TRes :=
  match x with
  | .nan s => ⟨.nan false, s, false⟩
  | .inf neg => ⟨ofInt (if neg then -1 else 1), false, true⟩
  | .num n d z =>
    if n = 0 then ⟨.num 0 1 z, false, true⟩
    else if (n.natAbs : Int) * 2 ^ 12 < d then ⟨x, false, false⟩
    else if 10 * (d : Int) ≤ n.natAbs then ⟨ofInt (if n < 0 then -1 else 1), false, false⟩
    else
      let q := fp32 (fRcp alevel (add32 (ofInt 1) (fp32 (fExp2 alevel (mul32 x.abs k2Log2e)).v))).v
      let r := (valAdd (ofInt 1) (q.times (-2) 1)).1
      ⟨if n < 0 then r.neg else r, false, false⟩

/-- GELU (R157, R158). -/
def fGelu (alevel : Nat) (x : Val) : TRes :=
  match x with
  | .nan s => ⟨.nan false, s, false⟩
  | .inf neg => ⟨if neg then .num 0 1 true else .inf false, false, true⟩
  | .num n d z =>
    if n = 0 then ⟨.num 0 1 z, false, true⟩
    else if 16 * (d : Int) ≤ n then ⟨x, false, false⟩
    else if n < -(2 ^ 20) * (d : Int) then ⟨.num 0 1 true, false, false⟩
    else
      let w := mul32 (mul32 x x) x
      let v := fp32 (valFma kA w x).1
      ⟨(valMul x (fp32 (fSigmoid alevel (mul32 kG v)).v)).1, false, false⟩

/-- SMEXP (R157 to R159). -/
def fSmexp (alevel : Nat) (a b : Val) : TRes :=
  let s := valAdd a b.neg
  match s.1 with
  | .nan _ => ⟨.nan false, s.2, false⟩
  | .inf neg => fExp2 alevel (.inf neg)
  | v =>
    match fp32 v with
    | .num 0 _ _ => ⟨ofInt 1, false, true⟩
    | y => { fExp2 alevel (mul32 y kLog2e) with exact := false, inv := s.2 }

/-- A function's result stored in D, with the flags of R159. -/
def storeFun (fmt : Nat) (r : TRes) : Stored :=
  let st := storeFmt fmt r.v
  match r.v with
  | .nan _ => ⟨st.code, Flags.ofInv r.inv⟩
  | _ => ⟨st.code, ⟨r.inv, st.fl.sat, st.fl.unf, !(r.exact && !st.fl.inx)⟩⟩

/-- TANH stored in D (R157): below 2^-12 x itself is rounded into D; from there on the function of |x| is rounded and the
sign of x applied after, without further rounding. -/
def storeTanh (fmt alevel : Nat) (x : Val) : Stored :=
  match x with
  | .num n d _ =>
    if (n.natAbs : Int) * 2 ^ 12 < d then storeFun fmt (fTanh alevel x)
    else
      let st := storeFun fmt (fTanh alevel x.abs)
      ⟨if n < 0 then st.code + 2 ^ (fmtBits fmt - 1) else st.code, st.fl⟩
  | _ => storeFun fmt (fTanh alevel x)

end Sys2Proof.Machine
end

