-- ==== Sys2Proof/Machine/Vector.lean ====
section
/-! DEFINITION. The vector engine: what a VOP names, its faults, its results (05_vector_engine.md, R213 to R216, R253
to R255). -/

namespace Sys2Proof.Machine

/-! ### Sub-opcodes (R143) and operands (R253) -/

/-- Elementwise arithmetic with two sources, comparisons included. -/
def subTwo (n : Nat) : Bool := decide (n ≤ 2) || n == 4 || n == 5 || decide (8 ≤ n ∧ n ≤ 10)
def subCmp (n : Nat) : Bool := decide (0x10 ≤ n ∧ n ≤ 0x15)
def subLogic (n : Nat) : Bool := decide (8 ≤ n ∧ n ≤ 0xB)
def subFun (n : Nat) : Bool := decide (0x30 ≤ n ∧ n ≤ 0x37)
def subRank (n : Nat) : Bool := decide (0x43 ≤ n ∧ n ≤ 0x46)
def subConv (n : Nat) : Bool := decide (0x20 ≤ n ∧ n ≤ 0x23)

/-- Whether a sub-opcode is listed (R143). -/
def subKnown (n : Nat) : Bool :=
  decide (n ≤ 0xB) || decide (0x10 ≤ n ∧ n ≤ 0x16) || subConv n || subFun n || decide (0x40 ≤ n ∧ n ≤ 0x46) ||
    n == 0x50 || n == 0x51 || n == 0x60 || n == 0x61

/-- Which of A, B, C, D, X, S and Y a sub-opcode uses (R253): 0 must be absent, 1 required, 2 optional. -/
structure Uses where
  a : Nat
  b : Nat
  c : Nat
  d : Nat
  x : Nat
  s : Nat
  y : Nat
deriving DecidableEq, Repr

/-- The table "VOP operands". -/
def usesOf (sub smode : Nat) : Uses :=
  if subTwo sub || subCmp sub || sub == 0x37 || sub == 0x23 then ⟨1, 1, 0, 1, 0, 0, 0⟩
  else if sub = 3 ∨ sub = 0x16 then ⟨1, 1, 1, 1, 0, 0, 0⟩
  else if sub = 0x22 then ⟨1, 1, 0, 1, 0, 0, 0⟩
  else if sub = 0x50 ∨ sub = 0x51 then ⟨0, 0, 0, 1, 0, 0, 0⟩
  else if sub = 0x46 then ⟨1, 0, 0, 1, 1, 1, 0⟩
  else if subRank sub || sub == 0x60 then ⟨1, 0, 0, 1, 1, 0, 0⟩
  else if sub = 0x61 then (if smode = 0 then ⟨1, 0, 0, 1, 1, 2, 2⟩ else ⟨1, 0, 0, 1, 1, 0, 0⟩)
  else ⟨1, 0, 0, 1, 0, 0, 0⟩

/-- IMM bits that a sub-opcode uses (R255). -/
def immBits (sub : Nat) (gwD : Bool) : Nat :=
  if sub = 0xB then 0xF
  else if sub = 0x45 ∨ sub = 0x46 then 0x7F
  else if sub = 0x50 ∨ sub = 0x51 then 0xFFFFFFFF
  else if sub = 0x40 ∨ gwD then 0xFFF
  else 0

/-- Operation formats of a sub-opcode whose results are in OPF (R143). -/
def opfOk (sub opf : Nat) : Bool :=
  if subLogic sub then decide (opf ≤ 2)
  else if subFun sub || sub == 0x51 then opf == 9 || opf == 0xB
  else if sub = 0x50 then opf == 0xB
  else if sub = 0x40 then opf == 0
  else opf == 9 || opf == 0xB || decide (opf ≤ 2)

/-- Whether a format widens exactly into an operation format (R45, R135). -/
def widens (src opf : Nat) : Bool :=
  match opf with
  | 0 => src == 0
  | 1 => decide (src ≤ 1)
  | 2 => decide (src ≤ 2)
  | 9 => src == 0 || src == 1 || decide (4 ≤ src ∧ src ≤ 9)
  | 0xB => src != 3 && decide (src ≤ 0xB)
  | _ => false

/-- The descriptors of a VOP. -/
structure VopTensors where
  a : Option Desc
  b : Option Desc
  c : Option Desc
  d : Option Desc
deriving DecidableEq, Repr

/-- The descriptors that a decoded VOP carries. -/
def VopCmd.tensors (v : VopCmd) : VopTensors :=
  ⟨v.a.map parseDesc, v.b.map parseDesc, v.c.map parseDesc, v.d.map parseDesc⟩

/-- A mask tensor by its format fields (R254). -/
def maskFmtBad (t : Desc) : Bool := t.fmt != 1 || t.gw || t.qmode != 0
def maskShapeBad (t : Desc) (vl : Nat) : Bool :=
  t.rank != 1 || t.layout != 0 || (t.dim 0).stride != 1 || decide ((t.dim 0).size < (vl + 7) / 8)

/-- A source in OPF arithmetic whose format breaks R135. -/
def srcBad (opf : Nat) (o : Option Desc) : Bool :=
  match o with
  | some t => t.gw || t.qmode != 0 || !widens t.fmt opf
  | none => false

/-- A test of a descriptor that the VOP names; an absent one breaks no format rule. -/
def onDesc (o : Option Desc) (f : Desc → Bool) : Bool :=
  match o with
  | some t => f t
  | none => false

/-- VOP_FORMAT (R135, R143, R146 to R148, R160, R214, R215, R254, R255). An absent operand breaks no format rule: it is
VOP_SHAPE's (R253). DESIGN CHOICE (log 146): R143 gives CVTQ a block-scaled D and names no fault for another, which
is VOP_FORMAT here; R148 does not say what QMODE a CI16 operand of CSPLIT and CJOIN may have, and every one is taken. -/
def vopFormatBad (v : VopCmd) : Bool :=
  let t := v.tensors
  let ci := fun (x : Desc) => x.fmt == 3
  let scaled := fun (x : Desc) => x.qmode != 0
  let held := [t.a, t.b, t.c, t.d].any (fun o => onDesc o (fun x => decide (0xC ≤ x.fmt)))
  let dOpf := onDesc t.d (fun d => if d.gw then v.opf != 0 else v.opf != d.fmt)
  let unlike := onDesc t.a (fun a => onDesc t.d (fun d => a.fmt != d.fmt || a.gw != d.gw))
  held ||
    (if v.sub = 0x20 then dOpf || onDesc t.a ci || onDesc t.d ci
     else if v.sub = 0x21 then dOpf || onDesc t.a ci || onDesc t.d (fun d => ci d || d.gw || d.qmode == 0)
     else if v.sub = 0x22 then
       dOpf || onDesc t.a (fun a => !ci a || a.gw) || onDesc t.d (fun d => ci d || d.gw) ||
         onDesc t.b (fun b => ci b || b.gw)
     else if v.sub = 0x23 then
       dOpf || onDesc t.d (fun d => !ci d || d.gw) || onDesc t.a (fun a => ci a || a.gw) ||
         onDesc t.b (fun b => ci b || b.gw)
     else if v.sub = 0x60 then
       dOpf || unlike || onDesc t.a (fun a => ci a || scaled a) || onDesc t.d (fun d => ci d || scaled d)
     else if v.sub = 0x61 then
       dOpf || onDesc t.a (fun a => ci a || scaled a) || onDesc t.d (fun d => ci d || scaled d) ||
         (if v.smode = 0 then unlike
          else if v.smode = 1 then onDesc t.d (fun d => !d.gw)
          else unlike || onDesc t.a (·.gw) || onDesc t.d (·.gw))
     else if v.sub = 0x40 then
       v.opf != 0 || onDesc t.d (fun d => !d.gw) || onDesc t.a (fun a => ci a || scaled a)
     else
       !opfOk v.sub v.opf || srcBad v.opf t.a || srcBad v.opf t.b ||
         (if v.sub = 0x16 then onDesc t.c maskFmtBad else srcBad v.opf t.c) ||
         onDesc t.d (fun d => if subCmp v.sub then maskFmtBad d else d.gw || scaled d || d.fmt != v.opf))

/-- Whether a source is too small for VL (R134). -/
def srcSmall (vl : Nat) (o : Option Desc) : Bool :=
  match o with
  | some t => t.count != 1 && decide (t.count < vl)
  | none => false

/-- Elements that D holds (R134): as many as VL for an elementwise sub-opcode, exactly those written for others. -/
def destBad (v : VopCmd) (d : Desc) : Bool :=
  if subCmp v.sub then maskShapeBad d v.vl
  else if decide (0x40 ≤ v.sub ∧ v.sub ≤ 0x44) then d.count != 1
  else if v.sub = 0x45 ∨ v.sub = 0x46 then d.count != v.imm
  else if v.sub = 0x61 then false
  else decide (d.count < v.vl)

/-- A block-scaled operand of a conversion whose blocks the first VL elements do not hold whole (R146). -/
def blocksBad (vl : Nat) (o : Option Desc) : Bool :=
  match o with
  | some t => t.qmode != 0 && vl % (t.blen * prod ((t.dims.take t.bdim).map (·.size))) != 0
  | none => false

/-- An operand that the table "VOP operands" asks for and the VOP does not name: VOP_SHAPE (R253). -/
def vopAbsent (v : VopCmd) : Bool :=
  let u := usesOf v.sub v.smode
  (u.a == 1 && v.a.isNone) || (u.b == 1 && v.b.isNone) || (u.c == 1 && v.c.isNone) || (u.d == 1 && v.d.isNone) ||
    (u.x == 1 && v.x.isNone) || (u.s == 1 && v.s.isNone)

/-- A named tensor of the wrong size or shape, or k out of range: VOP_SHAPE (R134, R146, R152, R160, R254). R134 sizes
every source, GATHER's A with them. -/
def vopSizeBad (v : VopCmd) : Bool :=
  let t := v.tensors
  srcSmall v.vl t.a ||
    (if v.sub = 0x22 then onDesc t.b (fun b => decide (b.count < v.vl)) else srcSmall v.vl t.b) ||
    (if v.sub = 0x16 then onDesc t.c (fun c => maskShapeBad c v.vl) else srcSmall v.vl t.c) ||
    onDesc t.d (destBad v) ||
    (subConv v.sub && (blocksBad v.vl t.a || blocksBad v.vl t.b || blocksBad v.vl t.d)) ||
    ((v.sub == 0x45 || v.sub == 0x46) && (v.imm == 0 || decide (64 < v.imm) || decide (v.vl < v.imm)))

/-- VOP_SHAPE (R134, R146, R152, R160, R253, R254). -/
def vopShapeBad (v : VopCmd) : Bool := vopAbsent v || vopSizeBad v

/-- Whether two extents share a byte. -/
def overlaps (e f : Extent) : Bool := decide (e.1 ≤ f.2) && decide (f.1 ≤ e.2)

/-- The extent of an array of n bytes at offset `off` of core p's scratchpad. -/
def arrayExtent (p off n : Nat) : Extent := ((spBase p + off : Nat), (spBase p + off + n : Int) - 1)

/-- Entries of the index array that a VOP reads or writes. -/
def xCount (v : VopCmd) : Nat :=
  if v.sub = 0x43 ∨ v.sub = 0x44 then 1 else if v.sub = 0x45 ∨ v.sub = 0x46 then v.imm else v.vl

/-- Whether a sub-opcode is elementwise for R137. -/
def subElementwise (n : Nat) : Bool := decide (n ≤ 0x16) || subConv n || subFun n

/-- Two descriptors identical in base, sizes, strides and format (R137). DESIGN CHOICE (log 145): equal LAYOUT too, since a
stride of R204's tiled layout steps over tiles. -/
def sameTensor (t u : Desc) : Bool :=
  t.base == u.base && t.fmt == u.fmt && t.gw == u.gw && t.layout == u.layout &&
    t.dims.map (fun d => (d.size, d.stride)) == u.dims.map (fun d => (d.size, d.stride))

/-- VOP_OVERLAP (R137): D, CSPLIT's B with it, or X, input or output, over a source's bytes. -/
def vopOverlapBad (p : Nat) (v : VopCmd) : Bool :=
  let t := v.tensors
  let srcs := [t.a, if v.sub = 0x22 then none else t.b, t.c].filterMap id
  let dests := [t.d, if v.sub = 0x22 then t.b else none].filterMap id
  let xIn := v.sub == 0x60 || v.sub == 0x61
  let xe := v.x.map (fun x => arrayExtent p x (8 * xCount v))
  let se := v.s.map (fun x => arrayExtent p x (8 * v.vl))
  let arrIn := (if xIn then [xe] else []) ++ [se]
  dests.any (fun d =>
    srcs.any (fun a => overlaps d.extent a.extent && !(subElementwise v.sub && sameTensor d a)) ||
    (arrIn.filterMap id).any (fun e => overlaps d.extent e)) ||
  (match xe with
   | some e => srcs.any (fun a => overlaps e a.extent) || se.toList.any (fun f => overlaps e f)
   | none => false)

/-- VOP_BANK: a place outside the core's own scratchpad (R160, R212). -/
def vopBankBad (p : Nat) (v : VopCmd) : Bool :=
  let t := v.tensors
  ([t.a, t.b, t.c, t.d].filterMap id).any (fun d => d.outOfReach p) ||
    (v.m.toList.any (fun m => decide (0x400000 < m + (v.vl + 7) / 8))) ||
    (v.x.toList.any (fun x => decide (0x400000 < x + 8 * xCount v))) ||
    (v.s.toList.any (fun x => decide (0x400000 < x + 8 * v.vl))) ||
    (v.y.toList.any (fun y => decide (0x400000 < y + 8 * (match t.d with | some d => d.count | none => 0))))

/-- Whether R134 or R152 gives a VOP's tensor an exact number of elements that no whole block has, which R210's block
then does not bind: an unscaled source of one element, and the D of a reduction or a selection, neither of them a piece of a
larger tensor (DEDUCED, log 109). -/
def sizedByElements (sub : Nat) (isD : Bool) (t : Desc) : Bool :=
  t.qmode == 0 && t.dims.all (fun d => d.gorigin == 0 && d.gsize == d.size) && (if isD then decide (0x41 ≤ sub ∧ sub ≤ 0x46) else t.count == 1)

/-- The faults of a VOP's descriptors: those of R212, D's and CSPLIT's B as destinations. -/
def vopDescCauses (p alevel : Nat) (v : VopCmd) : List (Bool × Nat) :=
  let t := v.tensors
  let f := fun (o : Option Desc) (dest isD : Bool) => match o with
    | some d => (d.causes p alevel dest).filter (fun e => !(e.2 == 0x53 && sizedByElements v.sub isD d))
    | none => []
  f t.a false false ++ f t.b (v.sub == 0x22) false ++ f t.c false false ++ f t.d true true

/-- Every fault of a VOP at decode but CMD_FIELD and CMD_RANGE (R160). -/
def vopCauses (p alevel : Nat) (v : VopCmd) : List (Bool × Nat) :=
  let dc := vopDescCauses p alevel v
  let defined := !dc.any (fun e => e.1 && (e.2 == 0x50 || e.2 == 0x51))
  [(!subKnown v.sub, 0x30), (vopFormatBad v, 0x31), (vopShapeBad v, 0x32),
   (defined && vopOverlapBad p v, 0x33), (defined && vopBankBad p v, 0x34)] ++ dc

/-! ### Reading operands -/

/-- Element i of a source, one element broadcast (R134): its index. -/
def srcIndex (t : Desc) (i : Nat) : List Nat := t.index (if t.count = 1 then 0 else i)

/-- The value of element i of a source (R31; R147 for grid words: SAT stands beyond every finite value), and INV. -/
def srcVal (m : SMap Byte) (t : Desc) (i : Nat) : Val × Bool :=
  let idx := srcIndex t i
  if t.gw then
    let r := readGridWord (t.read m idx)
    (match r.1.st with
     | .fin => scaled r.1.acc 1 (r.2.1 - 40)
     | .sat => hugeVal (decide (r.1.acc < 0))
     | .pinf => .inf false
     | .ninf => .inf true
     | .nan => .nan false, r.2.2)
  else t.value m idx

/-- A source of a VOP, whatever descriptor stands there where it has none. -/
def orDesc (o : Option Desc) : Desc := o.getD (parseDesc 0)

/-- Whether element i is active (R138). -/
def VopCmd.active (v : VopCmd) (p : Nat) (m : SMap Byte) (i : Nat) : Bool :=
  match v.m with
  | none => true
  | some o => bit (readMem m (spBase p + o + i / 8) 1) (i % 8)

/-- Bit i of a mask tensor (R254). -/
def maskBit (m : SMap Byte) (t : Desc) (i : Nat) : Bool := bit (t.read m [i / 8]) (i % 8)

/-- The 64-bit value i of an array of core p. -/
def arr64 (m : SMap Byte) (p off i : Nat) : Nat := readMem m (spBase p + off + 8 * i) 8

/-- The null index (R213). -/
def nullIndex : Nat := 2 ^ 64 - 1

/-! ### Elementwise results -/

/-- A value stored in OPF with its flags and INV. -/
def storeInv (fmt : Nat) (r : ValI) : Stored :=
  let st := storeFmt fmt r.1
  ⟨st.code, Flags.join st.fl (Flags.ofInv r.2)⟩

/-- The result of a comparison (R145). -/
def cmpRes (sub : Nat) (a b : Val) : Bool × Bool :=
  let inv := a.sigInv || b.sigInv
  if a.isNan || b.isNan then (sub == 0x11, inv)
  else
    (match sub with
     | 0x10 => valEq a b
     | 0x11 => !valEq a b
     | 0x12 => valLt a b
     | 0x13 => valLt a b || valEq a b
     | 0x14 => valLt b a
     | _ => valLt b a || valEq a b, inv)

/-- The result of the elementwise arithmetic and function sub-opcodes in OPF (R143, R144, R157). -/
def arithRes (sub opf alevel imm : Nat) (a b c : Val) : Stored :=
  let w := fmtBits opf
  let ia := match a with | .num n _ _ => enc w n | _ => 0
  let ib := match b with | .num n _ _ => enc w n | _ => 0
  match sub with
  | 0x00 => storeInv opf (valAdd a b)
  | 0x01 => storeInv opf (let r := valAdd a b.neg; r)
  | 0x02 => storeInv opf (valMul a b)
  | 0x03 => storeInv opf (valFma a b c)
  | 0x04 => storeInv opf (valMax a b)
  | 0x05 => storeInv opf (valMin a b)
  | 0x06 => storeInv opf (a.abs, a.sigInv)
  | 0x07 => storeInv opf (a.neg, a.sigInv)
  | 0x08 => ⟨Nat.land ia ib, Flags.clear⟩
  | 0x09 => ⟨Nat.lor ia ib, Flags.clear⟩
  | 0x0A => ⟨Nat.xor ia ib, Flags.clear⟩
  | 0x0B => storeFmt opf (match a with | .num n d z => .num n (d * 2 ^ (imm % 16)) z | x => x)
  | 0x30 => storeFun opf (fExp2 alevel a)
  | 0x31 => storeFun opf (fLog2 alevel a)
  | 0x32 => storeFun opf (fRcp alevel a)
  | 0x33 => storeFun opf (fRsqrt alevel a)
  | 0x34 => storeFun opf (fSigmoid alevel a)
  | 0x35 => storeTanh opf alevel a
  | 0x36 => storeFun opf (fGelu alevel a)
  | 0x37 => storeFun opf (fSmexp alevel a b)
  | _ => storeInv opf (a, a.sigInv)

/-! ### What a VOP writes -/

/-- A write of an element or of bytes of core p's own scratchpad. -/
inductive VWrite where
  | elem (t : Desc) (idx : List Nat) (code : Nat)
  | s8 (t : Desc) (blk code : Nat)
  | bytes (off n v : Nat)
  | maskBit (t : Desc) (i : Nat) (b : Bool)
deriving DecidableEq, Repr

/-- What a VOP does: writes in order, flags, additions of different G (R117), and the element index of a VOP_ADDRESS. -/
structure VopOut where
  ws : List VWrite
  fl : Flags
  mismatch : Nat
  addr : Option Nat
deriving DecidableEq, Repr

/-- One write performed by core p. -/
def State.vwrite (s : State) (p : Nat) (w : VWrite) : State :=
  match w with
  | .elem t idx code => s.putElem p t idx code
  | .s8 t blk code => s.putS8 p t blk code
  | .bytes off n v => s.wrOwn p off n v
  | .maskBit t i b =>
    let old := t.read s.mem [i / 8]
    s.putElem p t [i / 8] (setBits old (i % 8) (i % 8) (b2n b))

/-- G of a VOP (R255). -/
def VopCmd.g (v : VopCmd) : Int := sbits v.imm 11 0

/-- The code of the value 0 that MASKMODE ZERO writes (R139). -/
def zeroCode (v : VopCmd) (m : SMap Byte) (d : Desc) (idx : List Nat) : Nat :=
  if d.gw then gridWord ⟨.fin, 0⟩ v.g
  else if d.qmode = 2 then d.zp m (d.block idx)
  else 0

/-- An elementwise VOP: `f i` gives the code and flags of active element i of D. -/
def elementwise (v : VopCmd) (p : Nat) (m : SMap Byte) (d : Desc) (f : Nat → Stored) : VopOut :=
  let r := (List.range v.vl).map (fun i =>
    let idx := d.index i
    if v.active p m i then
      let st := f i
      ([VWrite.elem d idx st.code], st.fl)
    else if v.maskZero then ([VWrite.elem d idx (zeroCode v m d idx)], Flags.clear)
    else ([], Flags.clear))
  ⟨r.flatMap (·.1), Flags.joinAll (r.map (·.2)), 0, none⟩

/-- A source element of CVT for a block-scaled D: a SAT grid word counts as an infinity (R147). -/
def blockSrc (m : SMap Byte) (t : Desc) (i : Nat) : BlockSrc :=
  let w := (readGridWord (t.read m (srcIndex t i))).1
  if t.gw ∧ w.st = .sat then (.inf (decide (w.acc < 0)), true) else ((srcVal m t i).1, false)

/-- Numbered writes put in the order of their numbers. -/
def inOrder (l : List (Nat × VWrite)) : List VWrite :=
  (l.foldr (fun x acc => acc.orderedInsert (fun a b => a.1 ≤ b.1) x) []).map (·.2)

/-- A conversion into a block-scaled D (R47, R48, R146): block by block, over the active elements; the elements of all
blocks are then written in iteration order (R133, R207). `src i` is the source element, `inv i` what reading it sets. -/
def convBlocks (v : VopCmd) (p : Nat) (m : SMap Byte) (d : Desc) (src : Nat → BlockSrc) (inv : Nat → Bool)
    (computed : Bool) : VopOut :=
  let els := (List.range v.vl).map (fun i => (i, d.index i, v.active p m i))
  let blks := (els.map (fun e => d.block e.2.1)).dedup
  let r := blks.map (fun b =>
    let mine := els.filter (fun e => d.block e.2.1 == b)
    let act := mine.filter (fun e => e.2.2)
    let off := mine.filter (fun e => !e.2.2)
    let z := if d.qmode = 2 then d.zp m b else 0
    let o := storeBlock d.fmt (d.qmode == 2) (if computed then none else some (d.s8Raw m b)) z d.tscale
      (act.map (fun e => src e.1))
    let ws := (act.zip o.codes).map (fun x => (x.1.1, VWrite.elem d x.1.2.1 x.2))
    let zs := if v.maskZero then off.map (fun e => (e.1, VWrite.elem d e.2.1 (zeroCode v m d e.2.1))) else []
    let s8 := if act.isEmpty then [] else (match o.s8 with | some c => [VWrite.s8 d b c] | none => [])
    (ws ++ zs, s8, if act.isEmpty then Flags.clear
      else Flags.join o.fl (Flags.ofInv (act.any (fun e => inv e.1)))))
  ⟨inOrder (r.flatMap (·.1)) ++ r.flatMap (·.2.1), Flags.joinAll (r.map (·.2.2)), 0, none⟩

/-- A grid word re-gridded to G (R147). -/
def regrid (a : Acc) (g0 g : Int) : AccRes :=
  match a.st with
  | .fin =>
    let p := pow2 (g0 - g)
    contribute (a.acc * p.1) p.2
  | .sat =>
    let p := pow2 (g0 - g)
    let r := contribute (a.acc * p.1) p.2
    ⟨⟨.sat, r.acc.acc⟩, r.fl⟩
  | _ => ⟨a, Flags.clear⟩

/-- A conversion of a value into a D that is not block-scaled (R45, R118, R147). -/
def convPlain (v : VopCmd) (m : SMap Byte) (a d : Desc) (i : Nat) : Stored :=
  if d.gw then
    (if a.gw then
      let r := readGridWord (a.read m (srcIndex a i))
      let o := regrid r.1 r.2.1 v.g
      ⟨gridWord o.acc v.g, Flags.join o.fl (Flags.ofInv r.2.2)⟩
     else
      let x := srcVal m a i
      let o := valToAcc x.1 v.g
      ⟨gridWord o.acc v.g, Flags.join o.fl (Flags.ofInv x.2)⟩)
  else
    let x := srcVal m a i
    storeInv d.fmt (x.1, x.2 || x.1.sigInv)

/-- CVT and CVTQ (R146, R147). -/
def runCvt (v : VopCmd) (p : Nat) (m : SMap Byte) : VopOut :=
  let a := orDesc v.tensors.a
  let d := orDesc v.tensors.d
  if d.qmode ≠ 0 then
    convBlocks v p m d (blockSrc m a) (fun i => (srcVal m a i).2) (v.sub == 0x21)
  else elementwise v p m d (convPlain v m a d)

/-- The parts of a CI16 element: real in the low half. -/
def ciPart (c : Nat) (imag : Bool) : Int := if imag then sbits c 31 16 else sbits c 15 0

/-- One part of CSPLIT into a real tensor. -/
def splitPart (v : VopCmd) (p : Nat) (m : SMap Byte) (a d : Desc) (imag : Bool) : VopOut :=
  let src := fun i => ofInt (ciPart (a.read m (srcIndex a i)) imag)
  if d.qmode ≠ 0 then convBlocks v p m d (fun i => (src i, false)) (fun _ => false) false
  else elementwise v p m d (fun i => storeFmt d.fmt (src i))

/-- CSPLIT and CJOIN (R46, R148). DESIGN CHOICE (log 146): no rule gives a CI16 tensor's parts a scale, so its S8 codes and
tensor scale have no effect whatever its QMODE. -/
def runComplex (v : VopCmd) (p : Nat) (m : SMap Byte) : VopOut :=
  let a := orDesc v.tensors.a
  let b := orDesc v.tensors.b
  let d := orDesc v.tensors.d
  if v.sub = 0x22 then
    let r := splitPart v p m a d false
    let q := splitPart v p m a b true
    ⟨r.ws ++ q.ws, Flags.join r.fl q.fl, 0, none⟩
  else
    elementwise v p m d (fun i =>
      let x := srcVal m a i
      let y := srcVal m b i
      let r := storeInv 2 (x.1, x.2 || x.1.sigInv)
      let q := storeInv 2 (y.1, y.2 || y.1.sigInv)
      ⟨r.code + q.code * 2 ^ 16, Flags.join r.fl q.fl⟩)

/-- Comparisons (R145, R254). -/
def runCmp (v : VopCmd) (p : Nat) (m : SMap Byte) : VopOut :=
  let a := orDesc v.tensors.a
  let b := orDesc v.tensors.b
  let d := orDesc v.tensors.d
  let r := (List.range v.vl).map (fun i =>
    if v.active p m i then
      let c := cmpRes v.sub (srcVal m a i).1 (srcVal m b i).1
      ([VWrite.maskBit d i c.1], Flags.ofInv c.2)
    else if v.maskZero then ([VWrite.maskBit d i false], Flags.clear)
    else ([], Flags.clear))
  ⟨r.flatMap (·.1), Flags.joinAll (r.map (·.2)), 0, none⟩

/-- Elementwise arithmetic, SEL and the functions. -/
def runArith (v : VopCmd) (p alevel : Nat) (m : SMap Byte) : VopOut :=
  let a := orDesc v.tensors.a
  let b := orDesc v.tensors.b
  let c := orDesc v.tensors.c
  let d := orDesc v.tensors.d
  elementwise v p m d (fun i =>
    if v.sub = 0x16 then
      let x := (srcVal m (if maskBit m c i then a else b) i).1
      storeInv v.opf (x, x.sigInv)
    else
      arithRes v.sub v.opf alevel v.imm (srcVal m a i).1
        (if v.b.isSome then (srcVal m b i).1 else ofInt 0) (if v.c.isSome then (srcVal m c i).1 else ofInt 0))

/-- Active element numbers. -/
def VopCmd.actives (v : VopCmd) (p : Nat) (m : SMap Byte) : List Nat :=
  (List.range v.vl).filter (fun i => v.active p m i)

/-- SUMG (R149, R150). -/
def runSumg (v : VopCmd) (p : Nat) (m : SMap Byte) : VopOut :=
  let a := orDesc v.tensors.a
  let d := orDesc v.tensors.d
  let start : Nat × Flags × Nat :=
    (gridWord ⟨.fin, 0⟩ v.g, Flags.clear, 0)
  let add := fun (st : Nat × Flags × Nat) (w : Nat × Flags) =>
    let r := gridAdd st.1 w.1
    (r.1, Flags.join st.2.1 (Flags.join w.2 r.2.1), st.2.2 + b2n r.2.2)
  let ws := (v.actives p m).map (fun i =>
    if a.gw then (a.read m (srcIndex a i), Flags.clear)
    else
      let x := srcVal m a i
      let o := valToAcc x.1 v.g
      (gridWord o.acc v.g, Flags.join o.fl (Flags.ofInv x.2)))
  let all := if v.accum then (d.read m (d.index 0), Flags.clear) :: ws else ws
  let r := all.foldl add start
  ⟨[.elem d (d.index 0) r.1], r.2.1, r.2.2, none⟩

/-- RMAX and RMIN (R150). -/
def runReduce (v : VopCmd) (p : Nat) (m : SMap Byte) : VopOut :=
  let a := orDesc v.tensors.a
  let d := orDesc v.tensors.d
  let xs := (v.actives p m).map (fun i => (srcVal m a i).1)
  let op := if v.sub = 0x41 then valMax else valMin
  let st := match xs with
    | [] =>
      let e := if v.sub = 0x41 then minElem v.opf else maxElem v.opf
      storeFmt v.opf (.num e.1 e.2 false)
    | x :: t =>
      let r := t.foldl (fun (acc : ValI) y => let q := op acc.1 y; (q.1, acc.2 || q.2)) (x, x.sigInv)
      storeInv v.opf r
  ⟨[.elem d (d.index 0) st.code], st.fl, 0, none⟩

/-- Whether a ranks strictly above b (R151): `rev` for ARGMIN. Zeros are ordered by sign. -/
def rankAbove (rev : Bool) (a b : Val) : Bool :=
  if a.isNan then !b.isNan
  else if b.isNan then false
  else
    let gt := fun (x y : Val) => valLt y x || (valEq x y && !x.isNeg && y.isNeg &&
      (match x with | .num n _ _ => n == 0 | _ => false))
    if rev then gt b a else gt a b

/-- An element placed into a list ranked by R151, equal ranks by the lower index. -/
def rankInsert (rev : Bool) (x : Val × Nat) : List (Val × Nat) → List (Val × Nat)
  | [] => [x]
  | y :: t =>
    if rankAbove rev x.1 y.1 || (!rankAbove rev y.1 x.1 && decide (x.2 < y.2)) then x :: y :: t
    else y :: rankInsert rev x t

/-- ARGMAX, ARGMIN, TOPK and TOPKM (R151, R152). TOPKM drops the entries of a null index, the unfilled slots of a TOPK
(R153). DESIGN CHOICE (log 147): the "-largest finite" of an unfilled slot in an integer OPF is its most negative
integer, the least finite value that R47 names. -/
def runRank (v : VopCmd) (p : Nat) (m : SMap Byte) : VopOut :=
  let a := orDesc v.tensors.a
  let d := orDesc v.tensors.d
  let rev := v.sub == 0x44
  let n := xCount v
  let xs := (v.actives p m).map (fun i =>
    ((srcVal m a i).1, if v.sub = 0x46 then arr64 m p (v.s.getD 0) i else a.global (srcIndex a i)))
  let ranked := (xs.filter (fun x => !(v.sub == 0x46 && x.2 == nullIndex))).foldl (fun l x => rankInsert rev x l) []
  let bottom := if rev then maxElem v.opf else minElem v.opf
  let slots := (List.range n).map (fun j => ranked.getD j (.num bottom.1 bottom.2 false, nullIndex))
  ⟨(slots.zip (List.range n)).flatMap (fun x =>
      [VWrite.elem d (d.index x.2) (storeFmt v.opf x.1.1).code,
       VWrite.bytes (v.x.getD 0 + 8 * x.2) 8 x.1.2]),
    Flags.ofInv (xs.any (fun x => x.1.sigInv)), 0, none⟩

/-- RNDU and RNDF (R154, R278). -/
def runRandom (v : VopCmd) (p seed : Nat) (m : SMap Byte) : VopOut :=
  let d := orDesc v.tensors.d
  elementwise v p m d (fun i =>
    let w := randomWord seed v.step v.imm (d.global (d.index i))
    if v.sub = 0x50 then ⟨w, Flags.clear⟩
    else if v.opf = 0xB then ⟨(storeFmt 0xB (.num (w >>> 8 : Nat) (2 ^ 24) false)).code, Flags.clear⟩
    else ⟨(storeFmt 9 (.num (w >>> 24 : Nat) (2 ^ 8) false)).code, Flags.clear⟩)

/-- GATHER (R213, R214): stops at the first active index that names no element of A. -/
def gatherFrom (v : VopCmd) (p : Nat) (m : SMap Byte) (a d : Desc) : List Nat → List VWrite → VopOut
  | [], ws => ⟨ws.reverse, Flags.clear, 0, none⟩
  | i :: t, ws =>
    let idx := d.index i
    if v.active p m i then
      let x := arr64 m p (v.x.getD 0) i
      if x = nullIndex then
        gatherFrom v p m a d t (.elem d idx (if d.gw then gridWord ⟨.fin, 0⟩ v.g else 0) :: ws)
      else
        match a.find x with
        | some j => gatherFrom v p m a d t (.elem d idx (a.read m j) :: ws)
        | none => ⟨ws.reverse, Flags.clear, 0, some i⟩
    else
      gatherFrom v p m a d t (if v.maskZero then .elem d idx (zeroCode v m d idx) :: ws else ws)

/-- The place of an element of a piece in iteration order. -/
def ravel : List Dim → List Nat → Nat
  | [], _ => 0
  | d :: ds, idx => idx.headD 0 + d.size * ravel ds idx.tail

/-- What a SCATTER has done so far: the elements of D and the tags it has replaced, flags, mismatches. -/
structure ScatterSt where
  cells : SMap Nat
  tags : SMap Nat
  ws : List VWrite
  fl : Flags
  mismatch : Nat

/-- One active element of a SCATTER whose target is element j of D (R215, R216). -/
def scatterOne (v : VopCmd) (p : Nat) (m : SMap Byte) (a d : Desc) (i : Nat) (tgt : List Nat) (st : ScatterSt) :
    ScatterSt :=
  let j := ravel d.dims tgt
  let old := sget st.cells (fun _ => d.read m tgt) j
  let put := fun (code : Nat) (fl : Flags) (mis : Nat) =>
    { st with cells := (j, code) :: st.cells, ws := .elem d tgt code :: st.ws, fl := Flags.join st.fl fl,
              mismatch := st.mismatch + mis }
  let src := srcIndex a i
  if v.smode = 0 then
    let si := match v.s with | some o => arr64 m p o i | none => a.global src
    let tag := sget st.tags (fun _ => match v.y with | some o => arr64 m p o j | none => nullIndex) j
    if si = nullIndex then st
    else if tag = nullIndex ∨ tag < si then
      let r := put (a.read m src) Flags.clear 0
      { r with
        tags := (j, si) :: st.tags
        ws := (match v.y with | some o => [VWrite.bytes (o + 8 * j) 8 si] | none => []) ++ r.ws }
    else st
  else if v.smode = 1 then
    let g := (readGridWord old).2.1
    let w : Nat × Flags := if a.gw then (a.read m src, Flags.clear)
      else
        let o := valToAcc (srcVal m a i).1 g
        (gridWord o.acc g, o.fl)
    let r := gridAdd old w.1
    put r.1 (Flags.join w.2 r.2.1) (b2n r.2.2)
  else
    let st2 := storeInv d.fmt (valMax (decodeFmt d.fmt old) (srcVal m a i).1)
    put st2.code st2.fl 0

/-- SCATTER (R213, R215, R216). -/
def scatterFrom (v : VopCmd) (p : Nat) (m : SMap Byte) (a d : Desc) : List Nat → ScatterSt → VopOut
  | [], st => ⟨st.ws.reverse, st.fl, st.mismatch, none⟩
  | i :: t, st =>
    if v.active p m i then
      let x := arr64 m p (v.x.getD 0) i
      if x = nullIndex then scatterFrom v p m a d t st
      else
        match d.find x with
        | some tgt => scatterFrom v p m a d t (scatterOne v p m a d i tgt st)
        | none => ⟨st.ws.reverse, st.fl, st.mismatch, some i⟩
    else scatterFrom v p m a d t st

/-- What a VOP computes from memory (R143). -/
def runVop (v : VopCmd) (p alevel seed : Nat) (m : SMap Byte) : VopOut :=
  let a := orDesc v.tensors.a
  let d := orDesc v.tensors.d
  if v.sub = 0x20 ∨ v.sub = 0x21 then runCvt v p m
  else if v.sub = 0x22 ∨ v.sub = 0x23 then runComplex v p m
  else if subCmp v.sub then runCmp v p m
  else if v.sub = 0x40 then runSumg v p m
  else if v.sub = 0x41 ∨ v.sub = 0x42 then runReduce v p m
  else if subRank v.sub then runRank v p m
  else if v.sub = 0x50 ∨ v.sub = 0x51 then runRandom v p seed m
  else if v.sub = 0x60 then gatherFrom v p m a d (List.range v.vl) []
  else if v.sub = 0x61 then scatterFrom v p m a d (List.range v.vl) ⟨[], [], [], Flags.clear, 0⟩
  else runArith v p alevel m

/-! ### Accesses of a VOP and their faults (R184) -/

/-- The S8 byte and the zero point of an element's block, where the tensor has them. -/
def Desc.tables (t : Desc) (idx : List Nat) : List (Nat × Nat) :=
  let zb := 8 * addrBase t.zpBase + t.width * t.block idx
  (if t.qmode = 0 then [] else [(addrBase t.scaleBase + t.block idx, 1)]) ++
    (if t.qmode = 2 then [(zb / 8, (zb % 8 + t.width + 7) / 8)] else [])

/-- The active elements of a GATHER or SCATTER below the first whose index names no element of `t` (R160), each with the
element it names; a null index is passed over (R213). -/
def reached (v : VopCmd) (p : Nat) (m : SMap Byte) (t : Desc) : List Nat → List (Nat × List Nat)
  | [] => []
  | i :: r =>
    let x := arr64 m p (v.x.getD 0) i
    if x = nullIndex then reached v p m t r
    else match t.find x with
      | some j => (i, j) :: reached v p m t r
      | none => []

/-- The bytes that a VOP reads: its mask, then, of its active elements alone (R139), source elements with their S8 codes
and zero points, SEL's selected operand only (R145), index and tag arrays, and what of D its result depends on. -/
def VopCmd.reads (v : VopCmd) (p : Nat) (m : SMap Byte) : List (Nat × Nat) :=
  let t := v.tensors
  let acts := v.actives p m
  let one := fun (d : Desc) (i : Nat) => d.span (srcIndex d i) :: d.tables (srcIndex d i)
  let all := fun (o : Option Desc) => match o with
    | some d => acts.flatMap (one d)
    | none => []
  let array := fun (o : Option Nat) (l : List Nat) => match o with
    | some off => l.map (fun i => (spBase p + off + 8 * i, 8))
    | none => []
  let a := orDesc t.a
  let b := orDesc t.b
  let c := orDesc t.c
  let d := orDesc t.d
  let tables := fun (d : Desc) => acts.flatMap (fun i => d.tables (d.index i))
  (match v.m with | some o => [(spBase p + o, (v.vl + 7) / 8)] | none => []) ++
    (if v.sub = 0x16 then
      acts.flatMap (fun i => c.span [i / 8] :: (if maskBit m c i then one a i else one b i))
     else if v.sub = 0x60 then
      array v.x acts ++ (reached v p m a acts).map (fun e => a.span e.2)
     else if v.sub = 0x61 then
      let r := reached v p m d acts
      array v.x acts ++ r.flatMap (fun e => one a e.1) ++ array v.s (r.map (·.1)) ++
        (if v.smode = 0 then array v.y (r.map (fun e => ravel d.dims e.2)) else r.map (fun e => d.span e.2))
     else if v.sub = 0x22 then all t.a ++ tables d ++ tables b
     else all t.a ++ all t.b ++ all t.c ++ array v.s acts ++
      (if subConv v.sub then tables d else []) ++ (if v.sub = 0x40 ∧ v.accum then [d.span (d.index 0)] else []))

/-- The bytes of a write. -/
def VWrite.span (p : Nat) (w : VWrite) : Nat × Nat :=
  match w with
  | .elem t idx _ => t.span idx
  | .s8 t blk _ => (addrBase t.scaleBase + blk, 1)
  | .bytes off n _ => (spBase p + off, n)
  | .maskBit t i _ => t.span [i / 8]

/-- A VOP executed by core p: its writes, its flags; a memory response or VOP_ADDRESS faults it (R160, R184). -/
def State.execVop (s : State) (p : Nat) (v : VopCmd) : State :=
  let c := s.coreAt p
  let rd := s.ownCode true (v.reads p s.mem)
  let s0 := s.readAll (v.reads p s.mem)
  if rd.1 ≠ 0 then s0.fault p (memFault rd.1) rd.2 v.cmd v.off
  else
    let o := runVop v p c.alevel c.seed s.mem
    let wr := s.ownCode false (o.ws.map (VWrite.span p))
    if wr.1 ≠ 0 then s0.fault p (memFault wr.1) wr.2 v.cmd v.off
    else
      let s1 := (o.ws.foldl (fun st w => st.vwrite p w) (s0.wakeAll (o.ws.map (VWrite.span p))))
      let s2 := s1.addFlags p o.fl
      let s3 := if o.mismatch = 0 then s2 else s2.countDev 0x001 (s2.coreOwner p) o.mismatch
      match o.addr with
      | some i => s3.fault p 0x35 i v.cmd v.off
      | none => s3

end Sys2Proof.Machine
end

