-- ==== Sys2Proof/Machine/Pump.lean ====
section
/-! DEFINITION. The engine queues of a core: what happens at their heads (R239 to R241, R256, R257, R259, R260). -/

namespace Sys2Proof.Machine

/-! ### Digest folds (R256, R280, R281) -/

/-- A value added to a digest slot, modulo 2^64; `nz` says whether an element behind it is not 0 (R382). -/
def Core.foldInto (c : Core) (slot v : Nat) (nz : Bool) : Core :=
  { c with
    digests := c.digests.set slot ((nth c.digests slot + v) % 2 ^ 64)
    digestNz := c.digestNz.set slot (c.digestNz.getD slot false || nz) }

/-- Whether a stored code is an element that is not 0. -/
def Desc.nonZero (t : Desc) (code : Nat) : Bool :=
  match decodeFmt t.fmt code with
  | .num n _ _ => n != 0
  | _ => true

/-- Whether an element of a piece is not 0 (R382). -/
def Desc.anyNonZero (t : Desc) (m : SMap Byte) : Bool :=
  (List.range t.count).any (fun i => t.nonZero (t.read m (t.index i)))

/-- The digest of every element of a piece (R282, R283). -/
def Desc.digest (t : Desc) (m : SMap Byte) : Nat :=
  (List.range t.count).foldl (fun a i => (a + t.elemDigest (t.index i) (t.read m (t.index i))) % 2 ^ 64) 0

/-- What a FOLD reads. -/
def Desc.allSpans (t : Desc) : List (Nat × Nat) := (List.range t.count).map (fun i => t.span (t.index i))

/-- A FOLD executed (R256). -/
def State.execFold (s : State) (p slot desc cmd off : Nat) : State :=
  let t := parseDesc desc
  let rd := s.ownCode true t.allSpans
  if rd.1 ≠ 0 then (s.readAll t.allSpans).fault p (memFault rd.1) rd.2 cmd off
  else (s.readAll t.allSpans).modCoreAt p (fun c => c.foldInto slot (t.digest s.mem) (t.anyNonZero s.mem))

/-- A STORE executed (R257): the slot to its return word, then 0. In a frame stream it is a part of the step's frame
(R381). A write that its own bank refuses faults the command (R184). -/
def State.execStore (s : State) (p slot addr cmd off : Nat) : State :=
  let wr := s.ownCode false [(spBase p + addr, 8)]
  if wr.1 ≠ 0 then s.fault p (memFault wr.1) wr.2 cmd off
  else
    let c := s.coreAt p
    (((s.wakeSpan (spBase p + addr) 8).storeFrame p (nth c.digests slot) (c.digestNz.getD slot false)).wrOwn p addr 8
      (nth c.digests slot)).modCoreAt p
      (fun c => { c with digests := c.digests.set slot 0, digestNz := c.digestNz.set slot false })

/-! ### Waiters (R319, R320, R322) -/

/-- A new waiter at semaphore n. -/
def State.ask (s : State) (n need : Nat) (who : WaitFor) : State :=
  { s with
    waiters := sput s.waiters (fun _ => []) n (sget s.waiters (fun _ => []) n ++ [⟨who, need, s.ticket, 0, false⟩])
    ticket := s.ticket + 1 }

/-- The cores that acquire for themselves: a follower's acquisitions are its leader's (R519). -/
def State.asksFor (s : State) (p : Nat) : Bool :=
  !s.safety.pairs.any (fun q => q.follower == p)

/-! ### Queue heads (R240) -/

/-- Whether an earlier DRAIN still folds into a slot (R257). -/
def foldsPending (l : List Queued) (ord slot : Nat) : Bool :=
  l.any (fun q => match q.e with
    | .drain d => d.dg && d.dslot == slot && decide (q.ord < ord)
    | _ => false)

/-- Core p with the head of queue `eng` removed. -/
def State.popHead (s : State) (p : CoreId) (eng : Nat) : State :=
  s.setCore p ((s.core p).setQueue eng ((s.core p).queue eng).tail)

/-- Core p with the head of queue `eng` replaced. -/
def State.setHead (s : State) (p : CoreId) (eng : Nat) (q : Queued) : State :=
  s.setCore p ((s.core p).setQueue eng (q :: ((s.core p).queue eng).tail))

/-- A VOP at the head executed; a fault in its execution drops what stands behind it (R160). -/
def State.runHeadVop (s : State) (p : CoreId) (v : VopCmd) : State :=
  let s1 := (s.popHead p 4).execVop p.val v
  if (s.core p).mode ≠ .faulted ∧ (s1.core p).mode = .faulted then s1.setCore p { s1.core p with qVector := [] }
  else s1

/-- One action at the head of queue `eng`, none where the head cannot act: a release fires, an acquisition asks, a
VOP, FOLD or STORE runs, a landed MPASS completes. A core that a fault has stopped acts no more (R90, R268). -/
def State.headStep (s : State) (p : CoreId) (eng : Nat) : Option State :=
  let c := s.core p
  match (if c.mode = .faulted then [] else c.queue eng) with
  | [] => none
  | q :: _ =>
    match q.e with
    | .rel n k =>
      if eng = 1 ∧ c.loading.isSome then none else some ((s.popHead p eng).semAdd n k)
    | .acq n k asked =>
      if asked ∨ (eng = 1 ∧ c.loading.isSome) then none
      else if c.replayAcq.contains (eng, n, k) then
        some ((s.popHead p eng).modCoreAt p.val (fun c => { c with replayAcq := c.replayAcq.erase (eng, n, k) }))
      else
        let s1 := s.setHead p eng { q with e := .acq n k true }
        some (if s.asksFor p.val then s1.ask n k (.queue p.val eng) else s1)
    | .vop v => some (s.runHeadVop p v)
    | .fold slot desc cmd off => some ((s.popHead p eng).execFold p.val slot desc cmd off)
    | .store slot addr cmd off =>
      if foldsPending c.qDrain q.ord slot then none else some ((s.popHead p eng).execStore p.val slot addr cmd off)
    | .mpass m => if m.landed = m.rows then some (s.popHead p eng) else none
    | .wload _ => none
    | .drain _ => none

/-- Queue `eng` run until its head cannot act, at most n actions. -/
def State.pumpQueue (s : State) (p : CoreId) (eng : Nat) : Nat → State
  | 0 => s
  | n + 1 =>
    match s.headStep p eng with
    | some s' => s'.pumpQueue p eng n
    | none => s

/-- The four queues of core p run. A queue holds at most 8 entries, each of at most two actions. -/
def State.pump (s : State) (p : CoreId) : State :=
  (((s.pumpQueue p 1 16).pumpQueue p 2 16).pumpQueue p 3 16).pumpQueue p 4 16

/-- The pump for a core by number. -/
def State.pumpAt (s : State) (p : Nat) : State := if h : p < 72 then s.pump ⟨p, h⟩ else s

end Sys2Proof.Machine
end

