-- ==== Sys2Proof/Machine/ArrayRows.lean ====
section
/-! DEFINITION. The steps of the array, the grid and the drain: WLOAD to DRAIN_COMPLETE. -/

namespace Sys2Proof.Machine

/-! ### WLOAD (R56 to R58, R81 to R84, R248) -/

/-- The waiting WLOAD at the head of the loader's queue starts where the shadow is free (R84). A stopped core starts none
(R90). -/
def State.startWload (s : State) (p : CoreId) : State :=
  let c := s.core p
  match c.qLoader with
  | ⟨_, .wload w⟩ :: rest =>
    if c.loading.isNone ∧ c.shadow.isNone ∧ c.mode ≠ .faulted then
      s.setCore p { c with qLoader := rest, loading := some w }
    else s
  | _ => s

/-- What a WLOAD records of itself in the tag history (R82, R83) and for the MPASS checks (R250). -/
def Core.noteWload (c : Core) (w : WloadCmd) : Core :=
  { c with
    lastW := some w.tag
    wPassed := false
    wSince := c.wSince ++ [w.tag]
    wRows := sput c.wRows zeroD w.tag (wRowsOf w.cmd)
    wBlen := sput c.wBlen zeroD w.tag (parseDesc w.desc).blen }

/-- WLOAD decoded: checks, tag history, the loader's queue; the load starts if nothing is ahead. -/
def decodeWload (p : CoreId) (off : Nat) (s : State) (cmd : Nat) : DecR :=
  let c := s.core p
  let adv := bit cmd 36
  let tag := c.effTag adv (bits cmd 119 117)
  let w0 : WloadCmd := ⟨c.ord, cmd, 0, 0, tag, off⟩
  if !c.room 1 (.wload w0) then .stall
  else
    match c.effOffset adv (128 * bits cmd 114 100) with
    | none => orFault ((true, 0x03) :: wloadOwnCauses c cmd tag) .stall
    | some doff =>
      let d := s.rd (spBase p.val + doff) 128
      s.seqRead [(spBase p.val + doff, 128)] (wloadOwnCauses c cmd tag) (fun s =>
        orFault (wloadCauses p.val c cmd tag (parseDesc d))
          (let w : WloadCmd := ⟨c.ord, cmd, d, doff, tag, off⟩
           .ok ((s.setCore p ((c.push 1 (.wload w)).noteWload w)).startWload p)))

/-- WLOAD. -/
def execWload (p : CoreId) (s : State) : Host.Outcome State Fault Refusal :=
  .next (s.decodeCmd p 0x01 (decodeWload p (s.core p).pos))

/-- WLOAD_QUEUED_START (R84). -/
def execWloadQueuedStart (p : CoreId) (s : State) : Host.Outcome State Fault Refusal :=
  .next ((s.startWload p).pump p)

/-- SHADOW_COMPLETE (R81): the block is read and built; a bad read faults the WLOAD (R184). -/
def execShadowComplete (p : CoreId) (s : State) : Host.Outcome State Fault Refusal :=
  .next (match (s.core p).loading with
    | none => s
    | some w =>
      let rd := s.ownCode true (wloadReads w)
      let s1 := (s.readAll (wloadReads w)).setCore p { s.core p with loading := none }
      if rd.1 ≠ 0 then s1.fault p.val (memFault rd.1) rd.2 w.cmd w.off
      else
        let b := buildBlock s.mem w
        ((s1.setCore p { s1.core p with shadow := some b.1 }).addFlags p.val b.2).pump p)

/-! ### MPASS (R77 to R80, R250) -/

/-- MPASS decoded: checks, the exponents it will open rows with (R94), the ARRAY queue. -/
def decodeMpass (p : CoreId) (off : Nat) (s : State) (cmd : Nat) : DecR :=
  let c := s.core p
  let adv := bit cmd 16
  let tag := c.effTag adv (bits cmd 119 117)
  if decide (8 ≤ c.qArray.length) then .stall
  else
    match c.effOffset adv (128 * bits cmd 114 100), c.effOffset (adv && bit cmd 115) (32 * bits cmd 99 83) with
    | some doff, some woff =>
      let d := s.rd (spBase p.val + doff) 128
      let win := if bit cmd 115 then some (s.rd (spBase p.val + woff) 32) else none
      let known := if s.readsOwn [(spBase p.val + doff, 128)] then mpassDescCauses p.val c cmd tag (parseDesc d)
        else mpassOwnCauses c cmd tag
      let l := (spBase p.val + doff, 128) :: (if bit cmd 115 then [(spBase p.val + woff, 32)] else [])
      s.seqRead l known (fun s => orFault (mpassCauses p.val c cmd tag (parseDesc d) (win.map parseWindow))
        (let m : MPass :=
          { cmd := cmd, off := off, tag := tag, opens := bit cmd 116, win := win, desc := d, r0 := bits cmd 82 59,
            ak0 := bits cmd 58 35, rows := mRows cmd, grow := mGrow cmd, krows := sget c.wRows zeroD tag,
            g := c.setg, filled := [], issued := 0, landed := 0, tile := c.tileNo }
         let c1 := c.push 2 (.mpass m)
         .ok ((s.setCore p
           { c1 with
             lastM := some tag
             wPassed := c.wPassed || c.lastW == some tag
             wSince := [] }).pump p)))
    | _, _ => orFault ((true, 0x03) :: mpassOwnCauses c cmd tag) .stall

/-- MPASS. -/
def execMpass (p : CoreId) (s : State) : Host.Outcome State Fault Refusal :=
  .next (s.decodeCmd p 0x02 (decodeMpass p (s.core p).pos))

/-- The MPASS that feeder i fills for: the first with rows left to fill, in front of every unsatisfied acquisition. -/
def fillPass (i : Nat) : List Queued → Option (Nat × MPass)
  | [] => none
  | q :: t =>
    match q.e with
    | .mpass m => if i < m.krows ∧ sget m.filled zeroD i < m.rows then some (q.ord, m) else fillPass i t
    | .acq _ _ _ => none
    | _ => fillPass i t

/-- FEEDER_FILL (R71 to R75): feeder i reads and aligns its next element. -/
def execFeederFill (p : CoreId) (i : Fin 512) (s : State) : Host.Outcome State Fault Refusal :=
  let c := s.core p
  .next (if (c.feeder i.val).length < 16 ∧ c.mode ≠ .faulted then
    match fillPass i.val c.qArray with
    | none => s
    | some (ord, m) =>
      let t := sget m.filled zeroD i.val
      let rd := s.ownCode true (m.reads t i.val)
      let s0 := s.readAll (m.reads t i.val)
      if rd.1 ≠ 0 then s0.fault p.val (memFault rd.1) rd.2 m.cmd m.off
      else
        let e := m.entry s.mem t i.val
        let c1 := c.setFeeder i.val (c.feeder i.val ++ [e.1])
        (s0.setCore p
          { c1 with qArray := mapPass ord (fun m => { m with filled := sput m.filled zeroD i.val (t + 1) }) c1.qArray
            }).addFlags p.val e.2
    else s)

/-- The heads of feeders 0 to n - 1; none unless each holds an entry (R74). -/
def Core.heads (c : Core) (n : Nat) : Option (List FeederEntry) :=
  (List.range n).mapM (fun i => (c.feeder i).head?)

/-- The feeders with the heads of 0 to n - 1 taken. -/
def Core.popHeads (c : Core) (n : Nat) : Core :=
  (List.range n).foldl (fun c i => c.setFeeder i (c.feeder i).tail) c

/-- A core whose tile has n more array cycles (R266). -/
def Core.addCycles (c : Core) (tile n : Nat) : Core :=
  { c with tileCycles := sput c.tileCycles zeroD tile (sget c.tileCycles zeroD tile + n) }

/-- ROW_ISSUE (R59 to R64, R69, R74, R85, R86, R125): the next row of the queue's head pass, where its block is active,
every feeder holds its entry and no DRAIN holds its grid row. A stopped core issues none (R90). DESIGN CHOICE (log 144): commanded
where the row cannot issue, it is a cycle in which the array is gated, and where the row stands at the queue heads the tile
counts that cycle (R266, R512). -/
def execRowIssue (p : CoreId) (s : State) : Host.Outcome State Fault Refusal :=
  let c := s.core p
  .next (match (if c.mode = .faulted then none else nextPass c.qArray) with
    | none => s
    | some (ord, m) =>
      let r := m.grow + m.issued
      match c.heads m.krows, c.active.filter (fun b => b.wl.tag == m.tag) with
      | none, _ => s.countCore p.val 0x03
      | some _, none => (s.setCore p (c.addCycles m.tile 1)).countCore p.val 0x02
      | some row, some b =>
        if drainHolds c.qDrain ord r then (s.setCore p (c.addCycles m.tile 1)).countCore p.val 0x04
        else
          let ts := rowTerms b row
          let two := actTwo (parseDesc m.desc).fmt
          let n := rowCycles b.k two
          let c1 := c.popHeads m.krows
          let c2 : Core :=
            { c1.addCycles m.tile n with
              pipe := c1.pipe ++ [⟨r, m.opens, m.g, ord, ts.map (·.1)⟩]
              qArray := mapPass ord (fun m => { m with issued := m.issued + 1 }) c1.qArray }
          (((s.setCore p c2).addFlags p.val (Flags.ofInv (ts.any (·.2)))).countCore p.val 0x05).countCore p.val 0x01 n)

/-- SWAP (R85): the complete shadow becomes active where the next row to issue carries its tag. A stopped core keeps both
(R90). -/
def execSwap (p : CoreId) (s : State) : Host.Outcome State Fault Refusal :=
  let c := s.core p
  .next (match nextPass c.qArray, c.shadow with
    | some (_, m), some b =>
      if b.wl.tag = m.tag ∧ (c.active.map (fun a => a.wl.tag)) ≠ some m.tag ∧ c.mode ≠ .faulted then
        s.setCore p { c with active := some b, shadow := none }
      else s
    | _, _ => s)

/-- A residue mismatch latched (R127): the first one's column and check point, counted, its stop deferred to the next
TILE.END that the sequencer decodes. -/
def State.residueHit (s : State) (p : Nat) (hit : Option (Nat × Nat)) : State :=
  match hit with
  | none => s
  | some h =>
    (s.modCoreAt p (fun c =>
      { c with
        residue := some (c.residue.getD h)
        deferred := if c.residue.isSome then c.deferred else c.deferred ++ [(0x27, h.1 * 256 + h.2)] })).countCore p 0x1B

/-- A grid row logged before its first MPASS of a tile touches it, for a core of a pair (R522). -/
def State.logRow (s : State) (p r : Nat) : State :=
  if s.inPair p then
    s.modCoreAt p (fun c =>
      if c.undoRows.any (fun e => e.1 == r) then c
      else { c with undoRows := c.undoRows ++ [(r, c.gridRow r)], undoBytes := c.undoBytes + 1040 })
  else s

/-- CONTRIBUTION_LAND (R67, R93, R105 to R112, R126): the oldest row pass lands in its grid row, checked by residues. -/
def execContributionLand (p : CoreId) (errs : List BitError) (s : State) : Host.Outcome State Fault Refusal :=
  .next (match (s.core p).pipe with
    | [] => s
    | f :: rest =>
      let s0 := s.logRow p.val f.grow
      let c := s0.core p
      let r := landRow errs (c.gridRow f.grow) f
      let c1 : Core := { c.setGridRow f.grow r.1 with
        pipe := rest
        qArray := mapPass f.ord (fun m => { m with landed := m.landed + 1 }) c.qArray }
      (((s0.setCore p c1).addFlags p.val r.2.1).residueHit p.val r.2.2).pump p)

/-! ### SETG (R94, R249) -/

/-- SETG decoded. -/
def decodeSetg (p : CoreId) (s : State) (cmd : Nat) : DecR :=
  let c := s.core p
  let uni := bit cmd 119
  let gval := bits cmd 118 107
  let gtab := bits cmd 105 89
  let field := bits cmd 88 0 != 0 || (!uni && gval != 0) || (uni && gtab != 0)
  match c.effOffset (bit cmd 106 && !uni) (32 * gtab) with
  | none => orFault [(field, 0x02), (true, 0x03)] .stall
  | some off =>
    let vals := if uni then List.replicate 64 (sbits cmd 118 107)
      else (List.range 64).map (fun j => sext 16 (s.rd (spBase p.val + off + 2 * j) 2))
    s.seqRead (if uni then [] else [(spBase p.val + off, 128)]) [(field, 0x02)] (fun s =>
      orFault [(field, 0x02), (!vals.all (fun g => decide (-2048 ≤ g ∧ g ≤ 2047)), 0x2A)]
        (.ok (s.setCore p { c with setg := vals })))

/-- SETG. -/
def execSetg (p : CoreId) (s : State) : Host.Outcome State Fault Refusal :=
  .next (s.decodeCmd p 0x04 (decodeSetg p))

/-! ### DRAIN (R87, R119 to R125, R251, R252) -/

/-- The faults of a DRAIN that its command shows without its descriptor. -/
def drainOwnCauses (cmd : Nat) : List (Bool × Nat) :=
  [(bits cmd 10 0 != 0, 0x02), (decide (511 < bits cmd 35 27 + bits cmd 26 18), 0x28)]

/-- The faults of a DRAIN that its descriptor shows without its parameter block. -/
def drainDescCauses (p : Nat) (c : Core) (cmd : Nat) (t : Desc) : List (Bool × Nat) :=
  drainOwnCauses cmd ++
  [(t.gw && bits cmd 100 84 != 0, 0x02),
   (decide ((t.dim 1).size < bits cmd 83 60 + bits cmd 26 18 + 1) ||
      decide ((t.dim 0).size < bits cmd 59 36 + bits cmd 17 12 + 1), 0x28), (!drainFmtOk t, 0x2C)] ++
  t.causes p c.alevel true

/-- The faults of a DRAIN. -/
def drainCauses (p : Nat) (c : Core) (cmd : Nat) (t : Desc) (pb : Nat) : List (Bool × Nat) :=
  (!t.gw && (drainParams pb).bad, 0x2B) :: drainDescCauses p c cmd t

/-- DRAIN decoded: its descriptor and parameter block are read (R121, R196), its rows held (R125). A DRAIN to grid words
names no parameter block (R120): its PBLK is 0 and does not advance (R246). -/
def decodeDrain (p : CoreId) (off : Nat) (s : State) (cmd : Nat) : DecR :=
  let c := s.core p
  let adv := bit cmd 11
  if decide (4 ≤ c.qDrain.length) then .stall
  else
    match c.effOffset adv (128 * bits cmd 115 101) with
    | none => orFault ((true, 0x03) :: drainOwnCauses cmd) .stall
    | some doff =>
      let d := s.rd (spBase p.val + doff) 128
      s.seqRead [(spBase p.val + doff, 128)] (drainOwnCauses cmd) (fun s =>
        let t := parseDesc d
        let k : Nat → State → DecR := fun pb s =>
          let dc : DrainCmd :=
            { cmd := cmd, off := off, dg := bit cmd 119, dslot := bits cmd 118 116, desc := d, pblk := pb,
              or0 := bits cmd 83 60, on0 := bits cmd 59 36, grow := bits cmd 35 27, rows := bits cmd 26 18 + 1,
              ncols := bits cmd 17 12 + 1, started := false, done := 0 }
          orFault (drainCauses p.val c cmd t pb) (.ok ((s.setCore p (c.push 3 (.drain dc))).pump p))
        if t.gw then k 0 s
        else
          match c.effOffset adv (32 * bits cmd 100 84) with
          | none => orFault ((true, 0x03) :: drainDescCauses p.val c cmd t) .stall
          | some poff =>
            s.seqRead [(spBase p.val + poff, 288)] (drainDescCauses p.val c cmd t)
              (k (s.rd (spBase p.val + poff) 288)))

/-- DRAIN. -/
def execDrain (p : CoreId) (s : State) : Host.Outcome State Fault Refusal :=
  .next (s.decodeCmd p 0x03 (decodeDrain p (s.core p).pos))

/-- Whether an MPASS decoded before place `ord` has contributions to land. -/
def passesBefore (l : List Queued) (ord : Nat) : Bool :=
  l.any (fun q => match q.e with
    | .mpass m => decide (q.ord < ord) && decide (m.landed < m.rows)
    | _ => false)

/-- The DRAIN at the head of its queue, with its place. -/
def Core.headDrain (c : Core) : Option (Nat × DrainCmd) :=
  match c.qDrain with
  | ⟨ord, .drain d⟩ :: _ => some (ord, d)
  | _ => none

/-- A core with its head DRAIN replaced. -/
def Core.setHeadDrain (c : Core) (ord : Nat) (d : DrainCmd) : Core :=
  { c with qDrain := ⟨ord, .drain d⟩ :: c.qDrain.tail }

/-- DRAIN_START (R87, R251): the head DRAIN begins once every contribution of the MPASS ahead of it has landed. -/
def execDrainStart (p : CoreId) (s : State) : Host.Outcome State Fault Refusal :=
  let c := s.core p
  .next (match c.headDrain with
    | some (ord, d) =>
      if d.started ∨ passesBefore c.qArray ord ∨ c.mode = .faulted then s else s.setCore p (c.setHeadDrain ord { d with started := true })
    | none => s)

/-- The index that column j of a DRAIN's row t is written to (R251). -/
def DrainCmd.index (d : DrainCmd) (t j : Nat) : List Nat := [d.on0 + j, d.or0 + t]

/-- What the drain stores for column j of a grid row: the code and its flags (R120, R123). -/
def DrainCmd.store (d : DrainCmd) (r : GridRow) (j : Nat) : Stored :=
  let t := parseDesc d.desc
  let a := r.accs.getD j ⟨.fin, 0⟩
  let g := r.g.getD j 0
  if t.gw then ⟨gridWord a g, Flags.clear⟩ else drainStore t.fmt (drainParams d.pblk) j g a

/-- The elements a DRAIN writes for its row t, in column order. -/
def DrainCmd.writes (d : DrainCmd) (r : GridRow) (t : Nat) : List VWrite :=
  (List.range d.ncols).map (fun j => .elem (parseDesc d.desc) (d.index t j) (d.store r j).code)

/-- The digest of the elements that a DRAIN writes for its row t (R256). -/
def DrainCmd.rowDigest (d : DrainCmd) (r : GridRow) (t : Nat) : Nat :=
  (List.range d.ncols).foldl (fun a j =>
    (a + (parseDesc d.desc).elemDigest (d.index t j) (d.store r j).code) % 2 ^ 64) 0

/-- Whether an element that a DRAIN writes for its row is not 0 (R382). -/
def DrainCmd.rowNonZero (d : DrainCmd) (r : GridRow) : Bool :=
  (List.range d.ncols).any (fun j => (parseDesc d.desc).nonZero (d.store r j).code)

/-- A grid row as the drain reads it, with the bit errors of its storage (stage 0 of the drain). -/
def GridRow.withErrors (r : GridRow) (errs : List BitError) : GridRow :=
  { r with accs := r.accs.zipIdx.map (fun a => ⟨a.1.st, a.1.acc + errorAt errs 0 a.2 0⟩) }

/-- The residue check of a drain read (R126): the first column whose accumulator's residue is not its running residue, with
check point 0. Accumulators in a special state are not checked. -/
def GridRow.drainCheck (r : GridRow) : Option (Nat × Nat) :=
  ((r.accs.zipIdx.filter (fun a =>
    (a.1.st == .fin || a.1.st == .sat) && res7 a.1.acc != nth r.res a.2)).map (fun a => (a.2, 0))).head?

/-- DRAIN_ROW_READ (R120, R123 to R126, R256): the head DRAIN reads its next grid row, frees it, writes its columns. A
stopped core's drain reads no row (R268). -/
def execDrainRowRead (p : CoreId) (errs : List BitError) (s : State) : Host.Outcome State Fault Refusal :=
  let c := s.core p
  .next (match c.headDrain with
    | none => s
    | some (ord, d) =>
      if ¬ d.started ∨ d.rows ≤ d.done ∨ c.mode = .faulted then s
      else
        let r := (c.gridRow (d.grow + d.done)).withErrors errs
        let ws := d.writes r d.done
        let wr := s.ownCode false (ws.map (VWrite.span p.val))
        if wr.1 ≠ 0 then s.fault p.val (memFault wr.1) wr.2 d.cmd d.off
        else
          let fl := Flags.joinAll ((List.range d.ncols).map (fun j => (d.store r j).fl))
          let s1 := s.setCore p (c.setHeadDrain ord { d with done := d.done + 1 })
          let s2 := ws.foldl (fun st w => st.vwrite p.val w) (s1.wakeAll (ws.map (VWrite.span p.val)))
          let s3 := s2.addFlags p.val fl
          let s4 := if d.dg then s3.modCoreAt p.val (fun c => c.foldInto d.dslot (d.rowDigest r d.done) (d.rowNonZero r)) else s3
          s4.residueHit p.val r.drainCheck)

/-- DRAIN_COMPLETE (R238): every row is read and written; the DRAIN leaves its queue. -/
def execDrainComplete (p : CoreId) (s : State) : Host.Outcome State Fault Refusal :=
  let c := s.core p
  .next (match c.headDrain with
    | some (_, d) =>
      if d.started ∧ d.rows ≤ d.done ∧ c.mode ≠ .faulted then (s.setCore p { c with qDrain := c.qDrain.tail }).pump p else s
    | none => s)

end Sys2Proof.Machine
end

