-- ==== Sys2Proof/Machine/Link.lean ====
section
/-! DEFINITION. Messages, flits and ports: headers, routing, the Brim links' and tunnels' sending and receiving of
slices (R423 to R440). -/

namespace Sys2Proof.Machine

/-! ### Headers (R427) -/

/-- A message header. -/
def mkHdr (vc mtype dst src role tag len addr : Nat) : Word128 :=
  BitVec.ofNat 128 (1 * 2 ^ 124 + vc % 4 * 2 ^ 122 + mtype % 64 * 2 ^ 116 + dst % 4096 * 2 ^ 100 + src % 4096 * 2 ^ 88 +
    role % 65536 * 2 ^ 72 + tag % 1024 * 2 ^ 62 + len % 256 * 2 ^ 54 + addr % 2 ^ 52)

def hVer (h : Word128) : Nat := bits h.toNat 127 124
def hVc (h : Word128) : Nat := bits h.toNat 123 122
def hType (h : Word128) : Nat := bits h.toNat 121 116
def hHops (h : Word128) : Nat := bits h.toNat 115 112
def hDst (h : Word128) : Nat := bits h.toNat 111 100
def hSrc (h : Word128) : Nat := bits h.toNat 99 88
def hRole (h : Word128) : Nat := bits h.toNat 87 72
def hTag (h : Word128) : Nat := bits h.toNat 71 62
def hLen (h : Word128) : Nat := bits h.toNat 61 54
def hAddr (h : Word128) : Nat := bits h.toNat 51 0

/-- Whether a message is a request: types 0x01 to 0x05 (R428). -/
def isRequest (h : Word128) : Bool := decide (1 ≤ hType h ∧ hType h ≤ 5)

/-- Whether a message type is listed (R428). -/
def typeKnown (n : Nat) : Bool :=
  decide (n ≤ 5) || decide (0x10 ≤ n ∧ n ≤ 0x12) || decide (0x20 ≤ n ∧ n ≤ 0x26) || n == 0x3F

/-- A header with LEN above 128, another version or non-zero HELD (R428). -/
def headBad (h : Word128) : Bool := decide (128 < hLen h) || hVer h != 1 || bits h.toNat 53 52 != 0

/-- A message that is dropped and counted: held type, LEN above 128, another version, non-zero HELD (R428). -/
def msgBad (h : Word128) : Bool := !typeKnown (hType h) || headBad h

/-- Payload bytes that follow a header: none after a READ, whose LEN is what it asks for (R428). -/
def payloadBytes (h : Word128) : Nat := if hType h = 2 then 0 else 8 * hLen h

/-- The slices of a message: its header and its payload in 16-byte slices. -/
def msgSlices (m : Msg) : List Word128 :=
  m.hdr :: (List.range ((payloadBytes m.hdr + 15) / 16)).map (fun i => BitVec.ofNat 128 (m.payload / 2 ^ (128 * i)))

/-- A message from its slices. -/
def msgOf (l : List Word128) : Msg :=
  match l with
  | [] => ⟨0, 0⟩
  | h :: t => ⟨h, t.foldr (fun s n => s.toNat + 2 ^ 128 * n) 0 % 256 ^ payloadBytes h⟩

/-- The response to a request: RSP with a code (R428, R429). -/
def rspTo (me : Nat) (h : Word128) (code : Nat) : Msg := ⟨mkHdr 1 0x10 (hSrc h) me 0 (hTag h) 0 code, 0⟩

/-! ### Flits (R432 to R434) -/

/-- CRC-32 of IEEE 802.3 over bytes, first byte first. -/
def crcBit (c : Nat) : Nat := if c % 2 = 1 then Nat.xor (c / 2) 0xEDB88320 else c / 2
def crcByte (c b : Nat) : Nat := crcBit (crcBit (crcBit (crcBit (crcBit (crcBit (crcBit (crcBit (Nat.xor c b))))))))
def crcRun (c w : Nat) : Nat → Nat
  | 0 => c
  | n + 1 => crcRun (crcByte c (w % 256)) (w / 256) n
def crc32 (w n : Nat) : Nat := Nat.xor (crcRun 0xFFFFFFFF w n) 0xFFFFFFFF

/-- The link word of a flit: CRC over its 64 bytes and then SEQ in two bytes (log 70), SEQ, HMASK. -/
def linkWord (data seq hmask : Nat) : BitVec 64 :=
  BitVec.ofNat 64 (crc32 (data + seq % 4096 * 2 ^ 512) 66 * 2 ^ 32 + seq % 4096 * 2 ^ 20 + hmask % 16 * 2 ^ 16)

/-- A flit with its link word. -/
def mkFlit (data seq hmask : Nat) : Flit := ⟨BitVec.ofNat 512 data, linkWord (data % 2 ^ 512) seq hmask⟩

/-- Whether a flit's CRC is right. -/
def flitOk (f : Flit) : Bool :=
  bits f.word.toNat 63 32 == crc32 (f.data.toNat + bits f.word.toNat 31 20 * 2 ^ 512) 66

/-- An IDLE slice. -/
def idleSlice : Word128 := mkHdr 0 0 0 0 0 0 0 0

/-- Slices in groups of four as flit data with their HMASK; the last is filled with IDLE. A message starts at slice 0 (log
70). -/
def packFlits (l : List Word128) : List (Nat × Nat) :=
  (List.range ((l.length + 3) / 4)).map (fun i =>
    ((List.range 4).foldr (fun k n => (l.getD (4 * i + k) idleSlice).toNat + 2 ^ 128 * n) 0,
     (if i = 0 then 1 else 0) + ((List.range 4).filter (fun k => decide (l.length ≤ 4 * i + k))).foldl (fun a k => a + 2 ^ k) 0))

/-- A flit as it is sent again: a TIME message in it says REPLAYED (R475). -/
def replayed (f : Flit) : Flit :=
  let hm := bits f.word.toNat 19 16
  let h := BitVec.ofNat 128 f.data.toNat
  let timeHere := bit hm 0 && hType h == 0x21
  mkFlit (if timeHere then Nat.lor f.data.toNat (2 ^ (128 + 75)) else f.data.toNat) (bits f.word.toNat 31 20) hm

/-! ### Ports -/

/-- Link l. -/
def State.link (s : State) (l : LinkId) : LinkSt := s.fab.links[l.val]
/-- The state with link l replaced. -/
def State.setLink (s : State) (l : LinkId) (x : LinkSt) : State :=
  { s with fab := { s.fab with links := s.fab.links.set l.val x } }
/-- Tunnel t. -/
def State.tun (s : State) (t : TunnelId) : TunSt := s.fab.tuns[t.val]
/-- The state with tunnel t replaced. -/
def State.setTun (s : State) (t : TunnelId) (x : TunSt) : State :=
  { s with fab := { s.fab with tuns := s.fab.tuns.set t.val x } }

/-- Configuration of link l and of tunnel t. -/
def State.linkCfg (s : State) (l : LinkId) : Nat := s.od 0x6002 (l.val + 1)
def State.tunCfg (s : State) (t : TunnelId) : Nat := s.od 0x6020 (t.val + 1)

/-- Whether tunnel t is open: enabled, and its peer's pair version is not YA1.0, which has no tunnels (R437, R455). -/
def State.tunOpen (s : State) (t : TunnelId) : Bool :=
  bit (s.tunCfg t) 0 && pairByte (s.od 0x6030 1) (bits (s.tunCfg t) 383 372) != 0x10

/-- Element vc of a list of counts changed. -/
def addAt (l : List Nat) (i n : Nat) : List Nat := l.set i (nth l i + n)

/-- The first message that may go: the first of its channel whose slices the credits cover (R426, R433). -/
def nextOut (credits : List Nat) (seen : List Nat) : List Msg → Option Msg
  | [] => none
  | m :: t =>
    if seen.contains (hVc m.hdr) then nextOut credits seen t
    else if (msgSlices m).length ≤ nth credits (hVc m.hdr) then some m
    else nextOut credits (hVc m.hdr :: seen) t

/-- One message's flits sent on link l: numbered, kept for replay (R434). -/
def State.linkSend (s : State) (l : LinkId) (m : Msg) : State :=
  let n := (msgSlices m).length
  let s1 := (packFlits (msgSlices m)).foldl (fun st e =>
    let x := st.link l
    let f := mkFlit e.1 x.nextSeq e.2
    (st.setLink l { x with nextSeq := (x.nextSeq + 1) % 4096, replay := x.replay ++ [(x.nextSeq, f, 1)] }).emit
      (.flitSent l.val f)) s
  let x := s1.link l
  s1.setLink l { x with txq := x.txq.erase m, credits := x.credits.set (hVc m.hdr) (nth x.credits (hVc m.hdr) - n) }

/-- As many waiting messages as credits and the replay buffer of 512 flits let out. -/
def State.linkPump (s : State) (l : LinkId) : Nat → State
  | 0 => s
  | n + 1 =>
    let x := s.link l
    if ¬ x.up ∨ x.training then s
    else
      match nextOut x.credits [] x.txq with
      | none => s
      | some m =>
        if 512 < x.replay.length + ((msgSlices m).length + 3) / 4 then s
        else (s.linkSend l m).linkPump l n

/-- Flits that tunnel t may hold unacknowledged (R439), and put into one frame (R437). -/
def tunRoom (cfg : Nat) : Nat := min (2 ^ 20) ((bits cfg 296 281 - 2) * 16384)
def tunPerFrame (cfg : Nat) : Nat := min 128 ((bits cfg 264 249 - 80) / 64)

/-- Frames of at most k flits. -/
def framesOf (k : Nat) (l : List (BitVec 512)) : List (Nat × List (BitVec 512)) :=
  if k = 0 then []
  else (List.range ((l.length + k - 1) / k)).map (fun i => (k * i, (l.drop (k * i)).take k))

/-- Flits sent on tunnel t from sequence number `seq` on, each frame with ACK, NAK and the credits owed. -/
def State.tunFrames (s : State) (t : TunnelId) (seq : Nat) (flits : List (BitVec 512)) : State :=
  (framesOf (tunPerFrame (s.tunCfg t)) flits).foldl (fun st e =>
    let x := st.tun t
    (st.setTun t { x with owed := [0, 0, 0, 0], nak := false }).emit
      (.tunSent t.val ((seq + e.1) % 2 ^ 32) x.expSeq x.nak x.owed e.2)) s

/-- As many waiting messages as credits and R439 let out of tunnel t. -/
def State.tunPump (s : State) (t : TunnelId) : Nat → State
  | 0 => s
  | n + 1 =>
    let x := s.tun t
    if ¬ s.tunOpen t then s
    else
      match nextOut x.credits [] x.txq with
      | none => s
      | some m =>
        let k := (msgSlices m).length
        let fl := (packFlits (msgSlices m)).map (fun e => BitVec.ofNat 512 e.1)
        if tunRoom (s.tunCfg t) < x.unacked.length + fl.length then s
        else
          let y := { x with
            txq := x.txq.erase m
            credits := x.credits.set (hVc m.hdr) (nth x.credits (hVc m.hdr) - k)
            nextSeq := (x.nextSeq + fl.length) % 2 ^ 32
            unacked := x.unacked ++ (fl.zip (List.range fl.length)).map (fun e => ((x.nextSeq + e.2) % 2 ^ 32, e.1)) }
          ((s.setTun t y).tunFrames t x.nextSeq fl).tunPump t n

/-! ### Routing (R423, R424) -/

/-- The route-table byte of a node. -/
def State.routeOf (s : State) (node : Nat) : Nat := bits (s.od 0x6010 1) (8 * node + 7) (8 * node)

/-- A message put into link l's queue. -/
def State.viaLink (s : State) (l : LinkId) (m : Msg) : State :=
  let x := s.link l
  ((s.setLink l { x with txq := x.txq ++ [m] }).emit (.msg m)).linkPump l (x.txq.length + 1)

/-- A message put into tunnel t's queue. -/
def State.viaTun (s : State) (t : TunnelId) (m : Msg) : State :=
  let x := s.tun t
  ((s.setTun t { x with txq := x.txq ++ [m] }).emit (.msg m)).tunPump t (x.txq.length + 1)

/-- A message that has arrived at this node. -/
def State.toInbox (s : State) (port : Nat) (m : Msg) : State :=
  { s with fab := { s.fab with inbox := s.fab.inbox ++ [(port, m)] } }

/-- A message on its way: delivered here, or on the port its destination's byte names; none where it meets no route, or
a port that is down. -/
def State.route (s : State) (m : Msg) : Option State :=
  let d := hDst m.hdr
  let b := s.routeOf d
  if d = s.nodeId ∨ b = 0xFE then some (s.toInbox 0xFE m)
  else if h : b < 4 then
    (if (s.link ⟨b, h⟩).up ∨ (s.link ⟨b, h⟩).training then some (s.viaLink ⟨b, h⟩ m) else none)
  else if h : 8 ≤ b ∧ b < 16 then
    (if hType m.hdr = 0x21 then some (s.countDev 0x046)
     else if s.tunOpen ⟨b - 8, by omega⟩ then some (s.viaTun ⟨b - 8, by omega⟩ m) else none)
  else none

/-- A message with no way on: a request is answered UNREACHABLE, anything else dropped and counted (R424). -/
def State.unreachable (s : State) (m : Msg) : State :=
  if isRequest m.hdr then (s.route (rspTo s.nodeId m.hdr 0xA)).getD (s.countDev 0x041)
  else s.countDev (if hVc m.hdr = 1 then 0x041 else 0x040)

/-- A message sent. -/
def State.post (s : State) (m : Msg) : State := (s.route m).getD (s.unreachable m)

/-- A message taken from the inbox: its slices' credits are owed to the partner (R433). -/
def State.consume (s : State) (m : Msg) : State :=
  match s.fab.inbox.find? (fun e => e.2 == m) with
  | none => s
  | some e =>
    let s1 := { s with fab := { s.fab with inbox := s.fab.inbox.erase e } }
    let n := (msgSlices m).length
    if h : e.1 < 4 then
      let x := s1.link ⟨e.1, h⟩
      s1.setLink ⟨e.1, h⟩ { x with owed := addAt x.owed (hVc m.hdr) n }
    else if h : 8 ≤ e.1 ∧ e.1 < 16 then
      let x := s1.tun ⟨e.1 - 8, by omega⟩
      s1.setTun ⟨e.1 - 8, by omega⟩ { x with owed := addAt x.owed (hVc m.hdr) n }
    else s1

/-- Whether two messages keep their order at this node: responses all do (R578), others those of one channel from one
source (R426). -/
def inLine (a b : Msg) : Bool :=
  hVc a.hdr == hVc b.hdr && hDst a.hdr == hDst b.hdr && (hVc a.hdr == 1 || hSrc a.hdr == hSrc b.hdr)

/-- Whether message m is the oldest of those it keeps its order with. -/
def State.inTurn (s : State) (m : Msg) : Bool :=
  match s.fab.inbox.find? (fun e => inLine e.2 m) with
  | some e => e.2 == m
  | none => true

/-- A message that must wait behind older ones: it stays, or comes to stand, in the inbox. -/
def State.await (s : State) (m : Msg) : State :=
  if s.fab.inbox.any (fun e => e.2 == m) then s else s.toInbox 0xFE m

/-- A malformed message dropped and counted, a request answered DENIED (R428). -/
def State.malformed (s : State) (m : Msg) : State :=
  let s1 := (s.consume m).countDev 0x040
  if isRequest m.hdr then s1.post (rspTo s.nodeId m.hdr 3) else s1

/-- A message that is no request taken in its turn (R426, R578): dropped and counted where it is malformed (R428). -/
def State.take (s : State) (m : Msg) (k : State → State) : State :=
  if ¬ s.inTurn m then s.await m
  else if msgBad m.hdr then s.malformed m
  else k (s.consume m)

/-! ### Slices received -/

/-- One slice into the message in reception: what is left to come, the slices so far, and a message that is complete. -/
def takeSlice (header : Bool) (left : Nat) (sl : List Word128) (w : Word128) : Nat × List Word128 × Option Msg :=
  if header then
    let n := (payloadBytes w + 15) / 16
    if hType w = 0 ∨ hType w = 0x3F then (left, sl, none)
    else if n = 0 then (0, [], some (msgOf [w]))
    else (n, [w], none)
  else
    match left with
    | 0 => (0, [], none)
    | 1 => (0, [], some (msgOf (sl ++ [w])))
    | n + 1 => (n, sl ++ [w], none)

/-- The four slices of a flit taken in order; `hm` names the headers, none where message lengths do. -/
def takeFlit (data : BitVec 512) (hm : Option Nat) (left : Nat) (sl : List Word128) : Nat × List Word128 × List Msg :=
  (List.range 4).foldl (fun a k =>
    let w := BitVec.ofNat 128 (data.toNat / 2 ^ (128 * k))
    let header := match hm with
      | some m => bit m k
      | none => a.1 == 0
    let r := takeSlice header a.1 a.2.1 w
    (r.1, r.2.1, a.2.2 ++ r.2.2.toList)) (left, sl, [])

end Sys2Proof.Machine
end

