-- ==== Sys2Proof/Machine/Memory.lean ====
section
/-! DEFINITION. Accesses to the memories by address (R166 to R195): what a request reads and writes, the rounds of a
bank, ECC, scrub and the power states of the banks. -/

namespace Sys2Proof.Machine

/-! ### One access -/

/-- Byte a as a read sees it: a semaphore reads as its count in 8 bytes (R259). -/
def State.byteAt (s : State) (a : Nat) : Byte :=
  match placeOf a with
  | .sem n => byteOf (s.semCount n) (a % 8)
  | _ => s.byte a

/-- n bytes from a through `byteAt`. -/
def State.loadBytes (s : State) (a : Nat) : Nat → Nat
  | 0 => 0
  | n + 1 => (s.byteAt a).toNat + 256 * s.loadBytes (a + 1) n

/-- The 8 KiB of a dictionary mailbox as a read sees them: OD_CMD without GO, OD_STATUS, DATA (R492, R576). -/
def Mailbox.image (m : Mailbox) : Nat :=
  m.cmd + (m.rlen * 2 ^ 16 + b2n m.busy * 2 ^ 9 + b2n m.done * 2 ^ 8 + m.err) * 2 ^ 64 + m.data * 2 ^ 32768

/-- OD_CMD without GO; its HELD field [48:24] reads 0 (R8, R492). -/
def cmdHeld (w : Nat) : Nat := setBits w 48 24 0 % 2 ^ 63

/-- A mailbox register written: a write to OD_CMD while BUSY is ignored, one with GO begins an access; DONE clears
where 1 is written (R492). -/
def Mailbox.write (m : Mailbox) (off n v : Nat) : Mailbox :=
  if 0x1000 ≤ off then { m with data := setBits m.data (8 * (off % 0x1000 + n) - 1) (8 * (off % 0x1000)) v }
  else if off < 8 then
    let w := setBits m.cmd (8 * (off + n) - 1) (8 * off) v
    if m.busy then m
    else { m with cmd := cmdHeld w, busy := bit w 63, done := m.done && !bit w 63 }
  else if off ≤ 9 ∧ 9 < off + n ∧ bit (v / 256 ^ (9 - off)) 0 then { m with done := false }
  else m

/-- What a read of n bytes returns. -/
def State.load (s : State) (addr n : Nat) : Nat :=
  match placeOf addr with
  | .sem _ => s.loadBytes (addrBase addr) n
  | .window off => s.host.window.image / 256 ^ off % 256 ^ n
  | _ => s.rd (addrBase addr) n

/-- Crown's write into the semaphore region: each covered byte is replaced in its count's word (R259). -/
def State.storeSem (s : State) (a v : Nat) : Nat → State
  | 0 => s
  | n + 1 =>
    let sem := a % 2 ^ 36 / 8
    (s.setSem sem (setBits (s.semCount sem) (8 * (a % 8) + 7) (8 * (a % 8)) (v % 256) % 2 ^ 32)).storeSem (a + 1)
      (v / 256) n

/-- What a normal-mode write of n bytes does (R166). -/
def State.store (s : State) (addr n v : Nat) : State :=
  let a := addrBase addr
  match placeOf addr with
  | .sem _ => s.storeSem a v n
  | .window off => { s with host := { s.host with window := s.host.window.write off n v } }
  | _ => s.wr a n v

/-- What an access answers: its response code (R182), the data it returns, and the state after it. -/
structure Answer where
  code : Nat
  data : Nat
  s : State

/-- An atomic write of a word in mode SET (1) or CLR (2): a read, then a write (R166, R169). A word that the read finds
uncorrectable gives POISON and is not changed (R186). -/
def State.atomicAt (s : State) (mode a v : Nat) : Answer :=
  let old := s.rd a 8
  let new := if mode = 1 then Nat.lor old (v % 2 ^ 64) else Nat.land old (2 ^ 64 - 1 - v % 2 ^ 64)
  let s1 := s.eccRead a 8
  if s.poisoned a 8 then ⟨6, old, s1⟩ else ⟨0, old, s1.wr a 8 new⟩

/-- The kind of a write by the mode of its address (R166). -/
def writeKind (addr : Nat) : AccKind :=
  if (placeOf addr).isSram ∧ addrMode addr = 1 then .set
  else if (placeOf addr).isSram ∧ addrMode addr = 2 then .clr
  else .write

/-- A write access that meets no other: its response code (R182), and the state after it; a bank asleep is woken (R190). -/
def State.writeAccess (s : State) (who : Req) (addr n v : Nat) : Nat × State :=
  let c := s.accessCode who addr n .write
  if c ≠ 0 then (c, s)
  else
    let s1 := s.wakeSpan addr n
    match writeKind addr with
    | .set => let r := s1.atomicAt 1 (addrBase addr) v; (r.code, r.s)
    | .clr => let r := s1.atomicAt 2 (addrBase addr) v; (r.code, r.s)
    | _ => (0, s1.store addr n v)

/-- A read access that meets no other: its response code and data (R182), and the state after it. An uncorrectable word
gives POISON with the stored bits. -/
def State.readAccess (s : State) (who : Req) (addr n : Nat) : Nat × Nat × State :=
  let c := s.accessCode who addr n .read
  if c ≠ 0 then (c, 0, s)
  else
    let s1 := (s.eccRead (addrBase addr) n).wakeSpan addr n
    (if s.poisoned (addrBase addr) n then 6 else 0, s.load addr n, s1)

/-! ### Waiting for a bank -/

/-- Whether an access at an address must wait for a wake or a zero-scrub (R190 to R192). -/
def State.asleepAt (s : State) (addr : Nat) : Bool :=
  match placeOf addr with
  | .bank b =>
    let x := s.bank b
    x.powering || x.st == .retain || x.retained.contains (macroOf b addr)
  | _ => false

/-- The banks that n bytes from an address lie in, with the address found in each. -/
def banksAt (addr n : Nat) : List (Nat × Nat) :=
  (probes (2 ^ 16) addr n).filterMap (fun a => match placeOf a with
    | .bank b => some (b, a)
    | _ => none)

/-- Whether an access must wait. -/
def State.mustWait (s : State) (r : MemReq) : Bool := (banksAt r.addr r.len).any (fun e => s.asleepAt e.2)

/-- The wake of what an access waits for, begun: of a bank in RETAIN whole, of a retained macro alone (R190, R191). -/
def State.beginWake (s : State) (b a : Nat) : State :=
  let x := s.bank b
  if x.powering then s
  else if x.st = .retain then s.setBank b { x with waking := true }
  else if x.retained.contains (macroOf b a) && !x.macroWake.contains (macroOf b a) then
    s.setBank b { x with macroWake := x.macroWake ++ [macroOf b a] }
  else s

/-- The state with an access waiting at its bank, whose wake has begun. -/
def State.stall (s : State) (x : MemAccess) : State :=
  let bs := banksAt x.req.addr x.req.len
  let late := bs.any (fun e => (s.bank e.1).st != (s.bank e.1).req)
  bs.foldl (fun st e => st.beginWake e.1 e.2) { s with stalled := s.stalled ++ [⟨x, late⟩] }

/-! ### Rounds of a sub-bank (R170 to R178) -/

/-- The place of a master in the order of its memory (R170, R179), 0 highest. -/
def masterRank : Master → Nat
  | .drain => 0 | .feeders => 1 | .loader => 2 | .vector => 3 | .dma => 4 | .crossbar => 4 | .sequencer => 5
  | .corePort i => i.val | .cantonDma => 9 | .ringPort => 10
  | .signalCore => 0 | .network => 1
  | .scrub => 11

/-- The rank of a master at bank b: at a canton memory of a partition whose LOCK_ACTIVE is 1, core ports stand in the order
of their logical core numbers (R288). -/
def State.rankAt (s : State) (b : Nat) (m : Master) : Nat :=
  match m with
  | .corePort i =>
    let o := sget s.bankOwner zeroD (b - 288)
    if 288 ≤ b ∧ b < 352 ∧ o ≠ 0 ∧ s.lockActive (o - 1) then
      let c := (b - 288) / 8
      let key := fun (j : Nat) => match s.coreHome (9 * c + j) with
        | some h => if h.1 = o - 1 then h.2 else 64 + j
        | none => 64 + j
      ((List.range 9).filter (fun j => key j < key i.val)).length
    else i.val
  | m => masterRank m

/-- The masters that issue only normal-mode accesses (R168). -/
def streamMaster : Master → Bool
  | .drain | .feeders | .loader | .vector => true
  | _ => false

/-- The part of a request that lies in one 64-byte row of a sub-bank: the request's place in its step, its address and
length, and for a write the 64-bit words still to be stored. -/
structure Part where
  n : Nat
  acc : MemAccess
  lo : Nat
  len : Nat
  left : List Nat
deriving DecidableEq, Repr

/-- The 64-bit words of n bytes from a. -/
def wordsOf (a n : Nat) : List Nat := (List.range ((a % 8 + n + 7) / 8)).map (fun i => a / 8 + i)

/-- The parts of a request, one for each 64 bytes that it touches. -/
def partsOf (n : Nat) (x : MemAccess) : List Part :=
  let a := addrBase x.req.addr
  (List.range ((a % 64 + x.req.len + 63) / 64)).map (fun i =>
    let row := a / 64 + i
    let lo := max a (64 * row)
    let hi := min (a + x.req.len) (64 * row + 64)
    ⟨n, x, lo, hi - lo, wordsOf lo (hi - lo)⟩)

/-- The key of a sub-bank: four to a large bank (R161). -/
def subKey (lo : Nat) : Nat :=
  match placeOf lo with
  | .bank b => 4 * b + (if b < 352 then lo / 64 % 4 else 0)
  | _ => 0

/-- The bytes of a write that lie in word w: address, length, value. -/
def Part.piece (x : Part) (w : Nat) : Nat × Nat × Nat :=
  let a := addrBase x.acc.req.addr
  let lo := max x.lo (8 * w)
  let hi := min (x.lo + x.len) (8 * w + 8)
  (lo, hi - lo, x.acc.req.data / 256 ^ (lo - a) % 256 ^ (hi - lo))

/-- Whether what is left of a write covers only whole words. -/
def Part.whole (x : Part) : Bool := x.left.all (fun w => (x.piece w).2.1 == 8)

/-- What is left of a write, stored. -/
def State.storePart (s : State) (x : Part) : State :=
  x.left.foldl (fun st w => let e := x.piece w; st.wr e.1 e.2.1 e.2.2) s

/-- The key of a master's count of lost rounds on a sub-bank. -/
def lostKey (k : Nat) (m : Master) : Nat := k * 16 + masterRank m

/-- Whether a master is aged on a sub-bank (R171): scrub never is. -/
def State.agedAt (s : State) (k : Nat) (m : Master) : Bool :=
  m != .scrub && decide (64 ≤ sget s.lost zeroD (lostKey k m))

/-- The request of each master that stands in a round of sub-bank k: its first; in the DMA class, where both wait, the one
of the core's own DMA and the crossbar that did not go last (R170). -/
def State.standing (s : State) (k : Nat) (ps : List Part) : List Part :=
  let rank := fun (x : Part) => s.rankAt (k / 4) x.acc.req.master
  (List.range 12).filterMap (fun i =>
    let mine := ps.filter (fun x => rank x == i)
    let turn := if sget s.dmaLast zeroD k = 1 then Master.crossbar else .dma
    match mine.find? (fun x => i == 4 && k < 1152 && x.acc.req.master == turn) with
    | some x => some x
    | none => mine.head?)

/-- The order of a round: aged masters first, then by rank (R170, R171). -/
def State.ordered (s : State) (k : Nat) (ps : List Part) : List Part :=
  let l := s.standing k ps
  l.filter (fun x => s.agedAt k x.acc.req.master) ++ l.filter (fun x => !s.agedAt k x.acc.req.master)

/-- Visor's count of a round lost on bank b (R170, R512). -/
def State.countLost (s : State) (b : Nat) (m : Master) (part : Option Nat) : State :=
  if b < 288 then
    s.countCore (b / 4) (match m with
      | .drain => 0x10 | .feeders => 0x11 | .loader => 0x12 | .vector => 0x13 | .sequencer => 0x15 | .scrub => 0x16
      | _ => 0x14)
  else if b < 352 then
    s.countCanton ((b - 288) / 8) (match m with
      | .cantonDma => 0x11 | .ringPort => 0x12 | .scrub => 0x13
      | _ => 0x10) part
  else s

/-- Visor's count of a W_LOST at bank b (R177). -/
def State.countWLost (s : State) (b : Nat) (part : Option Nat) : State :=
  if b < 288 then s.countCore (b / 4) 0x18
  else if b < 352 then s.countCanton ((b - 288) / 8) 0x20 part
  else s

/-- What became of a part: when it was done, its response code, the data it read, and a word of it that was discarded. -/
structure PartDone where
  n : Nat
  cycle : Nat
  code : Nat
  lo : Nat
  data : Nat
  lost : Option Nat
deriving DecidableEq, Repr

/-- What one cycle of a sub-bank does: the state, what is done in it and what of the standing requests waits on. -/
structure Round where
  s : State
  done : List PartDone
  wait : List Part

/-- The writes of one cycle behind a winner's write to the same row, in priority order (R173, R176): `taken` holds the words
of the writes ahead, `whole` says whether the winner covers whole words only. What is discarded is lost, what is left is
merged or waits. -/
def State.merge (s : State) (cyc : Nat) (whole : Bool) (taken : List Nat) : List Part → Round
  | [] => ⟨s, [], []⟩
  | x :: t =>
    let lost := x.left.find? (fun w => taken.contains w)
    let y := { x with left := x.left.filter (fun w => !taken.contains w) }
    let merged := y.left.isEmpty || (whole && y.whole)
    let r := (if merged then s.storePart y else s).merge cyc whole (taken ++ x.left) t
    let d : PartDone := ⟨x.n, cyc, if lost.isSome then 1 else 0, x.lo, 0, lost⟩
    if merged then { r with done := d :: r.done }
    else { r with
      done := (if lost.isSome then [d] else []) ++ r.done
      wait := y :: r.wait }

/-- One cycle of a sub-bank whose winner is x: reads of its row are served with it (R172), writes to its row are merged or
discarded (R173, R176); an atomic, and a write of part of a word, has the sub-bank alone (R169, R173, R174). -/
def State.grant (s : State) (cyc : Nat) (x : Part) (rest : List Part) : Round :=
  let same := fun (y : Part) => y.acc.kind == x.acc.kind && y.lo / 64 == x.lo / 64
  match x.acc.kind with
  | .read =>
    let rs := x :: rest.filter same
    let ws := (rs.flatMap (·.left)).dedup
    ⟨ws.foldl (fun st w => st.eccRead (8 * w) 8) s,
      rs.map (fun y => ⟨y.n, cyc, if s.poisoned y.lo y.len then 6 else 0, y.lo, s.rd y.lo y.len, none⟩),
      rest.filter (fun y => !same y)⟩
  | .write =>
    let r := (s.storePart x).merge (if x.whole then cyc else cyc + 1) x.whole x.left (rest.filter same)
    ⟨r.s, ⟨x.n, if x.whole then cyc else cyc + 1, 0, x.lo, 0, none⟩ :: r.done, rest.filter (fun y => !same y) ++ r.wait⟩
  | k =>
    let r := s.atomicAt (if k = .set then 1 else 2) (x.lo / 8 * 8) x.acc.req.data
    ⟨r.s, [⟨x.n, cyc + 1, r.code, x.lo, r.data, none⟩], rest⟩

/-- A master that lost a round: counted in Visor, and one more of its rounds on the sub-bank (R171, R175). -/
def State.loses (s : State) (k : Nat) (x : Part) : State :=
  let m := x.acc.req.master
  let s1 := s.countLost (k / 4) m (Req.of x.acc.req.who).partOf
  { s1 with lost := sput s1.lost zeroD (lostKey k m) (sget s1.lost zeroD (lostKey k m) + 1) }

/-- A master that won a round, or shared it: its count of lost rounds restarts (R171); the DMA class takes turns (R170). -/
def State.wins (s : State) (k : Nat) (x : Part) : State :=
  let m := x.acc.req.master
  { s with
    lost := sput s.lost zeroD (lostKey k m) 0
    dmaLast := if m = .dma then sput s.dmaLast zeroD k 1 else if m = .crossbar then sput s.dmaLast zeroD k 0
      else s.dmaLast }

/-- The cycles of large sub-bank k until its parts `ps` are served, from cycle `cyc` on; each serves one at least. -/
def State.rounds (s : State) (k : Nat) : Nat → Nat → List Part → State × List PartDone
  | 0, _, _ => (s, [])
  | f + 1, cyc, ps =>
    match s.ordered k ps with
    | [] => (s, [])
    | x :: rest =>
      let r := s.grant cyc x rest
      let waits := fun (y : Part) => r.wait.any (fun z => z.n == y.n && z.lo == y.lo)
      let s1 := (x :: rest).foldl (fun st y => if waits y then st.loses k y else st.wins k y) r.s
      let next := (r.done.map (·.cycle)).foldl max cyc + 1
      let behind := ps.filter (fun y => !(x :: rest).any (fun z => z.n == y.n && z.lo == y.lo))
      let q := s1.rounds k f next (r.wait ++ behind)
      (q.1, r.done ++ q.2)

/-- The parts of a step in a large memory, sub-bank by sub-bank: no byte belongs to two. -/
def State.runLarge (s : State) (ps : List Part) : State × List PartDone :=
  ((ps.map (fun x => subKey x.lo)).dedup).foldl (fun (st : State × List PartDone) k =>
    let mine := ps.filter (fun x => subKey x.lo == k)
    let r := st.1.rounds k mine.length 0 mine
    (r.1, st.2 ++ r.2)) (s, [])

/-- The requests of one cycle to a small bank, served whole one after another; none is lost (R179, R180). -/
def State.runSmall (s : State) (cyc : Nat) : List (Nat × MemAccess) → State × List PartDone
  | [] => (s, [])
  | (n, x) :: t =>
    let a := addrBase x.req.addr
    let r : Answer := match x.kind with
      | .read => ⟨if s.poisoned a x.req.len then 6 else 0, s.rd a x.req.len, s.eccRead a x.req.len⟩
      | .write => ⟨0, 0, s.wr a x.req.len x.req.data⟩
      | k => s.atomicAt (if k = .set then 1 else 2) a x.req.data
    let q := r.s.runSmall (cyc + 1) t
    (q.1, ⟨n, cyc, r.code, a, r.data, none⟩ :: q.2)

/-! ### The accesses of one cycle -/

/-- An access as it counts: the mode of a write's address makes it an atomic, an atomic's kind its mode (R166). -/
def settledAccess (x : MemAccess) : MemAccess :=
  match x.kind with
  | .write => { x with kind := writeKind x.req.addr }
  | .set => { x with req := { x.req with addr := addrBase x.req.addr + 2 ^ 48 } }
  | .clr => { x with req := { x.req with addr := addrBase x.req.addr + 2 * 2 ^ 48 } }
  | .read => x

/-- Whether a master issues such an access at all: stream masters issue normal-mode ones, feeders and weight loader only
reads (R168, R178). -/
def issuedAccess (x : MemAccess) : Bool :=
  !(streamMaster x.req.master && (x.kind == .set || x.kind == .clr)) &&
    !((x.req.master == .feeders || x.req.master == .loader) && x.kind == .write)

/-- The response of R182 to an access before any memory is reached. -/
def State.judged (s : State) (x : MemAccess) : Nat :=
  s.accessCode (Req.of x.req.who) x.req.addr x.req.len (if x.kind = .read then .read else .write)

/-- A discarded write's count and notice (R176, R177). -/
def State.wLost (s : State) (r : MemReq) (word : Nat) : State :=
  let b := match placeOf (8 * word) with
    | .bank b => b
    | _ => 0
  let s1 := s.countWLost b (Req.of r.who).partOf
  if r.seq then s1.warn 0x0100 (Req.of r.who).partOf 1 r.core (8 * word) else s1

/-- A response: the request's place in its step, its cycle, its code and data, and the first word that it lost. -/
structure MemAnswer where
  n : Nat
  cycle : Nat
  acc : MemAccess
  code : Nat
  data : Nat
  lost : Option Nat

/-- The response to request n once all its parts are done: its lowest code (R182), what it read, the first word it lost. -/
def respond (n : Nat) (x : MemAccess) (ds : List PartDone) : Option MemAnswer :=
  let mine := ds.filter (fun d => d.n == n)
  if mine.isEmpty then none
  else
    some ⟨n, (mine.map (·.cycle)).foldl max 0, x, leastCode (mine.map (fun d => (d.code != 0, d.code))),
      (mine.map (fun d => d.data * 256 ^ (d.lo - addrBase x.req.addr))).sum, (mine.filterMap (·.lost)).head?⟩

/-- Responses in the order in which they leave a port (R578): the oldest first, of one cycle the lowest requester number
first. -/
def responseOrder (l : List MemAnswer) : List MemAnswer :=
  l.foldr (fun x acc => acc.orderedInsert
    (fun a b => a.cycle < b.cycle ∨ (a.cycle = b.cycle ∧ a.acc.req.core ≤ b.acc.req.core)) x) []

/-- Whether an access is to a small bank (R179). -/
def smallAccess (x : MemAccess) : Bool :=
  match placeOf x.req.addr with
  | .bank b => decide (352 ≤ b)
  | _ => false

/-- An access outside the banks: it meets no other. -/
def State.aloneAccess (s : State) (x : MemAccess) : Answer :=
  match x.kind with
  | .read => let r := s.readAccess (Req.of x.req.who) x.req.addr x.req.len; ⟨r.1, r.2.1, r.2.2⟩
  | _ => let r := s.writeAccess (Req.of x.req.who) x.req.addr x.req.len x.req.data; ⟨r.1, 0, r.2⟩

/-- The accesses that ask for the memories in one cycle: each is refused (R182), waits for its bank (R190 to R192), or is
served in the rounds of its sub-banks; the state and the responses in turn (R578). DESIGN CHOICE (log 148): a refusal is of the
first cycle, and a requester's number is that of its core. -/
def State.memServe (s : State) (l : List MemAccess) : State × List MemAnswer :=
  let xs := ((l.filter issuedAccess).map settledAccess)
  let nx := (List.range xs.length).zip xs
  let bad := nx.filter (fun e => s.judged e.2 != 0)
  let good := nx.filter (fun e => s.judged e.2 == 0)
  let wait := good.filter (fun e => s.mustWait e.2.req)
  let go := good.filter (fun e => !s.mustWait e.2.req)
  let out := go.filter (fun e => !(placeOf e.2.req.addr).isSram)
  let small := go.filter (fun e => smallAccess e.2)
  let large := go.filter (fun e => (placeOf e.2.req.addr).isSram && !smallAccess e.2)
  let s1 := wait.foldl (fun st e => st.stall e.2) s
  let o := out.foldl (fun (st : State × List PartDone) e =>
    let r := st.1.aloneAccess e.2
    (r.s, st.2 ++ [⟨e.1, 0, r.code, addrBase e.2.req.addr, r.data, none⟩])) (s1, [])
  let b := o.1.runLarge (large.flatMap (fun e => partsOf e.1 e.2))
  let m := b.1.runSmall 0 (small.filter (fun e => e.2.req.master == .signalCore) ++
    small.filter (fun e => e.2.req.master != .signalCore))
  let ds := bad.map (fun e => ⟨e.1, 0, s.judged e.2, addrBase e.2.req.addr, 0, none⟩) ++ o.2 ++ b.2 ++ m.2
  (m.1, responseOrder (nx.filterMap (fun e => respond e.1 e.2 ds)))

/-- A discarded word of a response counted (R176, R177). -/
def State.noteLost (s : State) (e : MemAnswer) : State :=
  match e.lost with
  | some w => s.wLost e.acc.req w
  | none => s

/-- A response sent to its requester. -/
def State.respondTo (s : State) (e : MemAnswer) : State :=
  (s.noteLost e).emit (.memResp e.acc.req.master e.acc.req.core e.code e.data)

/-- The accesses of one cycle, their responses sent. -/
def State.memCycle (s : State) (l : List MemAccess) : State :=
  let r := s.memServe l
  r.2.foldl State.respondTo r.1

/-- A POST's write of signal core g, beside the accesses `others` of its cycle: its response code and the state. It comes by the
crossbar, the ring or the on-die network to the memory it names (R170, R179); where it must wait for its bank, it is
done when that is awake, alone (R349; log 148). -/
def State.postWrite (s : State) (g addr n data : Nat) (others : List MemAccess) : Nat × State :=
  let master : Master := match placeOf addr with
    | .bank b => if b < 288 then .crossbar else if b < 352 then .ringPort else .network
    | _ => .network
  let r : MemReq := ⟨master, .part 0, 72 + g, false, addr, n, data⟩
  if s.mustWait r then
    let q := s.writeAccess (.part 0) addr n data
    (q.1, q.2.memCycle others)
  else
    let q := s.memServe (⟨.write, r⟩ :: others)
    let mine := q.2.find? (fun e => e.n == 0)
    ((mine.map (·.code)).getD 0,
      q.2.foldl (fun st e => if e.n = 0 then st.noteLost e else st.respondTo e) q.1)

/-- A new error in the cells of the word at a (R185, R186): a hardware event. Which bits a double-bit error leaves stored
is not in the spec: the word's stored bits are then a free value (log 4). A row whose valid bit is clear reads as zeros and
is not checked, whatever its cells (R193). -/
def State.upset (s : State) (a : Nat) (u : Upset) : State :=
  if u = .none ∨ ¬ s.rowChecked a then s else
  let d : Nat → EccErr := fun _ => .none
  let old := sget s.ecc d (a / 8)
  let new := if u = .single ∧ old = .none then EccErr.single else .double
  let s1 := { s with ecc := sput s.ecc d (a / 8) new }
  if new = .double then { s1.takeFree.2 with mem := writeMem s1.mem (a / 8 * 8) 8 s1.takeFree.1 } else s1

/-! ### The steps -/

/-- MEM_WRITE (R173, R176, R182), with the other accesses that ask for the memories in its cycle. -/
def execMemWrite (r : MemReq) (others : List MemAccess) (s : State) : Host.Outcome State Fault Refusal :=
  .next (s.memCycle (⟨.write, r⟩ :: others))

/-- SET_WRITE (R169): masters that issue only normal accesses have no such step (R168). -/
def execSetWrite (r : MemTurn) (s : State) : Host.Outcome State Fault Refusal :=
  .next (s.memCycle (⟨.set, r.req⟩ :: r.others))

/-- CLR_WRITE (R169). -/
def execClrWrite (r : MemTurn) (s : State) : Host.Outcome State Fault Refusal :=
  .next (s.memCycle (⟨.clr, r.req⟩ :: r.others))

/-- MEM_READ (R172, R182, R185, R186, R190): cells as hardware finds them, then the round, then the responses. -/
def execMemRead (r : MemTurn) (u : Upset) (s : State) : Host.Outcome State Fault Refusal :=
  .next ((s.upset (addrBase r.req.addr) u).memCycle (⟨.read, r.req⟩ :: r.others))

/-- ECC_WRITE_BACK (R185). -/
def execEccWriteBack (word : Nat) (s : State) : Host.Outcome State Fault Refusal :=
  .next (if s.writeBack.contains word then
    { s with
      writeBack := s.writeBack.filter (fun w => w ≠ word)
      ecc := sput s.ecc (fun _ => EccErr.none) word .none }
    else s)

/-- A scrub of the next row of a bank (R187): its errors corrected or counted; a retained macro is passed by (R191). -/
def State.scrub (s : State) (b : Nat) (u : Upset) : State :=
  let x := s.bank b
  if x.st ≠ .on ∨ x.powering then s
  else
    let a := bankStart b + x.scrubRow * rowBytes b
    let next := (x.scrubRow + 1) % bankRows b
    let s1 := if x.retained.contains (x.scrubRow * rowBytes b / 2 ^ 16) then s
      else (s.upset a u).eccRead a (rowBytes b)
    s1.setBank b { s1.bank b with scrubRow := next, starved := (s1.bank b).starved && decide (next ≠ 0) }

/-- SCRUB_READ (R187). -/
def execScrubRead (bank : Fin 480) (u : Upset) (s : State) : Host.Outcome State Fault Refusal :=
  .next (s.scrub bank.val u)

/-- The partition whose tiles a forced scrub round of bank b may not interrupt: the owner of a large bank, where it has
REFRESH_ALIGN (R286, R288). -/
def State.alignsScrub (s : State) (b : Nat) : Option Nat :=
  (if b < 288 then s.coreOwner (b / 4)
   else if b < 352 then (let o := sget s.bankOwner zeroD (b - 288); if o = 0 then none else some (o - 1))
   else none).filter s.refreshAlign

/-- SCRUB_FORCED_ROUND (R171, R188, R286, R288, R289): the same read, ahead of every other master. For a partition with
REFRESH_ALIGN it is taken only while its cores are at tile boundaries, where the device needs them meanwhile; the gap is
counted. -/
def execScrubForcedRound (bank : Fin 480) (u : Upset) (s : State) : Host.Outcome State Fault Refusal :=
  .next (match s.alignsScrub bank.val with
    | none => s.scrub bank.val u
    | some k =>
      if s.allAtBoundary k then
        ((s.scrub bank.val u).countGap k [if bank.val < 288 then bank.val / 36 else (bank.val - 288) / 8]).needPart k .scrub
          false
      else s.needPart k .scrub true)

/-- MASTER_AGED (R171): the master's 64th lost round in a row, the rounds among accesses that no command shows counted
with those that `lost` holds. Scrub does not age, and a small bank has no rounds. -/
def execMasterAged (bank : Fin 480) (sub : Fin 4) (m : Master) (s : State) : Host.Outcome State Fault Refusal :=
  let k := lostKey (4 * bank.val + sub.val) m
  .next (if m = .scrub ∨ 352 ≤ bank.val then s
    else { s with lost := sput s.lost zeroD k (max 64 (sget s.lost zeroD k)) })

/-- SMALL_BANK_WAIT (R181). -/
def execSmallBankWait (g : SigId) (addr : Nat) (s : State) : Host.Outcome State Fault Refusal :=
  .next ((s.countDev 0x011 (some 0)).warn 0x0101 (some 0) 2 g.val addr)

/-- SCRUB_STARVED (R188): once for a bank until a pass completes. -/
def execScrubStarved (g : SigId) (b : Fin 4) (s : State) : Host.Outcome State Fault Refusal :=
  let n := 352 + 4 * g.val + b.val
  .next (if (s.bank n).starved then s
    else ((s.setBank n { s.bank n with starved := true }).countDev 0x014 (some 0)).warn 0x0108 (some 0) 2 g.val
      (g.val * 256 + b.val))

/-- Whether an access waits at bank b. -/
def Stalled.at_ (x : Stalled) (b : Nat) : Bool := (banksAt x.acc.req.addr x.acc.req.len).any (fun e => e.1 == b)

/-- The accesses that wait at bank b ask for it again, all in one cycle; one that still has to wait does. -/
def State.release (s : State) (b : Nat) : State :=
  ({ s with stalled := s.stalled.filter (fun (x : Stalled) => !x.at_ b) }).memCycle
    ((s.stalled.filter (fun (x : Stalled) => x.at_ b)).map (fun (x : Stalled) => x.acc))

/-- BANK_WAKE_DONE (R190, R191): the bank, or the macro whose wake began first, is awake, and what waits for it proceeds. -/
def execBankWakeDone (bank : Fin 480) (s : State) : Host.Outcome State Fault Refusal :=
  let b := bank.val
  let x := s.bank b
  .next (if x.st = .retain then
    (if x.waking then
      (s.setBank b { x with st := .on, req := .on, waking := false, retained := [], macroWake := [] }).release b
     else s)
  else
    match x.macroWake with
    | [] => s
    | m :: _ => (s.wakeMacro b m).release b)

/-- MACRO_RETENTION (R191). -/
def execMacroRetention (bank : Fin 480) (m : Fin 16) (s : State) : Host.Outcome State Fault Refusal :=
  let x := s.bank bank.val
  .next (if x.st = .on ∧ s.autoRet bank.val ∧ m.val < bankMacros bank.val ∧ ¬ x.retained.contains m.val then
    s.setBank bank.val { x with retained := m.val :: x.retained }
  else s)

/-- The content and check bits of a bank lost (R189). -/
def State.loseBank (s : State) (b : Nat) : State :=
  let n := bankRows b * rowBytes b
  let a := bankStart b
  { s with
    mem := zeroMem s.mem a n
    ecc := sclear s.ecc (fun w => decide (a ≤ 8 * w ∧ 8 * w < a + n))
    writeBack := s.writeBack.filter (fun w => !decide (a ≤ 8 * w ∧ 8 * w < a + n)) }

/-- BANK_STATE_CHANGE (R192): a requested change takes effect where no access that came before it is waiting; those that
came later then meet the new state. Leaving OFF begins the power-up, leaving RETAIN for ON the wake. -/
def execBankStateChange (bank : Fin 480) (s : State) : Host.Outcome State Fault Refusal :=
  let b := bank.val
  let x := s.bank b
  let waiting := s.stalled.any (fun w => w.at_ b && !w.late)
  .next (if x.st = x.req ∨ x.powering then s
    else
      match x.st, x.req with
      | .off, _ => s.setBank b { x with powering := true }
      | .retain, .on => s.setBank b { x with waking := true }
      | _, .retain =>
        if waiting then s
        else (s.setBank b { x with st := .retain, waking := false, retained := [], macroWake := [] }).release b
      | _, .off =>
        if waiting then s
        else ((s.loseBank b).setBank b { x with st := .off, retained := [], macroWake := [], waking := false,
                                                cleared := true, valid := [] }).release b
      | _, .on => s)

/-- BANK_POWER_UP_DONE (R192, R193). -/
def execBankPowerUpDone (bank : Fin 480) (s : State) : Host.Outcome State Fault Refusal :=
  let b := bank.val
  .next (if (s.bank b).powering then
    let s1 := s.powerUp b
    if (s1.bank b).st = .on then s1.release b
    else if s1.stalled.any (fun w => w.at_ b) then
      s1.setBank b { s1.bank b with waking := true }
    else s1
  else s)

/-- SEMAPHORE_CROWN_WRITE (R259): Crown's write to semaphore words. An address outside the region is not this step. -/
def execSemaphoreCrownWrite (addr len data : Nat) (s : State) : Host.Outcome State Fault Refusal :=
  .next (match placeOf addr with
    | .sem _ => let w := s.writeAccess .crown addr len data
                w.2.emit (.memResp .network 0 w.1 0)
    | _ => s)

end Sys2Proof.Machine
end

