-- ==== Sys2Proof/Machine/Movement.lean ====
section
/-! DEFINITION. DMA engines, transfer descriptors, the light path, crossing claims (R217 to R228, R451, R452, R577), and
the external actions of Mitten pairs (R517, R518). -/

namespace Sys2Proof.Machine

/-! ### Messages (R427, R428) -/

/-- The unit that an address names for its role (R441): cores 0 to 71, canton banks from 72, semaphore groups from 136,
HBM segments from 144; none where no role is checked (R442). -/
def unitOf (addr : Nat) : Option Nat :=
  match placeOf addr with
  | .bank b => if b < 288 then some (b / 4) else if b < 352 then some (72 + (b - 288)) else none
  | .sem n => some (136 + n / 8192)
  | .hbm g => some (144 + g)
  | _ => none

/-- The role generation that this node's remote role table holds for a unit of a node (R443). -/
def State.remoteRole (s : State) (node addr : Nat) : Nat :=
  match unitOf addr with
  | some u => sget s.fab.roles zeroD (node * 256 + u)
  | none => 0

/-- A tag that is free among the requests outstanding to a node, none at 1,024 (R428). -/
def State.freeTag (s : State) (node : Nat) : Option Nat :=
  (List.range 1024).find? (fun t => !s.fab.outst.any (fun o => o.node == node && o.tag == t))

/-- A request sent to another node, and kept until its response; none while 1,024 are outstanding there (R428). -/
def State.request (s : State) (node vc mtype addr len payload : Nat) (origin : ReqFrom) : Option State :=
  (s.freeTag node).map (fun tag =>
    let m : Msg := ⟨mkHdr vc mtype node s.nodeId (s.remoteRole node addr) tag len addr, payload⟩
    ({ s with fab := { s.fab with outst := s.fab.outst ++ [Outst.mk node tag origin m 0] } }).post m)

/-! ### External actions of a pair (R517, R518) -/

/-- A global address as a digest folds it: an address in the core's own scratchpad by its offset (R517). -/
def State.foldAddr (s : State) (p ga : Nat) : Nat :=
  if ga / 2 ^ 52 = s.nodeId ∧ spBase p ≤ addrBase (ga % 2 ^ 52) ∧ addrBase (ga % 2 ^ 52) < spBase (p + 1) then
    addrBase (ga % 2 ^ 52) - spBase p
  else ga

/-- An external action held by a core of a pair: its terms enter the tile digest (R517, R518). -/
def State.holdAct (s : State) (p : Nat) (words : List Nat) (a : HeldAct) : State :=
  s.modCoreAt p (fun c =>
    { c with
      held := c.held ++ [a]
      actNo := c.actNo + 1
      tileDigest := ((words.zip (List.range words.length)).foldl
        (fun d x => d + term 0xFFFFFFFE (16 * c.actNo + x.2) x.1) c.tileDigest) % 2 ^ 64 })

/-- A command's two 64-bit halves, the low one first (log 30). -/
def halves (cmd : Nat) : List Nat := [cmd % 2 ^ 64, cmd / 2 ^ 64 % 2 ^ 64]

/-! ### Descriptors (R218 to R222) -/

/-- Source and destination global addresses. -/
def dmaSrc (d : Nat) : Nat := bits d 511 448
def dmaDst (d : Nat) : Nat := bits d 447 384

/-- OP. -/
def dmaOp (d : Nat) : Nat := bits d 7 4

/-- Queue depth of an engine (R217). -/
def dmaDepth (e : Nat) : Nat := if e < 72 then 8 else if e < 80 then 32 else 64

/-- The queue of an engine. -/
def State.dmaQ (s : State) (e : Nat) : List Dma := sget s.dmas (fun _ => []) e

/-- The state with an engine's queue replaced. -/
def State.setDmaQ (s : State) (e : Nat) (l : List Dma) : State := { s with dmas := sput s.dmas (fun _ => []) e l }

/-- The state with the head of an engine's queue replaced. -/
def State.setDmaHead (s : State) (e : Nat) (d : Dma) : State := s.setDmaQ e (d :: (s.dmaQ e).tail)

/-- A descriptor accepted into an engine's queue. -/
def State.submitDma (s : State) (e desc : Nat) (p : Nat) : State :=
  s.setDmaQ e (s.dmaQ e ++ [⟨desc, some p, (s.coreAt p).job, s.coreOwner p, false, false, false, 0, 0, 0⟩])

/-- A descriptor of Crown's, from Crown's own memory (R218). -/
def State.submitCrown (s : State) (e desc : Nat) : State :=
  s.setDmaQ e (s.dmaQ e ++ [⟨desc, none, none, none, false, false, false, 0, 0, 0⟩])

/-- The requester behind a descriptor. -/
def Dma.req (d : Dma) : Req :=
  match d.by_, d.part with
  | none, _ => .crown
  | _, some k => .part k
  | _, none => .nobody

/-- The runs of a descriptor: source and destination of each (R219), modulo the address space. -/
def dmaRuns (d : Nat) : List (Nat × Nat) :=
  (List.range (bits d 167 152)).flatMap (fun k2 => (List.range (bits d 151 136)).map (fun k1 =>
    ((((dmaSrc d : Int) + k2 * sbits d 319 288 + k1 * sbits d 383 352) % 2 ^ 64).toNat,
     (((dmaDst d : Int) + k2 * sbits d 287 256 + k1 * sbits d 351 320) % 2 ^ 64).toNat)))

/-- Bytes per run. -/
def dmaLen (d : Nat) : Nat := bits d 135 112

/-- Whether a run of n bytes lies whole in the SRAM regions, judged by the node-local address (R220). -/
def sramRun (a n : Nat) : Bool :=
  (placeOf (a % 2 ^ 52)).isSram && (placeOf ((a + (n - 1)) % 2 ^ 52)).isSram

/-- DMA_DESC (R222). -/
def dmaDescBad (d : Nat) : Bool :=
  let op := dmaOp d
  let mode := addrMode (dmaDst d % 2 ^ 52)
  bits d 191 168 != 0 || bits d 111 100 != 0 || bits d 15 13 != 0 || decide (2 < op) || bits d 3 0 != 1 ||
    bits d 167 152 == 0 || bits d 151 136 == 0 || dmaLen d == 0 ||
    (op == 1 && (dmaSrc d != 0 || bits d 383 352 != 0 || bits d 319 288 != 0)) ||
    (op != 1 && bits d 255 192 != 0) ||
    ((mode == 1 || mode == 2) && (op == 2 || dmaLen d != 8 ||
      !(dmaRuns d).all (fun r => r.2 % 8 == 0))) ||
    (op == 2 && (dmaLen d % 16 != 0 || dmaSrc d % 16 != 0 || dmaDst d % 16 != 0 || bits d 383 352 % 16 != 0 ||
      bits d 351 320 % 16 != 0 || bits d 319 288 % 16 != 0 || bits d 287 256 % 16 != 0 ||
      !(dmaRuns d).all (fun r => sramRun r.2 (dmaLen d))))

/-- Whether every byte of a descriptor's source or destination side lies in a node, or in a core's scratchpad there. -/
def sideAt (runs : List Nat) (n node : Nat) : Bool :=
  runs.all (fun a => a / 2 ^ 52 == node && (a + (n - 1)) / 2 ^ 52 == node)
def inCore (runs : List Nat) (n node p : Nat) : Bool :=
  sideAt runs n node && runs.all (fun a =>
    let b := addrBase (a % 2 ^ 52)
    decide (spBase p ≤ b) && decide (b + n ≤ spBase (p + 1)))

/-- DMA_REACH (R217, R577's note on FILL). -/
def State.dmaReachBad (s : State) (e d : Nat) : Bool :=
  let n := dmaLen d
  let src := (dmaRuns d).map (·.1)
  let dst := (dmaRuns d).map (·.2)
  let me := s.nodeId
  let fill := dmaOp d == 1
  if e < 72 then
    if fill then !sideAt dst n me
    else !(sideAt src n me && sideAt dst n me && (inCore src n me e || inCore dst n me e))
  else if e < 80 then !(sideAt dst n me && (fill || sideAt src n me))
  else
    let far := fun (l : List Nat) => sideAt l n (l.headD 0 / 2 ^ 52) && l.headD 0 / 2 ^ 52 != me
    if fill then !far dst else !((far src && sideAt dst n me) || (far dst && sideAt src n me))

/-- DMA_OVERLAP: a source byte that is a destination byte (R222). -/
def dmaOverlap (d : Nat) : Bool :=
  let n := dmaLen d
  let base := fun (a : Nat) => a / 2 ^ 52 * 2 ^ 52 + addrBase (a % 2 ^ 52)
  dmaOp d != 1 && (dmaRuns d).any (fun r => (dmaRuns d).any (fun q =>
    decide (base r.1 < base q.2 + n) && decide (base q.2 < base r.1 + n)))

/-- A semaphore that the submitting partition does not own (R222, R244). -/
def State.dmaSemDenied (s : State) (x : Dma) : Bool :=
  x.by_.isSome &&
    ((bit x.desc 10 && s.semPart (bits x.desc 31 16) != x.part) ||
      (bit x.desc 11 && s.semPart (bits x.desc 47 32) != x.part))

/-- The status that refuses a descriptor, 0 where it passes (R222). -/
def State.dmaCheck (s : State) (e : Nat) (x : Dma) : Nat :=
  if dmaDescBad x.desc then 8
  else if s.dmaReachBad e x.desc then 9
  else if dmaOverlap x.desc then 10
  else if s.dmaSemDenied x then 3
  else 0

/-! ### DMA decoded (R218, R238, R258) -/

/-- Whether a descriptor of core p is an external action (R518). -/
def State.dmaExternal (s : State) (p eng d : Nat) : Bool :=
  eng != 0 || !inCore ((dmaRuns d).map (·.2)) (dmaLen d) s.nodeId p

/-- The eight words of a descriptor as a pair's digest folds them. -/
def State.dmaWords (s : State) (p d : Nat) : List Nat :=
  let d1 := setBits (setBits d 511 448 (s.foldAddr p (dmaSrc d))) 447 384 (s.foldAddr p (dmaDst d))
  let comp := s.foldAddr p (s.nodeId * 2 ^ 52 + bits d 99 48)
  let d2 := setBits d1 99 48 comp
  (List.range 8).map (fun i => bits d2 (64 * i + 63) (64 * i))

/-- DMA decoded: the descriptor is read, then queued at the engine named; a full queue stalls decode. -/
def decodeDma (p : CoreId) (s : State) (cmd : Nat) : DecR :=
  let c := s.core p
  let eng := bits cmd 119 118
  let e := if eng = 0 then p.val else if eng = 1 then 72 + p.val / 9 else 80 + bits cmd 117 116
  let field := bits cmd 98 0 != 0 || eng == 3 || (eng != 2 && bits cmd 117 116 != 0)
  if eng ≠ 3 ∧ dmaDepth e ≤ (s.dmaQ e).length then .stall
  else
    match c.effOffset (bit cmd 99) (64 * bits cmd 115 100) with
    | none => orFault [(field, 0x02), (true, 0x03)] .stall
    | some off =>
      let d := s.rd (spBase p.val + off) 64
      s.seqRead [(spBase p.val + off, 64)] [(field, 0x02)] (fun s =>
        orFault [(field, 0x02)]
          (.ok (if s.inPair p.val ∧ s.dmaExternal p.val eng d then
              s.holdAct p.val (halves cmd ++ s.dmaWords p.val d) (.dma e d)
            else s.submitDma e d p.val)))

/-- DMA: a core's command decoded, or a descriptor that Crown submits; a full queue holds either back (R217, R218). -/
def execDma (by_ : DmaFrom) (s : State) : Host.Outcome State Fault Refusal :=
  .next (match by_ with
    | .core p => s.decodeCmd p 0x20 (decodeDma p)
    | .crown e d => if dmaDepth e.val ≤ (s.dmaQ e.val).length then s else s.submitCrown e.val (d % 2 ^ 512))

/-! ### Crossing claims (R451, R452) -/

/-- The claims at core p's scratchpad. -/
def State.claim (s : State) (p : Nat) : ClaimSt := sget s.fab.claims (fun _ => ClaimSt.none) p

/-- The state with those claims replaced. -/
def State.setClaim (s : State) (p : Nat) (c : ClaimSt) : State :=
  { s with fab := { s.fab with claims := sput s.fab.claims (fun _ => ClaimSt.none) p c } }

/-- The core whose scratchpad holds a local address. -/
def coreOfAddr (a : Nat) : Option Nat :=
  match placeOf a with
  | .bank b => if b < 288 then some (b / 4) else none
  | _ => none

/-- The node and core whose scratchpad holds a global address. -/
def scratchOf (ga : Nat) : Option (Nat × Nat) := (coreOfAddr (ga % 2 ^ 52)).map (fun q => (ga / 2 ^ 52, q))

/-- The near and far scratchpads of a transfer between x and y: near core; far node and core. -/
def nearFar (me e : Nat) (x y : Nat × Nat) : Option (Nat × Nat × Nat) :=
  if x = y then none
  else if e < 72 then (if x.1 = me ∧ x.2 = e then some (e, y) else some (e, x))
  else if x.1 = me then some (x.2, y)
  else some (y.2, x)

/-- The near and far scratchpads of a crossing transfer; none where the descriptor is no COPY between two cores'
scratchpads. -/
def State.crossing (s : State) (e d : Nat) : Option (Nat × Nat × Nat) :=
  if dmaOp d ≠ 0 ∨ (72 ≤ e ∧ e < 80) then none
  else (scratchOf (dmaSrc d)).bind (fun x => (scratchOf (dmaDst d)).bind (fun y => nearFar s.nodeId e x y))

/-- The pair version whose features a job's transfer to a node uses: the lowest one known among the job's nodes, as they
stood at the job's start (R455, R456); 0 where none is known. -/
def State.featureVer (s : State) (job : Option Nat) (node : Nat) : Nat :=
  let tab := ((job.bind s.jobOf).map (·.pairs)).getD (s.od 0x6030 1)
  let nodes := ((job.bind (fun h => s.fab.runs.find? (fun r => r.job == h))).map (·.nodes)).getD []
  match (((node :: nodes).filter (fun n => n != s.nodeId)).map (pairByte tab)).filter (fun v => v != 0) with
  | [] => 0
  | v :: t => t.foldl min v

/-- Whether a job's crossing transfer to a node claims first: not where the pair version lacks YA2.0 (table "Protocol
versions of revision B0"). DESIGN CHOICE (log 155): an unknown version claims. -/
def State.claims (s : State) (job : Option Nat) (node : Nat) : Bool :=
  s.featureVer job node == 0 || decide (0x20 ≤ s.featureVer job node)

/-- Whether pair (node, core) x is lower than y. -/
def pairLower (x y : Nat × Nat) : Bool := decide (x.1 < y.1) || (x.1 == y.1 && decide (x.2 < y.2))

/-- What a CLAIM by (node, core) at local core t comes to: granted, yielded, or queued for a later answer. -/
inductive ClaimRes where
  | ok | yield | queued
deriving DecidableEq, Repr

/-- A CLAIM arrives at core t's scratchpad from `claimant`, whose tag is `tag` (R451, R452). -/
def State.claimAt (s : State) (t : Nat) (claimant : Nat × Nat) (tag : Nat) : ClaimRes × State :=
  let c := s.claim t
  if c.own = some claimant ∧ pairLower (s.nodeId, t) claimant then
    let n := ((c.yielded.find? (fun y => y.1 == claimant.1 && y.2.1 == claimant.2)).map (·.2.2)).getD 0
    let rest := c.yielded.filter (fun y => !(y.1 == claimant.1 && y.2.1 == claimant.2))
    if 8 ≤ n then
      (.queued, s.setClaim t { c with yielded := rest, queued := c.queued ++ [(claimant.1, claimant.2, tag)] })
    else (.yield, s.setClaim t { c with yielded := rest ++ [(claimant.1, claimant.2, n + 1)] })
  else (.ok, s)

/-- The claim of near core p toward (node, core), sent: at once within the node, by a CLAIM message to another, whose
address is the far scratchpad's first byte plus p (log 72). -/
def State.sendClaim (s : State) (p : Nat) (far : Nat × Nat) : State :=
  let s1 := s.setClaim p { s.claim p with own := some far, granted := false, waiting := false }
  if far.1 = s.nodeId then
    match s1.claimAt far.2 (s.nodeId, p) 0 with
    | (.ok, s2) => s2.setClaim p { s2.claim p with granted := true }
    | (.yield, s2) => s2.setClaim p { s2.claim p with waiting := true }
    | (.queued, s2) => s2
  else (s1.request far.1 0 0x05 (spBase far.2 + p) 0 0 (.claim p)).getD s

/-- The end of core p's crossing transfer: FREE to each claimant it yielded, the queued ones are granted (R451, R452). -/
def State.endClaim (s : State) (p : Nat) : State :=
  let c := s.claim p
  let s1 := s.setClaim p ClaimSt.none
  let s2 := c.yielded.foldl (fun st y =>
    if y.1 = s.nodeId then st.sendClaim y.2.1 (s.nodeId, p)
    else st.post ⟨mkHdr 1 0x12 y.1 s.nodeId 0 0 0 (spBase y.2.1), 0⟩) s1
  c.queued.foldl (fun st y =>
    if y.1 = s.nodeId then st.setClaim y.2.1 { st.claim y.2.1 with granted := true }
    else st.post ⟨mkHdr 1 0x10 y.1 s.nodeId 0 y.2.2 0 0, 0⟩) s2

/-- CLAIM_RETRY (R451): 512 ns after a YIELD the engine at core p claims again. -/
def execClaimRetry (p : CoreId) (s : State) : Host.Outcome State Fault Refusal :=
  .next (match (s.claim p.val).own with
    | some far => if (s.claim p.val).waiting then s.sendClaim p.val far else s
    | none => s)

/-! ### Descriptors run (R219 to R225) -/

/-- The head of an engine's queue. -/
def State.dmaHead (s : State) (e : Nat) : Option Dma := (s.dmaQ e).head?

/-- A follower's own descriptor acquires and releases nothing: its leader's does (R519; log 31). -/
def State.dmaFollower (s : State) (x : Dma) : Bool :=
  match x.by_ with
  | some p => s.safety.pairs.any (fun q => q.follower == p)
  | none => false

/-- A descriptor of a tile that runs again: what it acquired and released stands from the first run (R519, R524, R526;
log 31). -/
def State.dmaReplay (s : State) (x : Dma) : Bool :=
  match x.by_ with
  | some p => s.safety.pairs.any (fun q => q.spare == some p || (q.retry && (q.leader == p || q.follower == p)))
  | none => false

/-- DMA_DESCRIPTOR_START (R222, R223): the checks, then the acquisition of WAIT_SEM. -/
def execDmaDescriptorStart (e : EngineId) (s : State) : Host.Outcome State Fault Refusal :=
  .next (match s.dmaHead e.val with
    | none => s
    | some x =>
      if x.started then s
      else
        let st := s.dmaCheck e.val x
        if st ≠ 0 then s.setDmaHead e.val { x with started := true, moved := true, status := st }
        else if bit x.desc 10 ∧ ¬ s.dmaReplay x then
          let s1 := s.setDmaHead e.val { x with started := true, waiting := true }
          if s.dmaFollower x then s1 else s1.ask (bits x.desc 31 16) 1 (.dma e.val)
        else s.setDmaHead e.val { x with started := true })

/-- The requests of one run of n bytes: (source, destination, bytes), none across a boundary of 128 bytes at its
destination (R579). -/
def chunks : Nat → Nat → Nat → Nat → List (Nat × Nat × Nat)
  | 0, _, _, _ => []
  | f + 1, a, b, n =>
    if n = 0 then []
    else
      let k := min n (128 - b % 128)
      (a, b, k) :: chunks f (a + k) (b + k) (n - k)

/-- Every request of a descriptor, in the order of R219. -/
def dmaChunks (d : Nat) : List (Nat × Nat × Nat) :=
  (dmaRuns d).flatMap (fun r => chunks (dmaLen d) r.1 r.2 (dmaLen d))

/-- The FILL bytes of a run from byte b on (R219). -/
def fillBytes (pat b n : Nat) : Nat :=
  ((List.range n).map (fun i => pat / 256 ^ ((b + i) % 8) % 256 * 256 ^ i)).sum

/-- One local request of a descriptor: its response code and the state after it. `run` is the start of its run. -/
def State.dmaLocal (s : State) (x : Dma) (run : Nat) (c : Nat × Nat × Nat) : Nat × State :=
  let src := c.1 % 2 ^ 52
  let dst := c.2.1 % 2 ^ 52
  match dmaOp x.desc with
  | 1 => s.writeAccess x.req dst c.2.2 (fillBytes (bits x.desc 255 192) (c.2.1 - run) c.2.2)
  | 0 =>
    let r := s.readAccess x.req src c.2.2
    if r.1 ≠ 0 then (r.1, s) else r.2.2.writeAccess x.req dst c.2.2 r.2.1
  | _ =>
    let r := s.readAccess x.req src 16
    let o := s.readAccess x.req dst 16
    let w := s.accessCode x.req dst 16 .write
    if r.1 ≠ 0 then (r.1, s)
    else if o.1 ≠ 0 then (o.1, s)
    else if w ≠ 0 then (w, s)
    else
      let g := gridAdd o.2.1 r.2.1
      let s1 := o.2.2.store dst 16 g.1
      (0, if g.2.2 then s1.countDev 0x001 x.part else s1)

/-- The requests of a GADD: its grid words. -/
def gaddChunks (d : Nat) : List (Nat × Nat × Nat) :=
  (dmaRuns d).flatMap (fun r => (List.range (dmaLen d / 16)).map (fun i => (r.1 + 16 * i, r.2 + 16 * i, 16)))

/-- Requests with the start of their run's destination. -/
def withRun (d : Nat) : List (Nat × (Nat × Nat × Nat)) :=
  if dmaOp d = 2 then (gaddChunks d).map (fun c => (c.2.1, c))
  else (dmaRuns d).flatMap (fun r => (chunks (dmaLen d) r.1 r.2 (dmaLen d)).map (fun c => (r.2, c)))

/-- The requests that fail, by code (R225). -/
def State.dmaFails (s : State) (x : Dma) : List Nat :=
  ((withRun x.desc).map (fun c => (s.dmaLocal x c.1 c.2).1)).filter (fun c => c ≠ 0)

/-- The requests performed while a free number's bits let them: the order of writes within one descriptor is not
defined, so where it stops at a failed response, which bytes were written by then is open (R222, R225, log 4). -/
def State.dmaRun (s : State) (x : Dma) (mask : Option Nat) : List (Nat × (Nat × Nat × Nat)) → Nat → State
  | [], _ => s
  | c :: t, i =>
    let r := s.dmaLocal x c.1 c.2
    let go := r.1 == 0 && (match mask with | some f => f.testBit i | none => true)
    (if go then r.2 else s).dmaRun x mask t (i + 1)

/-- All bytes of a descriptor within the node moved (R219 to R225). -/
def State.dmaMove (s : State) (e : Nat) (x : Dma) : State :=
  let fails := s.dmaFails x
  if fails.isEmpty then (s.dmaRun x none (withRun x.desc) 0).setDmaHead e { x with moved := true }
  else
    let f := s.takeFree
    let g := f.2.takeFree
    (g.2.dmaRun x (some f.1) (withRun x.desc) 0).setDmaHead e
      { x with moved := true, status := fails.getD (g.1 % fails.length) 0 }

/-- The requests of a run of n bytes across Brim: messages count units of 8 bytes (R427), so that a run goes in pieces of
whole units, the last unit of an odd run over bytes sent before; a run below 8 bytes is one piece. -/
def brimPieces (a b n : Nat) : List (Nat × Nat × Nat) :=
  if n < 8 then [(a, b, n)]
  else
    let w := n / 8 * 8
    (List.range ((w + 127) / 128)).map (fun i => (a + 128 * i, b + 128 * i, min 128 (w - 128 * i))) ++
      (if n = w then [] else [(a + n - 8, b + n - 8, 8)])

/-- Every request of a Brim descriptor, with the start of its run's destination. -/
def brimRuns (d : Nat) : List (Nat × (Nat × Nat × Nat)) :=
  if dmaOp d = 2 then (gaddChunks d).map (fun c => (c.2.1, c))
  else (dmaRuns d).flatMap (fun r => (brimPieces r.1 r.2 (dmaLen d)).map (fun c => (r.2, c)))

/-- The aligned words that hold n < 8 bytes from a: their address and their number. -/
def wordWindow (a n : Nat) : Nat × Nat := (a / 8 * 8, (a % 8 + n + 7) / 8)

/-- A WRITE of a descriptor's bytes to the far node; below 8 bytes, a READ of the words that hold them, to be written back
with these bytes (R219). -/
def State.brimWrite (s : State) (e dst n data : Nat) : Option State :=
  if n < 8 then
    let w := wordWindow (dst % 2 ^ 52) n
    s.request (dst / 2 ^ 52) 0 0x02 w.1 w.2 0 (.dmaMerge e dst n data)
  else s.request (dst / 2 ^ 52) 0 0x01 (dst % 2 ^ 52) (n / 8) data (.dma e)

/-- One request of a Brim descriptor: sent to the far node, none where it has 1,024 outstanding (R428). A READ's data comes
back to the near side. -/
def State.brimSend (s : State) (e : Nat) (x : Dma) (c : Nat × (Nat × Nat × Nat)) : Option State × Nat :=
  let src := c.2.1
  let dst := c.2.2.1
  let n := c.2.2.2
  if dst / 2 ^ 52 = s.nodeId then
    let w := if n < 8 then wordWindow (src % 2 ^ 52) n else (src % 2 ^ 52, n / 8)
    (s.request (src / 2 ^ 52) 0 0x02 w.1 w.2 0 (.dmaRead e dst (src % 2 ^ 52 - w.1) n), 0)
  else if dmaOp x.desc = 1 then
    (s.brimWrite e dst n (fillBytes (bits x.desc 255 192) (dst - c.1) n), 0)
  else
    let r := s.readAccess x.req (src % 2 ^ 52) n
    if r.1 ≠ 0 then (none, r.1)
    else if dmaOp x.desc = 2 then (r.2.2.request (dst / 2 ^ 52) 2 0x04 (dst % 2 ^ 52) (n / 8) r.2.1 (.dma e), 0)
    else (r.2.2.brimWrite e dst n r.2.1, 0)

/-- As many requests of a Brim descriptor as its far node's limit lets out; none behind a response that failed it (R225). -/
def State.brimRun (s : State) (e : Nat) : List (Nat × (Nat × Nat × Nat)) → State
  | [] => match s.dmaHead e with
    | some x => s.setDmaHead e { x with moved := true }
    | none => s
  | c :: t =>
    match s.dmaHead e with
    | none => s
    | some x =>
      if 1 < x.status then s.setDmaHead e { x with moved := true }
      else
        match s.brimSend e x c with
        | (some s1, _) => (s1.setDmaHead e { x with next := x.next + 1, wait := x.wait + 1 }).brimRun e t
        | (none, 0) => s
        | (none, code) => s.setDmaHead e { x with moved := true, status := code }

/-- The bytes of the head descriptor moved, where its operation is `op`, it has started and holds what it waits for. A
crossing transfer first claims the far scratchpad (R451), where the pair version has claims (R455). -/
def State.dmaStep (s : State) (e op : Nat) : State :=
  match s.dmaHead e with
  | none => s
  | some x =>
    if ¬ x.started ∨ x.waiting ∨ x.moved ∨ dmaOp x.desc ≠ op then s
    else
      match (s.crossing e x.desc).filter (fun y => s.claims x.job y.2.1) with
      | some (p, far) =>
        let c := s.claim p
        let s1 := if c.own = none then s.sendClaim p far else s
        if (s1.claim p).own = some far ∧ (s1.claim p).granted then
          (if e < 80 then s1.dmaMove e x else s1.brimRun e ((brimRuns x.desc).drop x.next))
        else s1
      | none => if e < 80 then s.dmaMove e x else s.brimRun e ((brimRuns x.desc).drop x.next)

/-- DMA_COPY (R219). -/
def execDmaCopy (e : EngineId) (s : State) : Host.Outcome State Fault Refusal := .next (s.dmaStep e.val 0)

/-- DMA_FILL (R219). -/
def execDmaFill (e : EngineId) (s : State) : Host.Outcome State Fault Refusal := .next (s.dmaStep e.val 1)

/-- DMA_GADD (R219, R220). -/
def execDmaGadd (e : EngineId) (s : State) : Host.Outcome State Fault Refusal := .next (s.dmaStep e.val 2)

/-- The completion record (R224). -/
def compRecord (stamp status : Nat) : Nat := stamp % 2 ^ 96 * 2 ^ 32 + status % 256

/-- DMA_FAIL: the notice, and the stop of the submitting core at its next TILE.END (R225). -/
def State.dmaFail (s : State) (x : Dma) (status : Nat) : State :=
  match x.by_ with
  | some p =>
    (s.faultNotice 0x56 x.part 1 p status).modCoreAt p (fun c =>
      if c.job = x.job then { c with deferred := c.deferred ++ [(0x56, status)] } else c)
  | none => s.faultNotice 0x56 none 0 0 status

/-- The collector entry of a descriptor of Crown's that engine e has completed (R325). DESIGN CHOICE (log 149): it enters at
the core of a core's engine, at position 0 of a canton's, at core 0 for a Brim engine, with JOB and PART 0. -/
def crownEntry (e : Nat) : CollEntry :=
  ⟨0, 0, 0, 4, if e < 72 then e else if e < 80 then 9 * (e - 72) else 0, 0, 0⟩

/-- The head of engine e's queue completed: record, semaphore or failure, and its place freed (R223 to R225, R577). -/
def State.dmaFinish (s : State) (e : Nat) (x : Dma) : State :=
  let s0 := s.setDmaQ e (s.dmaQ e).tail
  let s1 := match s.crossing e x.desc with
    | some (p, far) => if (s.claim p).own = some far then s0.endClaim p else s0
    | none => s0
  let rec_ := if bit x.desc 12 then s1.writeAccess x.req (bits x.desc 99 48) 16 (compRecord s.stamp x.status) else (0, s1)
  let s2 := match x.by_ with
    | some p => rec_.2.countCore p 0x21
    | none => rec_.2.latchEntry (crownEntry e)
  if x.status = 0xB then s2
  else if 1 < x.status then s2.dmaFail x x.status
  else if rec_.1 ≠ 0 then s2.dmaFail x rec_.1
  else if bit x.desc 11 ∧ ¬ s.dmaFollower x ∧ ¬ s.dmaReplay x then s2.semAdd (bits x.desc 47 32) 1
  else s2

/-- DMA_COMPLETE (R223 to R225). -/
def execDmaComplete (e : EngineId) (s : State) : Host.Outcome State Fault Refusal :=
  .next (match s.dmaHead e.val with
    | none => s
    | some x => if x.moved ∧ x.wait = 0 then s.dmaFinish e.val x else s)

/-! ### The light path (R226 to R228) -/

/-- LITE_SHAPE (R226). -/
def liteShapeBad (src n dst : Nat) : Bool :=
  dst % 8 != 0 || decide (256 < src % 256 + n) || decide (256 < dst % 256 + n)

/-- LITE decoded: its source is read; at most 16 are outstanding (R228). A core of a pair holds it (R518). -/
def decodeLite (p : CoreId) (s : State) (cmd : Nat) : DecR :=
  let c := s.core p
  let src := 8 * bits cmd 119 101
  let n := 8 * (bits cmd 100 96 + 1)
  let dst := bits cmd 79 16
  let sem := bits cmd 95 80
  if 16 ≤ c.lites.length then .stall
  else
    let pre := [(bits cmd 15 0 != 0, 0x02), (dst / 2 ^ 52 == s.nodeId && s.semPart sem != s.coreOwner p.val, 0x41),
      (liteShapeBad src n dst, 0x57)]
    s.seqRead [(spBase p.val + src, n)] pre (fun s =>
      orFault pre
        (let l : LiteMsg := ⟨c.ord, s.rd (spBase p.val + src) n, n, dst, sem, false, none⟩
         .ok (if s.inPair p.val then
             s.holdAct p.val (halves (setBits cmd 79 16 (s.foldAddr p.val dst))) (.lite l)
           else s.setCore p { s.core p with lites := (s.core p).lites ++ [l] })))

/-- LITE. -/
def execLite (p : CoreId) (s : State) : Host.Outcome State Fault Refusal :=
  .next (s.decodeCmd p 0x21 (decodeLite p))

/-- The oldest LITE of a core that has not been sent. -/
def Core.nextLite (c : Core) : Option LiteMsg := c.lites.find? (fun l => !l.sent)

/-- A core with the LITE of place `ord` changed. -/
def Core.modLite (c : Core) (ord : Nat) (f : LiteMsg → LiteMsg) : Core :=
  { c with lites := c.lites.map (fun l => if l.ord = ord then f l else l) }

/-- The payload of a LITE message: the semaphore's word, then the bytes (R428). -/
def LiteMsg.payload (l : LiteMsg) : Nat := l.sem + l.data * 2 ^ 64

/-- LITE_DELIVERY (R227): the oldest LITE not yet sent is written at its destination and its semaphore released, or sent
to its node. -/
def execLiteDelivery (p : CoreId) (s : State) : Host.Outcome State Fault Refusal :=
  .next (match (s.core p).nextLite with
    | none => s
    | some l =>
      if l.dst / 2 ^ 52 = s.nodeId then
        let w := s.writeAccess (s.coreReq p.val) (l.dst % 2 ^ 52) l.len l.data
        let s1 := if w.1 = 0 then w.2.semAdd l.sem 1 else w.2
        (s1.setCore p ((s1.core p).modLite l.ord (fun l => { l with sent := true, resp := some w.1 }))).countCore p.val 0x20
      else
        match s.request (l.dst / 2 ^ 52) 0 0x03 (l.dst % 2 ^ 52) (l.len / 8 + 1) l.payload (.lite p.val l.ord) with
        | none => s
        | some s1 =>
          (s1.setCore p ((s1.core p).modLite l.ord (fun l => { l with sent := true }))).countCore p.val 0x20)

/-- The fault of a LITE's response: a memory fault, or FABRIC_LOST for UNREACHABLE (R228, R430). -/
def liteFault (code : Nat) : Nat := if code = 0xA then 0x58 else memFault code

/-- LITE_RESPONSE (R228): the oldest answered LITE leaves; its fault waits for the TILE.END. A W_LOST is noticed as R177
says. -/
def execLiteResponse (p : CoreId) (s : State) : Host.Outcome State Fault Refusal :=
  let c := s.core p
  .next (match c.lites.find? (fun l => l.resp.isSome) with
    | none => s
    | some l =>
      let code := l.resp.getD 0
      let c1 := { c with
        lites := c.lites.erase l
        liteFaults := if liteFault code = 0 then c.liteFaults else c.liteFaults ++ [(l.ord, liteFault code)] }
      let s1 := s.setCore p c1
      if code = 1 then s1.warn 0x0100 (s.coreOwner p.val) 1 p.val (l.dst % 2 ^ 52) else s1)

end Sys2Proof.Machine
end

