-- ==== Sys2Proof/Machine/Control.lean ====
section
/-! DEFINITION. Semaphores, loops, STEP, TILE.END, NOTE and HALT in a core's stream (R244, R245, R258 to R270). -/

namespace Sys2Proof.Machine

/-! ### Semaphore commands (R229 to R231, R239, R244, R259) -/

/-- The address of semaphore n. -/
def semAddr (n : Nat) : Nat := semBase + 8 * n

/-- A command on semaphore n: its CMD_FIELD, then MEM_DENIED where its partition does not own n (R91, R244). -/
def State.semChecked (s : State) (p : CoreId) (field : Bool) (n : Nat) (k : DecR) : DecR :=
  if field then .fault 0x02 0
  else if s.semPart n ≠ s.coreOwner p.val ∨ s.semPart n = none then .fault 0x41 (semAddr n)
  else k

/-- An acquisition of k from semaphore n: in a queue, or by the sequencer, which then decodes nothing (R235, R240). -/
def State.acquire (s : State) (p : CoreId) (eng n k : Nat) : DecR :=
  if eng = 0 then
    let c := s.core p
    if c.replayAcq.contains (0, n, k) then .ok (s.setCore p { c with replayAcq := c.replayAcq.erase (0, n, k) })
    else
      let s1 := s.setCore p { c with seqWait := .sem n k }
      .ok (if s.asksFor p.val then s1.ask n k (.queue p.val 0) else s1)
  else if (s.core p).room eng (.acq n k false) then
    .ok ((s.setCore p ((s.core p).push eng (.acq n k false))).pump p)
  else .stall

/-- A release of k to semaphore n: at once by the sequencer, in its place in a queue; a core of a pair holds it (R240,
R518). -/
def State.releaseSem (s : State) (p : CoreId) (cmd eng n k : Nat) : DecR :=
  if s.inPair p.val then .ok (s.holdAct p.val (halves cmd) (.add n k none))
  else if eng = 0 then .ok (s.semAdd n k)
  else if (s.core p).room eng (.rel n k) then
    .ok ((s.setCore p ((s.core p).push eng (.rel n k))).pump p)
  else .stall

/-- The semaphore of a Cuff command (R229). -/
def cuffSem (cmd : Nat) : Nat := 2 * bits cmd 115 101 + b2n (bit cmd 116)

/-- CMD_FIELD of a Cuff command. -/
def cuffField (cmd : Nat) : Bool := bits cmd 100 0 != 0 || decide (5 ≤ bits cmd 119 117)

/-- CUFF_WAIT (R230, R232). -/
def execCuffWait (p : CoreId) (s : State) : Host.Outcome State Fault Refusal :=
  .next (s.decodeCmd p 0x30 (fun s1 cmd =>
    s1.semChecked p (cuffField cmd) (cuffSem cmd) (s1.acquire p (bits cmd 119 117) (cuffSem cmd) 1)))

/-- CUFF_SIGNAL (R230, R231). -/
def execCuffSignal (p : CoreId) (s : State) : Host.Outcome State Fault Refusal :=
  .next (s.decodeCmd p 0x31 (fun s1 cmd =>
    s1.semChecked p (cuffField cmd) (cuffSem cmd) (s1.releaseSem p cmd (bits cmd 119 117) (cuffSem cmd) 1)))

/-- CMD_FIELD of a SEM command. -/
def semField (cmd : Nat) : Bool :=
  let op := bits cmd 127 120
  let acq := op == 0x38 || op == 0x39
  bits cmd 32 0 != 0 || decide (5 ≤ bits cmd 119 117) || (!acq && bits cmd 119 117 != 0) ||
    (if acq then bits cmd 100 85 == 0 else bits cmd 100 85 != 0) ||
    (acq && (bit cmd 84 || bits cmd 83 52 != 0 || bits cmd 51 33 != 0)) ||
    (op == 0x3B && (!bit cmd 84 || bits cmd 83 52 != 0))

/-- Semaphore number, amount and return word of a SEM command. -/
def semN (cmd : Nat) : Nat := bits cmd 116 101
def semK (cmd : Nat) : Nat := bits cmd 100 85
def semRet (cmd : Nat) : Nat := 8 * bits cmd 51 33

/-- SEM_ACQ (R259). -/
def execSemAcq (p : CoreId) (s : State) : Host.Outcome State Fault Refusal :=
  .next (s.decodeCmd p 0x38 (fun s1 cmd =>
    s1.semChecked p (semField cmd) (semN cmd) (s1.acquire p (bits cmd 119 117) (semN cmd) (semK cmd))))

/-- SEM_REL (R259). -/
def execSemRel (p : CoreId) (s : State) : Host.Outcome State Fault Refusal :=
  .next (s.decodeCmd p 0x39 (fun s1 cmd =>
    s1.semChecked p (semField cmd) (semN cmd) (s1.releaseSem p cmd (bits cmd 119 117) (semN cmd) (semK cmd))))

/-- A return word written in the core's own scratchpad; a response that is not OK faults the command (R184). -/
def State.putRet (s : State) (p : CoreId) (off v : Nat) (k : State → DecR) : DecR :=
  let wr := s.ownCode false [(spBase p.val + off, 8)]
  if wr.1 ≠ 0 then .fault (memFault wr.1) wr.2
  else k ((s.wakeSpan (spBase p.val + off) 8).wrOwn p.val off 8 v)

/-- SEM_ADD (R259): the addition, and the old value to the return word where RET_EN is 1. A core of a pair holds it. -/
def execSemAdd (p : CoreId) (s : State) : Host.Outcome State Fault Refusal :=
  .next (s.decodeCmd p 0x3A (fun s1 cmd =>
    s1.semChecked p (semField cmd) (semN cmd)
      (if s1.inPair p.val then
        .ok (s1.holdAct p.val (halves cmd)
          (.add (semN cmd) (sbits cmd 83 52) (if bit cmd 84 then some (semRet cmd) else none)))
      else if bit cmd 84 then
        s1.putRet p (semRet cmd) (s1.semCount (semN cmd)) (fun s2 => .ok (s2.semAdd (semN cmd) (sbits cmd 83 52)))
      else .ok (s1.semAdd (semN cmd) (sbits cmd 83 52)))))

/-- The pair of which core p is the leader, the follower or the spare (R516, R524). -/
def State.pairOf (s : State) (p : Nat) : Option Pair :=
  s.safety.pairs.find? (fun q => q.leader == p || q.follower == p || q.spare == some p)

/-- The state with the pair of a leader changed. -/
def State.modPair (s : State) (leader : Nat) (f : Pair → Pair) : State :=
  { s with safety := { s.safety with pairs := s.safety.pairs.map (fun q => if q.leader = leader then f q else q) } }

/-- The value that a SEM.READ of core p returns: the count; in a pair the leader's value, which the follower and a re-run
take over (R519). None while the leader has not read. -/
def State.readSem (s : State) (p : CoreId) (n : Nat) : Option (Nat × State) :=
  let c := s.core p
  match s.pairOf p.val, c.reads with
  | none, _ => some (s.semCount n, s)
  | some _, v :: t => some (v, s.setCore p { c with reads := t })
  | some q, [] =>
    if q.follower = p.val then none
    else
      let v := s.semCount n
      let s1 := s.modPair q.leader (fun q => { q with tileReads := q.tileReads ++ [v] })
      some (v, if q.leader = p.val then s1.modCoreAt q.follower (fun c => { c with reads := c.reads ++ [v] }) else s1)

/-- SEM_READ (R259, R519). -/
def execSemRead (p : CoreId) (s : State) : Host.Outcome State Fault Refusal :=
  .next (s.decodeCmd p 0x3B (fun s1 cmd =>
    s1.semChecked p (semField cmd) (semN cmd)
      (match s1.readSem p (semN cmd) with
       | none => .stall
       | some r => r.2.putRet p (semRet cmd) r.1 .ok)))

/-! ### Grants (R260, R319 to R322) -/

/-- The priority in force of a waiter (R319). Signal cores belong to partition 0, whose ceiling is 3 (log 33). -/
def State.waiterPrio (s : State) (w : WaitFor) : Nat :=
  match w with
  | .queue p _ => s.jobPrio (s.coreAt p).job
  | .dma e =>
    match s.dmaHead e with
    | some x => match x.part with
      | some k => min (bits x.desc 9 8) (bits (s.od 0x4020 (k + 1)) 14 13)
      | none => bits x.desc 9 8
    | none => 0
  | .sig _ => 3

/-- The better of two waiters in the order of R320: aged and oldest, then priority, then age of the request. -/
def State.better (s : State) (a b : Waiter) : Waiter :=
  let aa := a.aged || decide (64 ≤ a.others)
  let ba := b.aged || decide (64 ≤ b.others)
  if aa ≠ ba then (if aa then a else b)
  else if aa then (if a.ticket ≤ b.ticket then a else b)
  else if s.waiterPrio a.who ≠ s.waiterPrio b.who then (if s.waiterPrio b.who < s.waiterPrio a.who then a else b)
  else if a.ticket ≤ b.ticket then a else b

/-- The head waiter of a semaphore (R322). -/
def State.headWaiter (s : State) (n : Nat) : Option Waiter :=
  match sget s.waiters (fun _ => []) n with
  | [] => none
  | w :: t => some (t.foldl s.better w)

/-- Whether core p stands at the acquisition (n, k) of queue eng. -/
def State.standsAt (s : State) (p eng n k : Nat) : Bool :=
  let c := s.coreAt p
  if eng = 0 then c.seqWait == .sem n k
  else
    match c.queue eng with
    | q :: _ => (match q.e with | .acq n' k' _ => n' == n && k' == k | _ => false)
    | [] => false

/-- Core p past its acquisition in queue eng, its queues run on. -/
def State.pass (s : State) (p eng : Nat) : State :=
  (s.modCoreAt p (fun c =>
    if eng = 0 then { c with seqWait := .none } else c.setQueue eng (c.queue eng).tail)).pumpAt p

/-- Whether a waiter can take its grant: a leader only together with its follower (R519). -/
def State.ready (s : State) (n : Nat) (w : Waiter) : Bool :=
  match w.who with
  | .queue p eng =>
    match s.pairOf p with
    | some q => if q.leader = p ∧ ¬ q.retry then s.standsAt q.follower eng n w.need else true
    | none => true
  | .dma e =>
    match (s.dmaHead e).bind (·.by_) with
    | some p =>
      match s.pairOf p with
      | some q => if q.leader = p ∧ e < 72 then ((s.dmaHead q.follower).map (·.waiting)) == some true else true
      | none => true
    | none => true
  | .sig _ => true

/-- What a grant does at the waiter. -/
def State.grantTo (s : State) (n : Nat) (w : Waiter) : State :=
  match w.who with
  | .queue p eng =>
    let s1 := s.pass p eng
    match s.pairOf p with
    | some q =>
      let s2 := s1.modPair q.leader (fun q => { q with acqd := q.acqd ++ [(eng, n, w.need)] })
      if q.leader ≠ p then s2
      else if s2.standsAt q.follower eng n w.need then s2.pass q.follower eng
      else s2
    | none => s1
  | .dma e =>
    let go := fun (st : State) (e : Nat) =>
      match st.dmaHead e with
      | some x => st.setDmaHead e { x with waiting := false }
      | none => st
    let s1 := go s e
    match ((s.dmaHead e).bind (·.by_)).bind s.pairOf with
    | some q => if e = q.leader then go s1 q.follower else s1
    | none => s1
  | .sig g =>
    if h : g < 32 then
      let c := s.sig ⟨g, h⟩
      s.setSig ⟨g, h⟩ { c with semWait := false, pc := c.pc + 4#32 }
    else s

/-- SEM_GRANT (R231, R240, R259, R260, R319 to R322): the head waiter of semaphore n takes its amount where the count
satisfies it; every other waiter has seen one more grant made to another. -/
def execSemGrant (n : Fin 65536) (s : State) : Host.Outcome State Fault Refusal :=
  .next (match s.headWaiter n.val with
    | none => s
    | some w =>
      if w.need ≤ s.semCount n.val ∧ s.ready n.val w then
        let rest := ((sget s.waiters (fun _ => []) n.val).erase w).map (fun x => { x with others := x.others + 1 })
        let s1 := ({ s with waiters := sput s.waiters (fun _ => []) n.val rest }).setSem n.val
          (s.semCount n.val - w.need)
        let s2 := if w.aged ∨ 64 ≤ w.others then s1.countCanton (n.val / 8192) 0x02 else s1
        s2.grantTo n.val w
      else s)

/-! ### Loops (R245) -/

/-- LOOP decoded. -/
def decodeLoop (p : CoreId) (s : State) (cmd : Nat) : DecR :=
  let c := s.core p
  orFault [(bits cmd 84 0 != 0 || bits cmd 119 104 == 0, 0x02), (decide (4 ≤ c.loops.length), 0x04)]
    (.ok (s.setCore p { c with
      loops := c.loops ++ [⟨bits cmd 119 104, sbits cmd 103 88, bits cmd 87 85, 0, c.pos⟩] }))

/-- LOOP. -/
def execLoopCmd (p : CoreId) (s : State) : Host.Outcome State Fault Refusal :=
  .next (s.decodeCmd p 0x40 (decodeLoop p))

/-- ENDLOOP decoded: the innermost level goes round, its body fetched again from the ring, or closes. -/
def decodeEndloop (p : CoreId) (s : State) (cmd : Nat) : DecR :=
  let c := s.core p
  orFault [(bits cmd 119 0 != 0, 0x02), (c.loops.isEmpty, 0x05)]
    (match c.loops.getLast? with
     | none => .stall
     | some l =>
       if l.i + 1 < l.count then
         .ok (s.setCore p { c with loops := c.loops.dropLast ++ [{ l with i := l.i + 1 }], pos := l.body, fetched := [] })
       else .ok (s.setCore p { c with loops := c.loops.dropLast }))

/-- ENDLOOP. -/
def execEndloop (p : CoreId) (s : State) : Host.Outcome State Fault Refusal :=
  .next (s.decodeCmd p 0x41 (decodeEndloop p))

/-! ### STEP (R261, R446) -/

/-- Whether a STEP of a job of a run waits for the COMMIT of the step it ends (R446). -/
def State.stepWaits (s : State) (p : CoreId) : Bool :=
  match (s.core p).job with
  | none => false
  | some h =>
    match s.fab.runs.find? (fun r => r.job == h) with
    | none => false
    | some r => !(match r.committed with | some k => decide ((s.core p).step ≤ k) | none => false)

/-- STEP decoded: the job's frames of the steps that all its cores have left are complete (R381). -/
def decodeStep (p : CoreId) (s : State) (cmd : Nat) : DecR :=
  let c := s.core p
  orFault [(bits cmd 119 0 != 0, 0x02), (decide (2 ^ 64 ≤ c.step + 1), 0x03)]
    (if s.stepWaits p then .stall
     else .ok ((s.setCore p { c with step := c.step + 1, stepHeld := false }).frameStep p.val))

/-- STEP. A STEP that must wait for its COMMIT marks that it is there (R446). -/
def execStepCmd (p : CoreId) (s : State) : Host.Outcome State Fault Refusal :=
  let s1 := match s.nextCmd p with
    | some cmd => if bits cmd 127 120 = 0x51 ∧ s.stepWaits p then s.setCore p { s.core p with stepHeld := true } else s
    | none => s
  .next (s1.decodeCmd p 0x51 (decodeStep p))

/-! ### Completion of earlier commands (R262 to R264) -/

/-- Whether the compute queues and the pipeline hold nothing of a place before `ord` (R264). -/
def Core.queuesDone (c : Core) (ord : Nat) : Bool :=
  ([c.qLoader, c.qArray, c.qDrain, c.qVector].all (fun q => q.all (fun x => decide (ord ≤ x.ord)))) &&
    (match c.loading with | some w => decide (ord ≤ w.ord) | none => true) &&
    c.lites.all (fun l => decide (ord ≤ l.ord))

/-- Whether no DMA descriptor that core p's stream submitted is queued (R262, R263). -/
def State.dmasDone (s : State) (p : Nat) : Bool :=
  s.dmas.all (fun e => e.2.all (fun x => x.by_ != some p))

/-! ### Save maps (R307, R308) -/

/-- The entries of a save map at scratchpad offset `off`, up to the first of KIND 0 (R307). -/
def saveEntries (m : SMap Byte) (base off : Nat) : Nat → List Nat
  | 0 => []
  | n + 1 =>
    let e := readMem m (base + off) 16
    if bits e 127 126 = 0 then [] else e :: saveEntries m base (off + 16) n

/-- A save-map entry that R308 rejects. -/
def saveBad (e : Nat) : Bool :=
  bits e 93 52 != 0 ||
    (if bits e 127 126 = 3 then decide (511 < bits e 125 110) || decide (512 < bits e 125 110 + bits e 109 94 + 1)
     else decide (0x400000 < 64 * (bits e 125 110 + bits e 109 94 + 1)))

/-- The save map of the task on core p read as its stopping TILE.END retires; a malformed one is as if absent, and raises
SAVEMAP_BAD (R307, R308). -/
def State.readSaveMap (s : State) (p : Nat) : State :=
  match (s.coreAt p).job.bind s.jobOf with
  | none => s
  | some j =>
    let off := 16 * bits j.desc 155 138
    let l := saveEntries s.mem (spBase p) off 16
    if off = 0 then s.modCoreAt p (fun c => { c with saveMap := none })
    else if l.any saveBad then (s.modCoreAt p (fun c => { c with saveMap := none })).warn 0x0104 (some j.part) 1 p off
    else s.modCoreAt p (fun c => { c with saveMap := some l })

/-! ### TILE.END (R264 to R267) -/

/-- TILE.END decoded: decode goes on past it unless the device needs a boundary or a fault is deferred, which this TILE.END then
takes (R127, R265), or the core is one of a pair. -/
def decodeTileEnd (p : CoreId) (off : Nat) (s : State) (cmd : Nat) : DecR :=
  let c := s.core p
  orFault [(bits cmd 119 0 != 0, 0x02)]
    (.ok (s.setCore p { c with
      tileEnds := c.tileEnds ++ [(c.ord, off, !c.deferred.isEmpty)]
      tileNo := c.tileNo + 1
      mode := if c.needs.isEmpty ∧ c.deferred.isEmpty ∧ ¬ s.inPair p.val then c.mode else .boundary }))

/-- TILE_END. -/
def execTileEnd (p : CoreId) (s : State) : Host.Outcome State Fault Refusal :=
  .next (s.decodeCmd p 0x60 (decodeTileEnd p (s.core p).pos))

/-- The faults that take the place of a TILE.END's retirement: deferred ones, where it is the one that takes them, and those of
its tile's LITEs (R127, R225, R228, R264, R265). -/
def Core.tileFaults (c : Core) (takes : Bool) (ord : Nat) : List (Nat × Nat) :=
  (if takes then c.deferred else []) ++ ((c.liteFaults.filter (fun l => decide (l.1 < ord))).map (fun l => (l.2, 0)))

/-- The first fault of the lowest code. -/
def lowestFault (l : List (Nat × Nat)) : Option (Nat × Nat) :=
  l.foldl (fun m e => match m with
    | none => some e
    | some x => if e.1 < x.1 then some e else some x) none

/-- A long tile: counted and noticed with its cycles (R266). -/
def State.tileLong (s : State) (p : Nat) (cycles : Nat) : State :=
  if 2048 < cycles then (s.countCore p 0x08).warn 0x0103 (s.coreOwner p) 1 p cycles else s

/-- A core whose head TILE.END has retired: an undo log is reset at retirement (R522) by the comparison. -/
def Core.retire (c : Core) : Core :=
  { c with
    tileEnds := c.tileEnds.tail
    tileRet := c.tileRet + 1
    tileCycles := c.tileCycles.filter (fun e => e.1 ≠ c.tileRet) }

/-- The command of a TILE.END. -/
def tileEndCmd : Nat := 0x60 * 2 ^ 120

/-- The retirement of core p's oldest TILE.END, nothing standing before it: a fault in its place, or the counts, the
boundary that the device needs, and for a pair its readiness for comparison (R264 to R270, R325, R517). -/
def State.retireTile (s : State) (p : CoreId) (ord off : Nat) (takes : Bool) : State :=
  let c := s.core p
  match lowestFault (c.tileFaults (takes || s.inPair p.val) ord) with
  | some f =>
    if s.inPair p.val ∧ f.1 ≠ 0x27 ∧ f.1 ≠ 0x43 then
      (s.setCore p { c.retire with liteFaults := [] }).fault p.val f.1 f.2 tileEndCmd off
    else if s.inPair p.val then s.setCore p { c.retire with tileFault := some f.1, retiredTile := true }
    else (s.setCore p c.retire).fault p.val f.1 f.2 tileEndCmd off
  | none =>
    let s1 := ((s.setCore p c.retire).countCore p.val 0x07).tileLong p.val (sget c.tileCycles zeroD c.tileRet)
    let s2 := if s.inPair p.val then
      s1.setCore p { s1.core p with
        retiredTile := true
        tileDigest := ((s1.core p).tileDigest + term 0xFFFFFFFD 0 (s1.core p).flags.toNat) % 2 ^ 64 }
      else s1
    if c.mode = .boundary ∧ ¬ c.needs.isEmpty ∧ c.tileEnds.length = 1 ∧ ¬ s.inPair p.val then
      (s2.readSaveMap p.val).latch p.val 0 2
    else s2

/-- TILE_END_RETIRE (R264): the oldest TILE.END decoded, once every command before it in the four queues is complete and
every LITE of its tile is answered. -/
def execTileEndRetire (p : CoreId) (s : State) : Host.Outcome State Fault Refusal :=
  let c := s.core p
  .next (match c.tileEnds with
    | [] => s
    | (ord, off, takes) :: _ =>
      if c.mode ≠ .faulted ∧ ¬ c.retiredTile ∧ c.queuesDone ord then s.retireTile p ord off takes else s)

/-! ### NOTE (R262) -/

/-- The notice of a NOTE. -/
def State.noteNotice (s : State) (p sev ucode payload : Nat) : State :=
  s.raise ⟨sev, 0x8000 + ucode, s.coreOwner p, 1, p, 0, 0, payload⟩

/-- NOTE decoded. With SYNC it waits for everything before it, TILE.ENDs to retire among it. A core of a pair holds it (R518). -/
def decodeNote (p : CoreId) (s : State) (cmd : Nat) : DecR :=
  let c := s.core p
  orFault [(bits cmd 101 64 != 0 || decide (2 ≤ bits cmd 119 118), 0x02)]
    (if bit cmd 117 ∧ ¬ (c.queuesDone c.ord ∧ s.dmasDone p.val ∧ c.tileEnds.isEmpty) then .stall
     else if s.inPair p.val then
       .ok (s.holdAct p.val (halves cmd) (.note (bits cmd 119 118) (bits cmd 116 102) (bits cmd 63 0)))
     else .ok (s.noteNotice p.val (bits cmd 119 118) (bits cmd 116 102) (bits cmd 63 0)))

/-- NOTE. -/
def execNote (p : CoreId) (s : State) : Host.Outcome State Fault Refusal :=
  .next (s.decodeCmd p 0x61 (decodeNote p))

/-! ### HALT (R263) -/

/-- HALT decoded: the core waits for everything before it. -/
def decodeHalt (p : CoreId) (s : State) (cmd : Nat) : DecR :=
  let s1 := s.setCore p { s.core p with mode := .halting, haltCode := bits cmd 119 104 }
  orFault [(bits cmd 103 0 != 0, 0x02)]
    (.ok (if s.inPair p.val then s1.holdAct p.val (halves cmd) .halt else s1))

/-- HALT. -/
def execHalt (p : CoreId) (s : State) : Host.Outcome State Fault Refusal :=
  .next (s.decodeCmd p 0x70 (decodeHalt p))

/-- The ring offset of the command before the one at `pos`. -/
def ringPrev (base len pos : Nat) : Nat := if pos = base then base + len - 16 else pos - 16

/-- HALT_COMPLETE (R263, R266, R323, R324): everything before the HALT is complete; a deferred fault is taken at this boundary;
a long tile is counted; the entry goes to the core's latch once that is free. A pair's HALT first stands for its comparison. -/
def execHaltComplete (p : CoreId) (s : State) : Host.Outcome State Fault Refusal :=
  let c := s.core p
  .next (if c.mode ≠ .halting ∨ ¬ c.tileEnds.isEmpty ∨ ¬ c.queuesDone c.ord ∨ ¬ s.dmasDone p.val then s
    else if c.held.contains .halt then
      (if c.retiredTile then s
       else s.setCore p { c with
          retiredTile := true
          tileFault := (lowestFault (c.tileFaults true c.ord)).map (·.1)
          tileDigest := (c.tileDigest + term 0xFFFFFFFD 0 c.flags.toNat) % 2 ^ 64 })
    else
      match lowestFault (c.tileFaults true c.ord) with
      | some f => s.fault p.val f.1 f.2 (0x70 * 2 ^ 120 + c.haltCode * 2 ^ 104) (ringPrev c.ringBase c.ringLen c.pos)
      | none =>
        if s.latchFull p.val then s.countCanton (p.val / 9) 0x31
        else
          ((s.setCore p { c with mode := .halted, saveMap := none }).tileLong p.val (sget c.tileCycles zeroD c.tileRet)).latch p.val
            c.haltCode 0)

/-! ### Held opcodes (R238, R243) -/

/-- The opcodes of the table "Opcodes". -/
def opcodeKnown (op : Nat) : Bool :=
  decide (1 ≤ op ∧ op ≤ 4) || op == 0x10 || op == 0x11 || op == 0x20 || op == 0x21 || op == 0x30 || op == 0x31 ||
    decide (0x38 ≤ op ∧ op ≤ 0x3B) || op == 0x40 || op == 0x41 || op == 0x50 || op == 0x51 || op == 0x60 || op == 0x61 ||
    op == 0x70

/-- CMD_OPCODE: a held opcode at the head of core p's stream faults with 0x01 (R243). -/
def execCmdOpcode (p : CoreId) (s : State) : Host.Outcome State Fault Refusal :=
  .next (match s.nextCmd p with
    | none => s
    | some cmd => if opcodeKnown (bits cmd 127 120) then s else s.fault p.val 0x01 0 cmd (s.core p).pos)

end Sys2Proof.Machine
end

