-- ==== Sys2Proof/Machine/Rewrite.lean ====
section
/-! DEFINITION. What the placement engine rewrites when a task moves (R165, R244, R301, R318): the physical addresses and
semaphore numbers in the commands of a task's ring and in the structures that they name, on every loop iteration. -/

namespace Sys2Proof.Machine

/-- A node-local address after a move: a place in an old core's scratchpad becomes the same place in the new core's
(R301). -/
def Move.addr (m : Move) (a : Nat) : Nat :=
  let b := addrBase a
  match m.cores.find? (fun e => decide (spBase e.1 ≤ b ∧ b < spBase (e.1 + 1))) with
  | some e => addrMode a * 2 ^ 48 + spBase e.2 + (b - spBase e.1)
  | none => a

/-- A semaphore number after a move (R318). -/
def Move.sem (m : Move) (n : Nat) : Nat :=
  ((m.oldSems.zip m.newSems).find? (fun e => e.1 == n)).elim n (·.2)

/-- A global address after a move, where it names this node. -/
def Move.global (m : Move) (node ga : Nat) : Nat :=
  if ga / 2 ^ 52 = node then node * 2 ^ 52 + m.addr (ga % 2 ^ 52) else ga

/-- A tensor descriptor after a move: BASE, SCALE_BASE and ZP_BASE (R197). -/
def Move.tensor (m : Move) (d : Nat) : Nat :=
  let d1 := setBits d 138 87 (m.addr (bits d 138 87))
  let d2 := setBits d1 190 139 (m.addr (bits d 190 139))
  setBits d2 242 191 (m.addr (bits d 242 191))

/-- A transfer descriptor after a move (R218). -/
def Move.transfer (m : Move) (node d : Nat) : Nat :=
  let d1 := setBits d 511 448 (m.global node (bits d 511 448))
  let d2 := setBits d1 447 384 (m.global node (bits d 447 384))
  let d3 := setBits d2 99 48 (m.addr (bits d 99 48))
  setBits (setBits d3 47 32 (m.sem (bits d 47 32))) 31 16 (m.sem (bits d 31 16))

/-- A command after a move: semaphore and Cuff numbers, and LITE's destination. -/
def Move.command (m : Move) (node cmd : Nat) : Nat :=
  let op := bits cmd 127 120
  if op = 0x30 ∨ op = 0x31 then
    let n := m.sem (cuffSem cmd)
    setBits (setBits cmd 115 101 (n / 2)) 116 116 (n % 2)
  else if 0x38 ≤ op ∧ op ≤ 0x3B then setBits cmd 116 101 (m.sem (bits cmd 116 101))
  else if op = 0x21 then
    let dst := bits cmd 79 16
    setBits (setBits cmd 79 16 (m.global node dst)) 95 80
      (if dst / 2 ^ 52 = node then m.sem (bits cmd 95 80) else bits cmd 95 80)
  else cmd

/-- The offsets of a named structure over every loop iteration (R246): each list of `adv` holds one open level's
advances. -/
def allOffsets (adv : List (List Int)) (off : Nat) (advances : Bool) : List Nat :=
  if advances then
    ((adv.foldl (fun acc l => acc.flatMap (fun a => l.map (fun x => a + x))) [(off : Int)]).filter
      (fun o => decide (0 ≤ o ∧ o < 0x400000))).map Int.toNat
  else [off]

/-- A place of a structure: its offset, 0 for a tensor descriptor, 1 for a transfer descriptor. -/
abbrev StructPlace := Nat × Nat

/-- The tensor descriptors that a field of bit 15 and a slot names. -/
def slotPlaces (adv : List (List Int)) (f : Nat) (advances : Bool) : List StructPlace :=
  if bit f 15 then (allOffsets adv (128 * (f % 32768)) advances).map (fun o => (o, 0)) else []

/-- Places of one kind over every iteration. -/
def placesOf (adv : List (List Int)) (off : Nat) (advances : Bool) (kind : Nat) : List StructPlace :=
  (allOffsets adv off advances).map (fun o => (o, kind))

/-- The structures that a command names. -/
def namedBy (m : SMap Byte) (base : Nat) (adv : List (List Int)) (cmd : Nat) : List StructPlace :=
  let op := bits cmd 127 120
  if op = 0x01 then placesOf adv (128 * bits cmd 114 100) (bit cmd 36) 0
  else if op = 0x02 then placesOf adv (128 * bits cmd 114 100) (bit cmd 16) 0
  else if op = 0x03 then placesOf adv (128 * bits cmd 115 101) (bit cmd 11) 0
  else if op = 0x50 ∧ bits cmd 119 118 = 0 then placesOf adv (128 * bits cmd 113 99) (bit cmd 114) 0
  else if op = 0x20 then placesOf adv (64 * bits cmd 115 100) (bit cmd 99) 1
  else if op = 0x10 then
    let a := bit cmd 103
    let ext := if bit cmd 15 then allOffsets adv (128 * bits cmd 14 0) a else []
    slotPlaces adv (bits cmd 63 48) a ++ slotPlaces adv (bits cmd 47 32) a ++ slotPlaces adv (bits cmd 31 16) a ++
      ext.flatMap (fun o => slotPlaces adv (readMem m (base + o + 12) 2) false)
  else []

/-- One structure rewritten where it lies in the scratchpad. -/
def Move.structAt (mv : Move) (node base kind off : Nat) (m : SMap Byte) : SMap Byte :=
  if kind = 0 then writeMem m (base + off) 128 (mv.tensor (readMem m (base + off) 128))
  else writeMem m (base + off) 64 (mv.transfer node (readMem m (base + off) 64))

/-- A structure is rewritten once: the places done so far. -/
abbrev Done := List StructPlace

/-- The commands of a ring from `pos`, n of them, rewritten with what they name. -/
def Move.walk (mv : Move) (node base : Nat) : Nat → Nat → List (List Int) → Done → SMap Byte → SMap Byte
  | 0, _, _, _, m => m
  | n + 1, pos, adv, done, m =>
    let cmd := readMem m (base + pos) 16
    let op := bits cmd 127 120
    let m1 := writeMem m (base + pos) 16 (mv.command node cmd)
    if op = 0x40 then
      mv.walk node base n (pos + 16)
        (adv ++ [(List.range (bits cmd 119 104)).map (fun i => (i : Int) * sbits cmd 103 88 * 128)]) done m1
    else if op = 0x41 then mv.walk node base n (pos + 16) adv.dropLast done m1
    else
      let r := (namedBy m base adv cmd).foldl (fun (acc : Done × SMap Byte) x =>
        if acc.1.contains x then acc else (x :: acc.1, mv.structAt node base x.2 x.1 acc.2)) (done, m1)
      mv.walk node base n (pos + 16) adv r.1 r.2

/-- A LITE after a move. -/
def Move.lite (m : Move) (node : Nat) (l : LiteMsg) : LiteMsg :=
  { l with dst := m.global node l.dst, sem := if l.dst / 2 ^ 52 = node then m.sem l.sem else l.sem }

/-- A queued command after a move: the semaphore that it acquires or releases. -/
def Move.queued (m : Move) (q : Queued) : Queued :=
  match q.e with
  | .acq n k asked => { q with e := .acq (m.sem n) k asked }
  | .rel n k => { q with e := .rel (m.sem n) k }
  | _ => q

/-- A held action after a move. -/
def Move.act (m : Move) (node : Nat) (a : HeldAct) : HeldAct :=
  match a with
  | .lite l => .lite (m.lite node l)
  | .add n d ret => .add (m.sem n) d ret
  | .dma e d => .dma e (m.transfer node d)
  | _ => a

/-- The commands that a core has fetched, queued, sent or holds, after a move. -/
def Move.core (m : Move) (node : Nat) (c : Core) : Core :=
  { c with
    fetched := c.fetched.map (m.command node)
    qLoader := c.qLoader.map m.queued
    qArray := c.qArray.map m.queued
    qDrain := c.qDrain.map m.queued
    qVector := c.qVector.map m.queued
    lites := c.lites.map (m.lite node)
    held := c.held.map (m.act node)
    replayAcq := c.replayAcq.map (fun e => (e.1, m.sem e.2.1, e.2.2)) }

/-- The stream of the task on core p rewritten for a move: its ring with what that names, what it has decoded, and the transfer
descriptors that it has queued (R165, R244, R301, R318). -/
def State.rewriteCore (s : State) (p : Nat) (mv : Move) : State :=
  let c := s.coreAt p
  ({ s with
    mem := mv.walk s.nodeId (spBase p) (c.ringLen / 16) c.ringBase [] [] s.mem
    dmas := s.dmas.map (fun (e : Nat × List Dma) => (e.1, e.2.map (fun (x : Dma) =>
      if x.by_ = some p then { x with desc := mv.transfer s.nodeId x.desc } else x)))
    safety := { s.safety with pairs := s.safety.pairs.map (fun (q : Pair) =>
      if q.leader = p then { q with acqd := q.acqd.map (fun (e : Nat × Nat × Nat) => (e.1, mv.sem e.2.1, e.2.2)) } else q) } }).modCoreAt p
    (mv.core s.nodeId)

end Sys2Proof.Machine
end

