-- ==== Sys2Proof/Machine/Rings.lean ====
section
/-! DEFINITION. Host rings, MSI-X messages and completions (R500 to R504, R507). -/

namespace Sys2Proof.Machine

/-- The key of a ring: function and BAR0 offset of its register block. -/
def ringKey (f off : Nat) : Nat := f * 65536 + off

/-- A ring's registers. -/
def State.ring (s : State) (f off : Nat) : Ring := sget s.host.rings (fun _ => Ring.reset) (ringKey f off)

/-- The state with a ring replaced. -/
def State.setRing (s : State) (f off : Nat) (r : Ring) : State :=
  { s with host := { s.host with rings := sput s.host.rings (fun _ => Ring.reset) (ringKey f off) r } }

/-- The function of a queue set, and its job ring (R500). -/
def qsetFunc (q : Nat) : Nat := if q < 16 then 0 else q - 15
def qsetJobRing (q : Nat) : Nat := if q < 16 then 0x2100 + 0x40 * q else 0x2100

/-- The partition that a queue set serves, 255 where a virtual function is unbound (R500). -/
def State.qsetPart (s : State) (q : Nat) : Nat := if q < 16 then q else s.od 0x4040 (q - 15)

/-- Entries in a ring (R501). -/
def Ring.count (r : Ring) : Nat := (r.prod + 2 ^ 32 - r.cons) % 2 ^ 32

/-- An MSI-X message on a vector; a masked one sets its pending bit (R503). -/
def State.msix (s : State) (f vec : Nat) : State :=
  if s.host.msixMask.contains (f, vec) then
    (if s.host.msixPending.contains (f, vec) then s
     else { s with host := { s.host with msixPending := s.host.msixPending ++ [(f, vec)] } })
  else s.emit (.msix f vec)

/-- The signal for an entry written: at once after a quiet interval, else at the interval's end (R503). -/
def State.ringSignal (s : State) (f off : Nat) : State :=
  let r := s.ring f off
  if r.open_ then s.setRing f off { r with due := true }
  else (s.setRing f off { r with open_ := decide (r.mod_ ≠ 0), due := false }).msix f r.vec

/-- An entry of `bytes` bytes written into a device-produced ring, then its index, then its signal; none where the ring
is disabled or full (R501, R503). The first entries of a ring's pass carry PHASE 1 where `phase` asks for it. -/
def State.ringPut (s : State) (f off bytes v : Nat) (phase : Bool) : Option State :=
  let r := s.ring f off
  if ¬ r.enable ∨ 2 ^ r.log2n ≤ r.count ∨ ¬ s.host.pcieUp then none
  else
    let ph := if phase ∧ r.prod / 2 ^ r.log2n % 2 = 0 then 1 else 0
    let s1 := s.emit (.hostWrite f off (r.base + r.prod % 2 ^ r.log2n * bytes) bytes (v + ph))
    some ((s1.setRing f off { r with prod := (r.prod + 1) % 2 ^ 32 }).ringSignal f off)

/-- MSI_X_MESSAGE (R503): a ring's MOD interval ends; the entries inside it are covered by one message. -/
def execMsiXMessage (f : FuncId) (off : Nat) (s : State) : Host.Outcome State Fault Refusal :=
  let r := s.ring f.val off
  .next (if ¬ r.open_ then s
    else if r.due then (s.setRing f.val off { r with due := false }).msix f.val r.vec
    else s.setRing f.val off { r with open_ := false })

/-- Statuses of a completion. -/
def stDone : Nat := 0
def stFaulted : Nat := 1
def stSuspended : Nat := 2
def stResumed : Nat := 3
def stReleased : Nat := 4
def stRefused : Nat := 5
def stJobLost : Nat := 6
def stPrioSet : Nat := 7

/-- A completion entry without PHASE. -/
def complBits (user time handle code status task : Nat) : Nat :=
  user % 2 ^ 64 * 2 ^ 192 + time % 2 ^ 96 * 2 ^ 96 + handle % 2 ^ 32 * 2 ^ 64 + code % 2 ^ 16 * 2 ^ 48 +
    status % 256 * 2 ^ 40 + task % 256 * 2 ^ 32

/-- Completions held for a queue set. -/
def State.heldFor (s : State) (q : Nat) : List CompEntry := s.host.held.filter (fun e => e.qset == q)

/-- The oldest completion held for a queue set written to its ring, as long as it has room. -/
def State.flushHeld (s : State) (q : Nat) : Nat → State
  | 0 => s
  | n + 1 =>
    match s.heldFor q with
    | [] => s
    | e :: _ =>
      match s.ringPut (qsetFunc q) (qsetJobRing q + 0x20) 32 e.entry true with
      | none => s
      | some s1 => ({ s1 with host := { s1.host with held := s1.host.held.erase e } }).flushHeld q n

/-- A completion for a queue set: to its ring, behind those that wait for it; Crown holds it while the ring is full
(R503, table "Ring kinds"). -/
def State.complete (s : State) (q user handle code status task : Nat) : State :=
  let e : CompEntry := ⟨q, complBits user s.stamp handle code status task⟩
  ({ s with host := { s.host with held := s.host.held ++ [e] } }).flushHeld q (s.host.held.length + 1)

/-- A completion of a job (R504). -/
def State.completeJob (s : State) (j : Job) (code status task : Nat) : State :=
  s.complete j.qset (bits j.desc 319 256) j.handle code status task

end Sys2Proof.Machine
end

