-- ==== Sys2Proof/Machine/Placement.lean ====
section
/-! DEFINITION. The placement engine: partitions, jobs, saving and restoring tasks, moves, borrowing, the completion
collector, JOB_CTL (R292 to R325, R504 to R508). -/

namespace Sys2Proof.Machine

/-! ### Cores in service and their partitions (R12, R293, R297) -/

/-- The free cores in service, ascending. -/
def State.freeCores (s : State) : List Nat :=
  (List.range 72).filter (fun p => s.inService p && s.coreOwner p == none)

/-- The core that a new logical core of partition k gets from the free cores `free` (R297). -/
def State.pickCore (s : State) (k : Nat) (free : List Nat) : Option Nat :=
  free.foldl (fun m p => match m with
    | none => some p
    | some q => if s.holdsIn k (q / 9) < s.holdsIn k (p / 9) then some p else m) none

/-- The next role generation: 0 is skipped (R441). -/
def nextGen (g : Nat) : Nat := if (g + 1) % 65536 = 0 then 1 else (g + 1) % 65536

/-- The role generation of a unit (log 1: 1 after reset). -/
def State.role (s : State) (u : Nat) : Nat := sget s.roleGen (fun _ => 1) u

/-- The role generation of a unit advanced (R441). -/
def State.bumpRole (s : State) (u : Nat) : State :=
  { s with roleGen := sput s.roleGen (fun _ => 1) u (nextGen (s.role u)) }

/-- NCORES of partition k. -/
def State.ncores (s : State) (k : Nat) : Nat := bits (s.od 0x4020 (k + 1)) 6 0

/-- Logical cores of partition k that are its own, lent ones too: neither borrowed nor without a physical core (R293). -/
def State.ownLogical (s : State) (k : Nat) : List Nat :=
  (List.range 64).filter (fun l => decide (s.mapByte k l < 0x80 ∨ s.mapByte k l = 0xFE))

/-- Partition k's first logical core that should have a physical core and has none; where borrowed cores hold logical numbers of
partition 0 below NCORES, the first one beyond them. -/
def State.missing (s : State) (k : Nat) : Option Nat :=
  ((List.range (s.ncores k)).find? (fun l => s.mapByte k l == 0xFF)).orElse (fun _ =>
    if k = 0 ∧ (s.ownLogical k).length < s.ncores k then (List.range 64).find? (fun l => s.mapByte k l == 0xFF) else none)

/-- Partition k grown from free cores, at most n logical cores (R295, R297). -/
def State.grow (s : State) (k : Nat) : Nat → State
  | 0 => s
  | n + 1 =>
    match s.missing k, s.pickCore k s.freeCores with
    | some l, some p => ((s.setMapByte k l p).bumpRole p).grow k n
    | _, _ => s

/-- Every partition grown as far as free cores go. -/
def State.growAll (s : State) : State := (List.range 16).foldl (fun st k => st.grow k 64) s

/-! ### HBM segments (R303, R304) -/

/-- Segments of partition k on stack st. -/
def State.segsOn (s : State) (k st : Nat) : Nat := ((s.segsOf k).filter (fun g => sget s.segStack zeroD g == st + 1)).length

/-- The stacks of a stack-local partition with n segments: the fewest that hold them and no other partition uses, those that
hold most of its segments first, then the lowest; none where there are too few (R304; log 41). -/
def State.stacksFor (s : State) (k n : Nat) : Option (List Nat) :=
  let l := (List.range 4).filter (fun st => !s.stackTaken k st && !s.power.hbmLost.contains st)
  let ordered := l.foldl (fun acc st =>
    let before := acc.takeWhile (fun x => decide (s.segsOn k st ≤ s.segsOn k x))
    before ++ st :: acc.drop before.length) []
  let want := (n + 23) / 24
  if want ≤ l.length then some (ordered.take want) else none

/-- Stacks on which some partition holds all of its HBM alone. -/
def State.stackPrivate (s : State) (st : Nat) : Bool :=
  (List.range 96).any (fun g => sget s.segOwner zeroD g != 0 && sget s.segStack zeroD g == st + 1)

/-- One segment more for partition k, on stack `st` (0: interleaved, else stack + 1). -/
def State.addSeg (s : State) (k m : Nat) : State :=
  match (List.range 96).find? (fun g => sget s.segOwner zeroD g == 0) with
  | none => s
  | some g =>
    let room := if m = 0 then (List.range 4).all (fun st => decide (s.stackUse st + 1 ≤ 96) && !s.stackPrivate st)
      else decide (s.stackUse (m - 1) + 4 ≤ 96)
    if room then
      ({ s with
        segOwner := sput s.segOwner zeroD g (k + 1)
        segStack := sput s.segStack zeroD g m }).bumpRole (144 + g)
    else s

/-- A segment given back. -/
def State.dropSeg (s : State) (g : Nat) : State :=
  ({ s with segOwner := sput s.segOwner zeroD g 0, segStack := sput s.segStack zeroD g 0 }).bumpRole (144 + g)

/-- Partition k's segments brought to what its configuration asks for: the highest-numbered go first, the lowest free ones
come (R303, R304; log 41). -/
def State.fitHbm (s : State) (k : Nat) : State :=
  let cfg := s.od 0x4020 (k + 1)
  let want := bits cfg 23 16
  let localOnly := bit cfg 15
  let wrong := (s.segsOf k).filter (fun g => decide (sget s.segStack zeroD g ≠ 0) != localOnly)
  let s1 := wrong.foldl State.dropSeg s
  let sts := s1.stacksFor k want
  let off := (s1.segsOf k).filter (fun g => localOnly && !((sts.getD []).contains (sget s1.segStack zeroD g - 1)))
  let on := (s1.segsOf k).filter (fun g => !off.contains g)
  let s2 := ((on ++ off).drop want).foldl State.dropSeg s1
  let short := want - (s2.segsOf k).length
  if localOnly then
    (List.range short).foldl (fun st _ =>
      match (sts.getD []).find? (fun x => decide (st.stackUse x + 4 ≤ 96)) with
      | some x => st.addSeg k (x + 1)
      | none => st) s2
  else (List.range short).foldl (fun st _ => st.addSeg k 0) s2

/-- An accepted partition configuration in force: growth at once, shrinking as cores become free (R295). -/
def State.applyPartition (s : State) (k : Nat) : State := (s.grow k 64).fitHbm k

/-- The logical cores that partition k is to give up, ascending: its own in excess of NCORES, the highest-numbered. -/
def State.excess (s : State) (k : Nat) : List Nat :=
  let l := s.ownLogical k
  if k = 0 then l.drop (s.ncores k) else l.filter (fun x => decide (s.ncores k ≤ x))

/-- PARTITION_CORE_FREED (R295): the highest logical core in excess of NCORES that is free of jobs, and not lent, leaves;
partitions that wait for cores grow. -/
def execPartitionCoreFreed (k : PartId) (s : State) : Host.Outcome State Fault Refusal :=
  .next (match ((s.excess k.val).filter (fun l =>
      decide (s.mapByte k.val l < 72) && (s.coreAt (s.mapByte k.val l)).job.isNone)).getLast? with
    | none => s
    | some l => ((s.setMapByte k.val l 0xFF).bumpRole (s.mapByte k.val l)).growAll)

/-! ### Semaphores and banks of a job (R244, R305; log 42) -/

/-- The semaphores that a task on core p gets: the first 910 of its canton that nobody owns. -/
def State.freeSems (s : State) (c : Nat) : List Nat :=
  (((List.range 8192).map (fun i => 8192 * c + i)).filter (fun n => sget s.semOwner zeroD n == 0)).take 910

/-- Semaphores given to partition k, holding 0 (R237). -/
def State.giveSems (s : State) (k : Nat) (l : List Nat) : State :=
  l.foldl (fun st n => { st with semOwner := sput st.semOwner zeroD n (k + 1), sems := sput st.sems zeroD n 0 }) s

/-- Semaphores given back. -/
def State.dropSems (s : State) (l : List Nat) : State :=
  l.foldl (fun st n => { st with semOwner := sput st.semOwner zeroD n 0, waiters := sput st.waiters (fun _ => []) n [] }) s

/-- Bank b of canton c given to partition k. -/
def State.ownBank (s : State) (k c b : Nat) : State :=
  ({ s with bankOwner := sput s.bankOwner zeroD (8 * c + b) (k + 1) }).bumpRole (72 + 8 * c + b)

/-- Banks of canton c for partition k: every free one where all cores in service there are its own, as R287 asks of a
timing-locked partition; else, where it owns none there, the lowest free one (log 42). -/
def State.giveBank (s : State) (k c : Nat) : State :=
  let free := (List.range 8).filter (fun b => sget s.bankOwner zeroD (8 * c + b) == 0)
  if (List.range 9).all (fun i => !s.inService (9 * c + i) || s.coreOwner (9 * c + i) == some k) then
    free.foldl (fun st b => st.ownBank k c b) s
  else if (List.range 8).any (fun b => sget s.bankOwner zeroD (8 * c + b) == k + 1) then s
  else (free.take 1).foldl (fun st b => st.ownBank k c b) s

/-- The core at which a task runs, or whose memory it left when it was saved. -/
def Task.place (t : Task) : Option Nat := t.core.orElse (fun _ => t.saved.map (·.home))

/-- Whether a job of partition k has a task in canton c, a saved one too: a suspended job keeps its homes (R318). -/
def State.partitionIn (s : State) (k c : Nat) : Bool :=
  s.jobs.any (fun j => j.part == k && j.tasks.any (fun t => t.place.any (fun p => p / 9 == c)))

/-- The banks of partition k in cantons where it has no task, given back. -/
def State.dropBanks (s : State) (k : Nat) : State :=
  (List.range 64).foldl (fun st i =>
    if sget st.bankOwner zeroD i = k + 1 ∧ ¬ st.partitionIn k (i / 8) then
      ({ st with bankOwner := sput st.bankOwner zeroD i 0 }).bumpRole (72 + i)
    else st) s

/-! ### Cores cleared and given up -/

/-- A core whose task has gone: nothing in its engines; flags, digest slots, step counter and fault record stand until the
next job starts. -/
def Core.release (c : Core) : Core :=
  { Core.reset with flags := c.flags, digests := c.digests, digestNz := c.digestNz, step := c.step, frec := c.frec, vl := c.vl }

/-- The waiters that core p left. -/
def State.dropWaiters (s : State) (p : Nat) : State :=
  { s with waiters := (s.waiters.map (fun e => (e.1, e.2.filter (fun w =>
      match w.who with | .queue q _ => q != p | _ => true)))).filter (fun e => !e.2.isEmpty) }

/-- Core p released: its task has gone and its role changes (R441). -/
def State.releaseCore (s : State) (p : Nat) : State :=
  ((s.dropWaiters p).modCoreAt p Core.release).bumpRole p

/-- The scratchpad of core p without valid rows: every byte reads as zero (R193, R313). -/
def State.clearScratch (s : State) (p : Nat) : State :=
  (List.range 4).foldl (fun st b => (st.loseBank (4 * p + b)).setBank (4 * p + b)
    { st.bank (4 * p + b) with cleared := true, valid := [] }) s

/-- Core p cleared as at handover (R313). -/
def State.clearCore (s : State) (p : Nat) : State :=
  ((s.dropWaiters p).modCoreAt p (fun _ => Core.reset)).clearScratch p

/-! ### Starting jobs (R298 to R300, R504, R505, R516) -/

/-- Whether no task runs on a core: it has none, or its task has halted (R298). -/
def Core.idle (c : Core) : Bool := c.job.isNone || c.mode == .halted

/-- The free logical cores of partition k with their physical cores, ascending (R298); a core that a loan waits for is held for
it (R312, R313). -/
def State.freeLogical (s : State) (k : Nat) : List (Nat × Nat) :=
  (List.range 64).filterMap (fun l =>
    let b := s.mapByte k l
    match byteCore b with
    | some p =>
      if (s.coreAt p).idle ∧ (if b < 0x80 then s.loans.all (fun x => x.core != p) else s.loans.any (fun x => x.core == p && x.ready))
      then some (l, p) else none
    | none => none)

/-- Free cores of a list in canton c. -/
def inCanton (l : List (Nat × Nat)) (c : Nat) : List (Nat × Nat) := l.filter (fun x => x.2 / 9 == c)

/-- Cantons by how many of the free cores they hold, most first, lower canton first among equals. -/
def cantonsByRoom (l : List (Nat × Nat)) : List Nat :=
  (List.range 8).foldl (fun acc c =>
    let n := (inCanton l c).length
    let before := acc.takeWhile (fun d => decide (n ≤ (inCanton l d).length))
    before ++ c :: acc.drop before.length) []

/-- The first cantons of a list that together hold n free cores. -/
def fewest (l : List (Nat × Nat)) (n : Nat) : List Nat → List Nat
  | [] => []
  | c :: t => if n = 0 then [] else c :: fewest l (n - (inCanton l c).length) t

/-- The cantons of the running replicas of set r, those of preempted tasks among them, and whether there are any (R300). -/
def State.replicaCantons (s : State) (r h : Nat) : List Nat :=
  (s.jobs.filter (fun j => j.handle != h && bits j.desc 171 156 == r && (j.st == .running || j.st == .suspending))).flatMap
    (fun j => j.tasks.filterMap (fun t => t.place.map (· / 9)))

/-- The cores for n tasks of a job, none where it must wait (R298 to R300): those of one canton where they fit, else across
the fewest cantons. Of the cantons that fit, the one with the lowest free logical core (log 43). -/
def State.placeTasks (s : State) (j : Job) (n : Nat) : Option (List Nat) :=
  let repl := bits j.desc 171 156
  let taken := if repl = 0 then [] else s.replicaCantons repl j.handle
  let dom := bits j.desc 130 129
  let free := (s.freeLogical j.part).filter (fun x => !(dom == 1 && taken.contains (x.2 / 9)))
  if free.length < n ∨ (dom = 2 ∧ ¬ taken.isEmpty) then none
  else
    match free.find? (fun x => decide (n ≤ (inCanton free (x.2 / 9)).length)) with
    | some x => some (((inCanton free (x.2 / 9)).take n).map (·.2))
    | none =>
      let cs := fewest free n (cantonsByRoom free)
      some (((free.filter (fun x => cs.contains (x.2 / 9))).take n).map (·.2))

/-- The followers of a list of leaders: each the first free core of the lowest canton that does not hold its leader
(R516). -/
def followers (free : List (Nat × Nat)) : List Nat → Option (List Nat)
  | [] => some []
  | p :: t =>
    match (List.range 8).find? (fun c => c != p / 9 && !(inCanton free c).isEmpty) with
    | none => none
    | some c =>
      match (inCanton free c).head? with
      | none => none
      | some x => (followers (free.filter (fun y => y != x)) t).map (fun l => x.2 :: l)

/-- Leaders and followers for n tasks of a job, or the cores alone outside a safety partition. -/
def State.placeJob (s : State) (j : Job) (n : Nat) : Option (List Nat × List Nat) :=
  match s.placeTasks j n with
  | none => none
  | some ps =>
    if s.isSafety j.part then
      (followers ((s.freeLogical j.part).filter (fun x => !ps.contains x.2)) ps).map (fun f => (ps, f))
    else some (ps, [])

/-- A core at the start of task t of job j (R237, R505). -/
def startedCore (j : Job) (t : Nat) (e : Task) : Core :=
  { Core.reset with
    mode := .running
    job := some j.handle
    task := t
    ringBase := 64 * e.ringOff
    ringLen := 64 * e.ringLen
    pos := 64 * e.ringOff
    vrate := b2n (bit j.desc 126)
    alevel := bits j.desc 123 120
    seed := bits j.desc 511 384
    step := bits j.desc 383 320 }

/-- The cells of a range of memory, moved to another address. -/
def cellsAt (m : SMap Byte) (a n dest : Nat) : List (Nat × Byte) :=
  (m.filter (fun e => decide (a ≤ e.1 ∧ e.1 < a + n))).map (fun e => (e.1 - a + dest, e.2))

/-- Cells stored. -/
def putCells (m : SMap Byte) (l : List (Nat × Byte)) : SMap Byte := l.foldl (fun m e => sput m memDef e.1 e.2) m

/-- The scratchpad of core p with an image of n 4 KiB units copied to its start; the rows beyond read as zero (R505). -/
def State.loadImage (s : State) (p image n : Nat) : State :=
  let cells := cellsAt s.mem image (4096 * n) (spBase p)
  let s1 := s.clearScratch p
  let s2 := { s1 with mem := putCells s1.mem cells }
  (List.range 4).foldl (fun st b =>
    st.setBank (4 * p + b) { st.bank (4 * p + b) with valid := List.range (min 4096 (16 * n - 4096 * b)) }) s2

/-- Task t of job j gets core p and semaphores there, which hold 0 (R237, R244). -/
def State.assignTask (s : State) (j : Job) (t p : Nat) : State :=
  let sems := s.freeSems (p / 9)
  (s.giveSems j.part sems).modJob j.handle (fun j => { j with
    tasks := (j.tasks[t]?).elim j.tasks (fun e => j.tasks.set t { e with core := some p, sems := sems }) })

/-- What an image names, and what the placement engine writes there for the copy that core `own` runs of task t (R165, R244;
log 150): the core of task u by the number u, in a safety partition by 2u and 2u + 1 (R516), and the i-th
semaphore of task u by 910u + i. -/
def startMove (j : Job) (ps fs : List Nat) (t own : Nat) : Move where
  cores := (List.range ps.length).flatMap (fun u =>
    let l := if u = t then own else nth ps u
    if fs.isEmpty then [(u, l)] else [(2 * u, l), (2 * u + 1, if u = t then own else nth fs u)])
  oldSems := (List.range j.tasks.length).flatMap (fun u =>
    (List.range ((j.tasks[u]?).elim 0 (fun e => e.sems.length))).map (910 * u + ·))
  newSems := j.tasks.flatMap (·.sems)

/-- Task t of job j started on core p (R237, R505): its image is copied, physical addresses and semaphore numbers are written
into it (R165, R244), its stream begins. -/
def State.startTask (s : State) (j : Job) (ps fs : List Nat) (t p : Nat) (e : Task) : State :=
  ((((s.bumpRole p).loadImage p e.image e.imgLen).modCoreAt p (fun _ => startedCore j t e)).rewriteCore p
    (startMove j ps fs t p)).giveBank j.part (p / 9)

/-- A new pair (R516); what a job that has halted there left of pairs is gone. -/
def State.addPair (s : State) (h l f : Nat) : State :=
  { s with safety := { s.safety with
      pairs := s.safety.pairs.filter (fun q => q.leader != l && q.leader != f && q.follower != l && q.follower != f) ++
        [⟨h, l, f, none, false, s.coreAt l, [], []⟩] } }

/-- Task t of a job started on its core, and on its follower's. -/
def State.startUnit (s : State) (j : Job) (ps fs : List Nat) (t : Nat) : State :=
  match j.tasks[t]?, ps[t]? with
  | some e, some p =>
    let s1 := s.startTask j ps fs t p e
    match fs[t]? with
    | some f => (s1.startTask j ps fs t f e).addPair j.handle p f
    | none => s1
  | _, _ => s

/-- The tasks of a job started on their cores, in ascending order, once every one has its semaphores. -/
def State.startTasks (s : State) (j : Job) (ps fs : List Nat) : State :=
  let s1 := (List.range j.tasks.length).foldl (fun st t => (ps[t]?).elim st (fun p => st.assignTask j t p)) s
  match s1.jobOf j.handle with
  | some j1 => (List.range j1.tasks.length).foldl (fun st t => st.startUnit j1 ps fs t) s1
  | none => s1

/-- Whether Crown admits jobs (R535, R539). -/
def State.admits (s : State) : Bool := s.safety.crown == .running && !s.safety.crownFault && !s.power.powerFail

/-- A job's run under staged commit begins (R446). -/
def State.openRun (s : State) (j : Job) : State :=
  if bit j.desc 125 then
    { s with fab := { s.fab with runs := s.fab.runs ++
        [⟨j.handle, j.gen, [s.nodeId], bits j.desc 383 320, [], none, false, []⟩] } }
  else s

/-! ### Saving and restoring (R306 to R311) -/

/-- A save map in force: live byte ranges, refetch ranges, live grid rows; none where all is live (R307, R308). -/
structure SaveMap where
  live : List (Nat × Nat)
  refetch : List (Nat × Nat × Nat)
  rows : List (Nat × Nat)
deriving DecidableEq, Repr

/-- A save map from its entries. -/
def parseSave (l : List Nat) : SaveMap where
  live := (l.filter (fun e => bits e 127 126 == 1)).map (fun e => (64 * bits e 125 110, 64 * (bits e 109 94 + 1)))
  refetch := (l.filter (fun e => bits e 127 126 == 2)).map
    (fun e => (64 * bits e 125 110, 64 * (bits e 109 94 + 1), bits e 51 0))
  rows := (l.filter (fun e => bits e 127 126 == 3)).map (fun e => (bits e 125 110, bits e 109 94 + 1))

/-- The state of the task on core p, saved, by the map that was read at its boundary (R306, R307, R310). -/
def State.savedOf (s : State) (p : Nat) (j : Job) : Saved :=
  let c := s.coreAt p
  let base := spBase p
  let all := cellsAt s.mem base 0x400000 0
  let ds := ((s.dmaQ p).filter (fun x => !x.started)).map (·.desc)
  match c.saveMap.map parseSave with
  | none => ⟨c, p, all, [], ds, j.moves.length⟩
  | some m =>
    let live := all.filter (fun e => m.live.any (fun r => decide (r.1 ≤ e.1 ∧ e.1 < r.1 + r.2)))
    let rows := c.grid.filter (fun g => m.rows.any (fun r => decide (r.1 ≤ g.1 ∧ g.1 < r.1 + r.2)))
    ⟨{ c with grid := rows }, p, live, m.refetch, ds, j.moves.length⟩

/-- A WLOAD of the weight state run again on core p: its descriptor is read again (R310). -/
def reload (m : SMap Byte) (p : Nat) (b : Option Block) : Option Block :=
  b.map (fun b => (buildBlock m { b.wl with desc := readMem m (spBase p + b.wl.doff) 128 }).1)

/-- The semaphores of a task that moves from core `old` to `new`: those of the new canton where it changes (R318). Where that
has too few free ones, the task keeps those it has, so that no count is lost (log 42). -/
def State.movedSems (s : State) (t : Task) (old new : Nat) : List Nat :=
  let l := (s.freeSems (new / 9)).take t.sems.length
  if old / 9 = new / 9 ∨ l.length < t.sems.length then t.sems else l

/-- The values of a task's semaphores moved to their new places, with owners and waiters (R318). -/
def State.moveSems (s : State) (k : Nat) (m : Move) : State :=
  if m.oldSems = m.newSems then s
  else
    let s1 := s.giveSems k m.newSems
    let s2 := (m.oldSems.zip m.newSems).foldl (fun st e =>
      { st with
        sems := sput (sput st.sems zeroD e.2 (st.semCount e.1)) zeroD e.1 0
        waiters := sput (sput st.waiters (fun _ => []) e.2 (sget st.waiters (fun _ => []) e.1)) (fun _ => []) e.1 [] }) s1
    m.oldSems.foldl (fun st n => { st with semOwner := sput st.semOwner zeroD n 0 }) s2

/-- A saved task restored on core p (R309 to R311): bytes outside every range read as zero, refetch ranges come from their
homes, the moves that its job made meanwhile are rewritten, the weight blocks are loaded again; the stream goes on. -/
def State.restoreTask (s : State) (p : Nat) (j : Job) (sv : Saved) (moves : List Move) : State :=
  let s1 := (s.bumpRole p).clearScratch p
  let back := sv.refetch.flatMap (fun r => cellsAt s.mem r.2.2 r.2.1 (spBase p + r.1))
  let m := putCells (putCells s1.mem (sv.cells.map (fun e => (spBase p + e.1, e.2)))) back
  let s2 := (List.range 4).foldl (fun st b => st.setBank (4 * p + b) { st.bank (4 * p + b) with cleared := false })
    { s1 with mem := m }
  let s3 := s2.modCoreAt p (fun _ =>
    { sv.core with
      mode := if sv.core.mode = .halted then .halted else .running
      needs := [], fetched := [], tileEnds := [], seqWait := .none })
  let s4 := moves.foldl (fun st mv => st.rewriteCore p mv) s3
  let s5 := s4.modCoreAt p (fun c => { c with active := reload s4.mem p c.active, shadow := reload s4.mem p c.shadow })
  sv.dmas.foldl (fun st d => st.submitDma p (moves.foldl (fun d mv => mv.transfer s.nodeId d) d) p)
    (s5.giveBank j.part (p / 9))

/-- The cores on which a job runs, followers and spares of its pairs with them. -/
def State.coresOf (s : State) (h : Nat) : List Nat := (List.range 72).filter (fun p => (s.coreAt p).job == some h)

/-- Task t of job h put from saved state onto core p: its logical core's new place is known to every other task of the job
(R301, R318). -/
def State.placeSaved (s : State) (h t p : Nat) : State :=
  match s.jobOf h with
  | none => s
  | some j =>
    match j.tasks[t]? with
    | none => s
    | some e =>
      match e.saved with
      | none => s
      | some sv =>
        let mv : Move := ⟨[(sv.home, p)], e.sems, s.movedSems e sv.home p⟩
        let same := sv.home = p ∧ mv.oldSems = mv.newSems
        let moves := if same then j.moves else j.moves ++ [mv]
        let s1 := s.moveSems j.part mv
        let s2 := s1.restoreTask p j sv (moves.drop sv.moves)
        let others := (s.coresOf h).filter (fun q => q != p)
        let s3 := if same then s2 else others.foldl (fun st q => st.rewriteCore q mv) s2
        s3.modJob h (fun j => { j with
          moves := moves
          tasks := j.tasks.set t { e with core := some p, saved := none, sems := mv.newSems } })

/-- The task of a job that runs on core p. -/
def Job.taskOn (j : Job) (p : Nat) : Option Nat :=
  ((List.range j.tasks.length).filter (fun t => (j.tasks[t]?).any (fun e => e.core == some p))).head?

/-- Whether core p stands at a tile boundary that has retired, with no core-DMA descriptor under way (R265, R313); a complete
HALT is such a boundary (R263). -/
def State.atBoundary (s : State) (p : Nat) : Bool :=
  (s.coreAt p).stopped && !(s.dmaQ p).any (·.started)

/-- The task on core p saved, and the core without it. -/
def State.saveTask (s : State) (p : Nat) : State :=
  match (s.coreAt p).job.bind s.jobOf with
  | none => s
  | some j =>
    match j.taskOn p with
    | none => s
    | some t =>
      let sv := s.savedOf p j
      let s2 := (s.bumpRole p).modJob j.handle (fun j => { j with
        tasks := (j.tasks[t]?).elim j.tasks (fun e => j.tasks.set t { e with core := none, saved := some sv }) })
      ((s2.setDmaQ p []).dropWaiters p).modCoreAt p Core.release

/-- The task on core p saved, with its follower where it has one: both copies stand at the same boundary in the same state,
and the pair ends (R317, R516). -/
def State.saveUnit (s : State) (p : Nat) : State :=
  match s.pairOf p with
  | none => s.saveTask p
  | some q =>
    let s1 := ((s.saveTask q.leader).setDmaQ q.follower []).releaseCore q.follower
    { s1 with safety := { s1.safety with pairs := s1.safety.pairs.filter (fun y => y.leader != q.leader) } }

/-- Whether the task on core p can be saved: it has not halted, and it stands at its boundary, its follower too; a pair's row is
its leader's. -/
def State.savable (s : State) (p : Nat) : Bool :=
  s.atBoundary p && (s.coreAt p).mode != .halted &&
    (match s.pairOf p with
     | some q => q.leader == p && s.atBoundary q.follower
     | none => true)

/-- STATE_SAVE (R306, R311, R313): the task on a core that the device stopped for preemption or suspension. For a borrow
the core's DMA queue is empty first. -/
def execStateSave (p : CoreId) (s : State) : Host.Outcome State Fault Refusal :=
  let c := s.core p
  .next (if s.savable p.val ∧ (c.needs.contains .suspend ∨ (c.needs.contains .preempt ∧ (s.dmaQ p.val).isEmpty)) then
    (s.latch p.val 0 3).saveUnit p.val
  else s)

/-- Task t of job h put from saved state onto core p, and onto core f as its follower: one state goes to both, each with its own
scratchpad's addresses (R317, R516, R517). -/
def State.placePair (s : State) (h t p f : Nat) : State :=
  match (s.jobOf h).bind (fun j => j.tasks[t]?.bind (·.saved)) with
  | none => s
  | some sv =>
    let s1 := s.placeSaved h t p
    match s1.jobOf h with
    | none => s1
    | some j => (s1.restoreTask f j sv (j.moves.drop sv.moves ++ [⟨[(p, f)], [], []⟩])).addPair h p f

/-- Task t of job h put onto core p, and onto its follower's core where there is one. -/
def State.placeUnit (s : State) (h t p : Nat) (f : Option Nat) : State :=
  match f with
  | some f => s.placePair h t p f
  | none => s.placeSaved h t p

/-- The first free logical core of partition k is physical core p. -/
def State.firstFreeIs (s : State) (k p : Nat) : Bool := ((s.freeLogical k).head?.map (·.2)) == some p

/-- A task that waits to resume on a free core of partition k: preempted, its job running (R316). -/
def State.preempted (s : State) (k : Nat) : Option (Nat × Nat) :=
  s.jobs.findSome? (fun j =>
    if j.part = k ∧ j.st = .running then
      (((List.range j.tasks.length).filter (fun t => (j.tasks[t]?).any (fun e => e.saved.isSome))).head?).map
        (fun t => (j.handle, t))
    else none)

/-- STATE_RESTORE (R309 to R311, R316): a preempted task resumes on core p, the first free logical core of its
partition; in a safety partition once a core for its follower is free too (R516). -/
def execStateRestore (p : CoreId) (s : State) : Host.Outcome State Fault Refusal :=
  .next (match s.coreOwner p.val with
    | none => s
    | some k =>
      match s.preempted k with
      | some (h, t) =>
        if ¬ s.firstFreeIs k p.val then s
        else if s.isSafety k then
          (match followers ((s.freeLogical k).filter (fun x => x.2 != p.val)) [p.val] with
           | some [f] => s.placePair h t p.val f
           | _ => s)
        else s.placeSaved h t p.val
      | none => s)

/-! ### Jobs end (R269, R325, R504, R507) -/

/-- The cores of a job released, its pairs dissolved. -/
def State.releaseCores (s : State) (h : Nat) : State :=
  let s1 := (s.coresOf h).foldl State.releaseCore s
  let s2 := { s1 with safety := { s1.safety with pairs := s1.safety.pairs.filter (fun q => q.job != h) } }
  s2.modJob h (fun j => { j with tasks := j.tasks.map (fun t => { t with core := none }) })

/-- A job gone: its cores, semaphores, banks and run. -/
def State.endJob (s : State) (h : Nat) : State :=
  match s.jobOf h with
  | none => s
  | some j =>
    let s1 := (s.endFrames h).releaseCores h
    let s2 := j.tasks.foldl (fun st t => st.dropSems t.sems) s1
    let s3 := { s2 with
      jobs := s2.jobs.filter (fun x => x.handle != h)
      fab := { s2.fab with runs := s2.fab.runs.filter (fun r => r.job != h) } }
    s3.dropBanks j.part

/-- Whether every task's entry is taken; a faulted job's tasks that hold no core have none to come. -/
def Job.allTaken (j : Job) : Bool :=
  j.tasks.all (fun t => t.done || (j.st == .faulted && t.core.isNone))

/-- What follows when the entries of all of a job's tasks are taken (R325): DONE, or FAULTED with the first fault. A
faulted job keeps its cores until they are released (R269). -/
def State.tryFinish (s : State) (h : Nat) : State :=
  match s.jobOf h with
  | none => s
  | some j =>
    if ¬ j.allTaken then s
    else if j.silent then s.endJob h
    else if j.st = .faulted then
      let s1 := if j.reported then s else (s.completeJob j j.code stFaulted j.faultTask)
      let s2 := s1.modJob h (fun j => { j with reported := true })
      if (s2.coresOf h).isEmpty then s2.endJob h else s2
    else if j.st = .running ∨ j.st = .suspending then (s.completeJob j j.code stDone 0xFF).endJob h
    else s

/-- The entry that core p holds goes into its latch, which is free again (R324). -/
def State.refillLatch (s : State) (p : Nat) : State :=
  match s.latchHeld.find? (fun e => e.core == p) with
  | some e => ({ s with latchHeld := s.latchHeld.erase e }).enterLatch e
  | none => s

/-- COLLECTOR_TAKE (R324): one entry of each canton, ascending, as far as the queue of 1,024 has places. -/
def execCollectorTake (s : State) : Host.Outcome State Fault Refusal :=
  let waiting := (List.range 8).filter (fun c => !(s.latchesOf c).isEmpty)
  let go := waiting.take (1024 - s.collQ.length)
  .next (go.foldl (fun st c =>
    match st.latchesOf c with
    | e :: t => ({ st with
        latches := sput st.latches (fun _ => []) c t
        collQ := st.collQ ++ [{ e with take := s.collCycle % 2 ^ 48 }] }).refillLatch e.core
    | [] => st) { s with collCycle := s.collCycle + 1 })

/-- An entry's effect on its job (R325). -/
def CollEntry.onJob (e : CollEntry) (j : Job) : Job :=
  let mark := { j with tasks := (j.tasks[e.task]?).elim j.tasks (fun t => j.tasks.set e.task { t with done := true }) }
  match e.kind with
  | 0 => if j.st ≠ .faulted ∧ e.task = 0 then { mark with code := e.code } else mark
  | 1 => if j.faultTask = 0xFF then { mark with code := e.code, faultTask := e.task } else mark
  | 2 => if j.st = .faulted then mark else j
  | _ => j

/-- A suspending job whose tasks are all saved or done is suspended (R317); one whose tasks are all done ends (R325). -/
def State.trySuspended (s : State) (h : Nat) : State :=
  match s.jobOf h with
  | none => s
  | some j =>
    if j.st = .suspending ∧ ¬ j.allTaken ∧ j.tasks.all (fun t => t.saved.isSome || t.done) then
      (s.modJob h (fun j => { j with st := .suspended })).completeJob j 0 stSuspended 0xFF
    else s

/-- COMPLETION_WRITE (R325): Crown drains the oldest entry of the device collector; a queue set with 1,024 completions
held back makes its jobs wait to report. -/
def execCompletionWrite (s : State) : Host.Outcome State Fault Refusal :=
  .next (match s.collQ with
    | [] => s
    | e :: t =>
      match s.jobOf e.job with
      | none => { s with collQ := t }
      | some j =>
        if 1024 ≤ (s.heldFor j.qset).length then s
        else ((({ s with collQ := t }).modJob e.job e.onJob).trySuspended e.job).tryFinish e.job)

/-- FAULTED_JOB_RELEASE (R269): 10 ms after the notice Crown releases the cores of a faulted job. -/
def execFaultedJobRelease (handle : BitVec 32) (s : State) : Host.Outcome State Fault Refusal :=
  .next (match s.jobOf handle.toNat with
    | none => s
    | some j => if j.st = .faulted then (s.releaseCores handle.toNat).tryFinish handle.toNat else s)

/-! ### JOB_START and resumption (R298, R317, R504) -/

/-- The tasks of a suspended job put onto free cores, ascending, all together or not at all (R317). -/
def State.resumeJob (s : State) (j : Job) : Option State :=
  let ts := (List.range j.tasks.length).filter (fun t => (j.tasks[t]?).any (fun e => e.saved.isSome))
  match s.placeJob j ts.length with
  | none => none
  | some (ps, fs) =>
    let s1 := (List.range ts.length).foldl (fun st i => st.placeUnit j.handle (nth ts i) (nth ps i) fs[i]?) s
    some ((s1.modJob j.handle (fun j => { j with st := .running })).completeJob j 0 stResumed 0xFF)

/-- A waiting job started, none where it must wait (R298). -/
def State.startJob (s : State) (j : Job) : Option State :=
  (s.placeJob j j.tasks.length).map (fun r =>
    ((s.modJob j.handle (fun j => { j with st := .running, pairs := s.od 0x6030 1 })).startTasks j r.1 r.2).openRun j)

/-- JOB_START (R298, R317, R504): the oldest job of the queue set that waits to resume, else the oldest that waits to
start; one that cannot start holds back those behind it. -/
def execJobStart (q : QSet) (s : State) : Host.Outcome State Fault Refusal :=
  .next (if ¬ s.admits then s
    else
      match s.jobs.find? (fun j => j.qset == q.val && j.st == .resuming) with
      | some j => (s.resumeJob j).getD s
      | none =>
        match s.jobs.find? (fun j => j.qset == q.val && j.st == .waiting) with
        | some j => (s.startJob j).getD s
        | none => s)

/-! ### JOB_CTL (R317, R321, R507) -/

/-- The queue set that answers an operation on no job: the handle's where it is the function's own, else its first. -/
def refuseQset (f handle : Nat) : Nat :=
  let q := handle / 65536
  if q < 32 ∧ qsetFunc q = f then q else if f = 0 then 0 else f + 15

/-- An operation refused (R507). -/
def State.refuseCtl (s : State) (f handle : Nat) : State :=
  let user := match s.jobOf handle with | some j => if qsetFunc j.qset = f then bits j.desc 319 256 else 0 | none => 0
  s.complete (refuseQset f handle) user handle 0x0006 stRefused 0xFF

/-- A JOB_CTL write of operation `op`: on a job of the function's own queue sets whose state allows it, else refused. -/
def State.jobCtl (s : State) (f v op : Nat) (ok : Job → Bool) (k : Job → State) : State :=
  if bits v 3 0 ≠ op then s
  else
    match s.jobOf (bits v 63 32) with
    | none => s.refuseCtl f (bits v 63 32)
    | some j => if qsetFunc j.qset = f ∧ ok j then k j else s.refuseCtl f (bits v 63 32)

/-- Every running core of a job told that the device needs it at its next tile boundary. -/
def State.needAll (s : State) (h : Nat) (n : Need) : State :=
  { s with cores := Vector.ofFn (fun i : Fin 72 =>
      let c := s.core i
      if c.job = some h ∧ ¬ c.needs.contains n then { c with needs := c.needs ++ [n] } else c) }

/-- SUSPEND (R317, R507). -/
def execSuspend (f : FuncId) (v : BitVec 64) (s : State) : Host.Outcome State Fault Refusal :=
  .next (s.jobCtl f.val v.toNat 1 (fun j => j.st == .running) (fun j =>
    ((s.modJob j.handle (fun j => { j with st := .suspending })).needAll j.handle .suspend).trySuspended j.handle))

/-- RESUME (R317, R318, R507): the tasks restart when all of them can. -/
def execResume (f : FuncId) (v : BitVec 64) (s : State) : Host.Outcome State Fault Refusal :=
  .next (s.jobCtl f.val v.toNat 2 (fun j => j.st == .suspended) (fun j =>
    (s.resumeJob j).getD (s.modJob j.handle (fun j => { j with st := .resuming }))))

/-- RELEASE (R269, R507): a faulted job's cores at once, its final completion RELEASED. -/
def execRelease (f : FuncId) (v : BitVec 64) (s : State) : Host.Outcome State Fault Refusal :=
  .next (s.jobCtl f.val v.toNat 3 (fun j => j.st == .faulted) (fun j =>
    (s.completeJob j 0 stReleased 0xFF).endJob j.handle))

/-- SETPRIO (R321, R507). -/
def execSetprio (f : FuncId) (v : BitVec 64) (s : State) : Host.Outcome State Fault Refusal :=
  .next (s.jobCtl f.val v.toNat 4 (fun _ => true) (fun j =>
    (s.modJob j.handle (fun j => { j with prio := bits v.toNat 7 6 })).completeJob j 0 stPrioSet 0xFF))

/-- The jobs of a function stopped at their next tile boundary and released without a completion (R508). -/
def State.dropJobs (s : State) (f : Nat) : State :=
  let mine := s.jobs.filter (fun j => qsetFunc j.qset == f)
  let s1 := { s with host := { s.host with held := s.host.held.filter (fun e => qsetFunc e.qset != f) } }
  mine.foldl (fun st j =>
    if j.st = .waiting ∨ j.st = .suspended ∨ j.st = .resuming then st.endJob j.handle
    else
      ((st.modJob j.handle (fun j => { j with st := .faulted, silent := true })).needAll j.handle .stop).tryFinish j.handle)
    s1

/-! ### Borrowing (R312 to R316) -/

/-- Loans that partition 0 holds or waits for. -/
def State.loanCount (s : State) : Nat := s.loans.length

/-- Whether partition 0 may borrow from partition k (R312, R516). -/
def State.lendable (s : State) (k : Nat) : Bool := k != 0 && !bit (s.od 0x4180 (k + 1)) 2 && !s.isSafety k

/-- The core's logical core in its partition, for the cores that may be lent. -/
def State.lendableCores (s : State) : List Nat :=
  (List.range 72).filter (fun p =>
    s.inService p && !s.loans.any (fun l => l.core == p) &&
      (match s.coreOwner p with | some k => s.lendable k | none => false))

/-- PCEIL of the partition of core p. -/
def State.ceilOf (s : State) (p : Nat) : Nat := bits (s.od 0x4020 ((s.coreOwner p).getD 0 + 1)) 14 13

/-- The better of two busy cores to borrow: lowest PCEIL, highest frequency, lowest number (R312). -/
def State.betterVictim (s : State) (p q : Nat) : Nat :=
  if s.ceilOf p ≠ s.ceilOf q then (if s.ceilOf q < s.ceilOf p then q else p)
  else if nth s.power.freq p < nth s.power.freq q then q
  else if nth s.power.freq q < nth s.power.freq p then p
  else min p q

/-- BORROW_REQUEST (R312): a free core first, the lowest-numbered (log 44); else a busy one, which stops at its next
TILE.END. -/
def execBorrowRequest (s : State) : Host.Outcome State Fault Refusal :=
  let l := s.lendableCores
  let loan := fun (p : Nat) => (⟨p, (s.coreOwner p).getD 0, ((s.coreHome p).map (·.2)).getD 0, false⟩ : Loan)
  .next (if s.od 0x4030 1 ≤ s.loanCount then s
    else
      match l.find? (fun p => (s.coreAt p).idle) with
      | some p => { s with loans := s.loans ++ [loan p] }
      | none =>
        match l with
        | [] => s
        | p :: t =>
          let v := t.foldl s.betterVictim p
          ({ s with loans := s.loans ++ [loan v] }).modCoreAt v (fun c => { c with needs := c.needs ++ [Need.preempt] }))

/-- A loan that is not handed over yet, for core p. -/
def State.openLoan (s : State) (p : Nat) : Option Loan := s.loans.find? (fun l => l.core == p && !l.ready)

/-- BORROW_HANDOVER (R313, R314): the saved core is cleared and becomes partition 0's; a borrow of more than 5.5 µs is
counted and noticed. -/
def execBorrowHandover (p : CoreId) (ns : Nat) (s : State) : Host.Outcome State Fault Refusal :=
  .next (match s.openLoan p.val with
    | none => s
    | some l =>
      if ¬ (s.core p).idle then s
      else
        match (List.range 64).find? (fun x => s.mapByte 0 x == 0xFF) with
        | none => s
        | some x =>
          let s1 := ((s.setMapByte l.lender l.logical 0xFE).setMapByte 0 x (0x80 + p.val)).clearCore p.val
          let s2 := (({ s1 with loans := s1.loans.map (fun (y : Loan) =>
            if y.core = p.val then { y with ready := true } else y) }).bumpRole p.val).incOd 0x4030 2
          if 5500 < ns then (s2.incOd 0x4030 3).warn 0x0106 (some l.lender) 4 l.lender ns else s2)

/-- BORROW_RETURN (R316): the slot's last matrix stage on the core is done; it is cleared and free again in its lending
partition. -/
def execBorrowReturn (p : CoreId) (s : State) : Host.Outcome State Fault Refusal :=
  .next (match s.loans.find? (fun l => l.core == p.val && l.ready) with
    | none => s
    | some l =>
      if ¬ (s.core p).idle then s
      else
        let x := ((List.range 64).find? (fun x => s.mapByte 0 x == 0x80 + p.val)).getD 0
        let s1 := ((s.setMapByte 0 x 0xFF).setMapByte l.lender l.logical p.val).clearCore p.val
        ({ s1 with loans := s1.loans.filter (fun y => y.core != p.val) }).bumpRole p.val)

/-! ### Moves (R301, R302) -/

/-- The logical core that physical core p serves now sits on core q (R301); its task, saved at its boundary, goes on
there. -/
def State.moveCore (s : State) (p q : Nat) : State :=
  match s.coreHome p with
  | none => s
  | some (k, l) =>
    let s1 := s.setMapByte k l (if 0x80 ≤ s.mapByte k l then 0x80 + q else q)
    let s2 := { s1 with
      loans := s1.loans.map (fun (y : Loan) => if y.core = p then { y with core := q } else y)
      safety := { s1.safety with pairs := s1.safety.pairs.map (fun (y : Pair) =>
        if y.leader = p then { y with leader := q } else if y.follower = p then { y with follower := q } else y) } }
    match (s.coreAt p).job.bind s.jobOf with
    | none => s2.bumpRole p
    | some j =>
      match j.taskOn p with
      | some t => (s2.saveTask p).placeSaved j.handle t q
      | none =>
        let sv := s2.savedOf p j
        ((s2.bumpRole p).modCoreAt p Core.release).restoreTask q j sv
          [⟨[(p, q)], [], []⟩]

/-- The core of a logical core of a canton's partitions that a retirement there takes away, with that logical core: the
highest-numbered of the partition with the most cores in the canton (R302). The logical core on `extra`, a lent stand-in
elsewhere, belongs to the canton too. -/
def State.takenByRetirement (s : State) (c extra : Nat) : Option (Nat × Nat × Nat) :=
  let here := fun (p : Nat) => p / 9 == c || p == extra
  let count := fun (k : Nat) => ((List.range 72).filter (fun p => here p && s.coreOwner p == some k)).length
  match (List.range 16).filter (fun k => decide (0 < count k)) with
  | [] => none
  | k :: t =>
    let best := t.foldl (fun m x => if count m < count x then x else m) k
    (((List.range 64).filterMap (fun l => (byteCore (s.mapByte best l)).bind (fun p =>
      if here p then some (best, l, p) else none))).getLast?)

/-- A core without a task, or one that stands at its boundary; else it is told that the device needs it there. -/
def State.movable (s : State) (p : Nat) : Bool := (s.coreAt p).job.isNone || s.atBoundary p

/-- The logical core on stand-in q moved to core r, once its task stands at a boundary; a lent stand-in goes back to its
canton, as the ready spare unless a retirement there has consumed it (R12, R530). -/
def State.endStandIn (s : State) (q r : Nat) (lent : Bool) : State :=
  if ¬ s.movable q then s.needCore q .gauntlet
  else
    let s1 := s.moveCore q r
    { s1 with safety := { s1.safety with
        testing := s1.safety.testing.filter (fun t => t.standIn != q)
        spareSt := if lent ∧ s1.safety.spare.getD (q / 9) none = some (q % 9) ∧ s1.safety.railOk.getD (q / 9) false then
            s1.safety.spareSt.set (q / 9) .ready
          else s1.safety.spareSt } }

/-- Logical core l of partition k, on core v, without a physical core: its task is suspended until one is found, with
CORE_SHORT (R302). -/
def State.shortCore (s : State) (k l v : Nat) : State :=
  ((if (s.coreAt v).job.isSome then s.saveUnit v else s.bumpRole v).setMapByte k l 0xFF).warn 0x0105 (some k) 4 k l

/-- A retirement in canton c that leaves the logical core on core p without a core there: one logical core of the canton gives
its own up to it, and goes under R297 to any free core or is left without (R302). `settle` puts the logical core on p onto
the core given up. -/
def State.displace (s : State) (c p : Nat) (settle : State → Nat → State) : State :=
  match s.takenByRetirement c p with
  | none => s
  | some (k, l, v) =>
    if ¬ s.movable v then s.needCore v .suspend
    else
      let s1 := match s.pickCore k s.freeCores with
        | some q => s.moveCore v q
        | none => s.shortCore k l v
      settle s1 v

/-- CORE_REASSIGN (R301, R302): core p is retired. Where a lent spare stands in for it, that logical core goes to a free
core of p's canton, else to any free one. While p still serves a logical core, a free core of its canton takes
that over. Where there is none, the highest logical core of the partition with the most cores there gives its own up. -/
def State.reassign (s : State) (p : Nat) : State :=
  let near := s.freeCores.find? (fun q => q / 9 == p / 9)
  match s.safety.testing.find? (fun t => t.core == p && t.passed == some false) with
  | some t =>
    match near.orElse (fun _ => (s.coreOwner t.standIn).bind (fun k => s.pickCore k s.freeCores)) with
    | some r => s.endStandIn t.standIn r t.lent
    | none =>
      if ¬ s.movable t.standIn then s.needCore t.standIn .gauntlet
      else s.displace (p / 9) t.standIn (fun st v => st.endStandIn t.standIn v t.lent)
  | none =>
  if ¬ s.safety.retired.contains p ∨ s.coreOwner p = none ∨ ¬ s.movable p then s
  else
    match near with
    | some q => s.moveCore p q
    | none => s.displace (p / 9) p (fun st v => if v = p then st else st.moveCore p v)

/-- CORE_REASSIGN. -/
def execCoreReassign (p : CoreId) (s : State) : Host.Outcome State Fault Refusal := .next (s.reassign p.val)

/-- ARBITRATION_AGED (R320): a waiter at a semaphore after 64 grants to others. The other arbitrated resources hold no
waiters here (log 45). -/
def execArbitrationAged (resource ticket : Nat) (s : State) : Host.Outcome State Fault Refusal :=
  let l := (sget s.waiters (fun _ => []) resource).map
    (fun w => if w.ticket = ticket ∧ 64 ≤ w.others then { w with aged := true } else w)
  .next { s with waiters := sput s.waiters (fun _ => []) resource l }

end Sys2Proof.Machine
end

