-- ==== Sys2Proof/Machine/Fabric.lean ====
section
/-! DEFINITION. The fabric at this node: requests served, responses, roles, leases, staged commit and fencing, links and
tunnels (R422 to R457). -/

namespace Sys2Proof.Machine

/-! ### Requests served (R428, R442) -/

/-- Whether a message's role generation is its unit's (R442); 0 is Crown's. -/
def State.roleOk (s : State) (h : Word128) : Bool :=
  match unitOf (hAddr h) with
  | some u => hRole h == 0 || hRole h == s.role u
  | none => true

/-- Whose request a message is: Crown's where a unit with a role is addressed with generation 0, else the owner's of the
role; the dictionary window takes none (R183, R442, R492; log 71). -/
def State.reqOf (s : State) (h : Word128) : Req :=
  match placeOf (hAddr h) with
  | .window _ => .nobody
  | pl =>
    if (unitOf (hAddr h)).isSome ∧ hRole h = 0 then .crown
    else
      match s.placeOwner pl with
      | 0 => .nobody
      | k + 1 => .part k

/-- The answer STALE_ROLE: the request's header as payload (R442). -/
def staleTo (me : Nat) (h : Word128) : Msg := ⟨mkHdr 1 0x10 (hSrc h) me 0 (hTag h) 2 8, h.toNat⟩

/-- A request of type `ty` that has arrived, taken in its turn (R426): dropped and answered DENIED where it is malformed
(R428), answered STALE_ROLE where its generation is not the unit's (R442), else served. -/
def State.serve (s : State) (m : Msg) (ty : Nat) (k : State → State) : State :=
  if hType m.hdr ≠ ty ∨ hDst m.hdr ≠ s.nodeId then s
  else if ¬ s.inTurn m then s.await m
  else
    let s1 := s.consume m
    if msgBad m.hdr then s.malformed m
    else if ¬ s.roleOk m.hdr then (s1.countDev 0x045).post (staleTo s.nodeId m.hdr)
    else k s1

/-- WRITE (R428). -/
def execFabricWrite (m : Msg) (s : State) : Host.Outcome State Fault Refusal :=
  .next (s.serve m 1 (fun s1 =>
    let n := 8 * hLen m.hdr
    let r := s1.writeAccess (s1.reqOf m.hdr) (hAddr m.hdr) n (m.payload % 256 ^ n)
    r.2.post (rspTo s.nodeId m.hdr r.1)))

/-- READ (R428). -/
def execFabricRead (m : Msg) (s : State) : Host.Outcome State Fault Refusal :=
  .next (s.serve m 2 (fun s1 =>
    let r := s1.readAccess (s1.reqOf m.hdr) (hAddr m.hdr) (8 * hLen m.hdr)
    if r.1 = 0 then
      r.2.2.post ⟨mkHdr 1 0x11 (hSrc m.hdr) s.nodeId 0 (hTag m.hdr) (hLen m.hdr) 0, r.2.1⟩
    else r.2.2.post (rspTo s.nodeId m.hdr r.1)))

/-- LITE (R227, R428): the bytes written, then semaphore n released; a semaphore of another partition is DENIED. -/
def execFabricLite (m : Msg) (s : State) : Host.Outcome State Fault Refusal :=
  .next (s.serve m 3 (fun s1 =>
    let n := m.payload % 65536
    let len := 8 * (hLen m.hdr - 1)
    let who := s1.reqOf m.hdr
    if (match who with | .part k => s1.semPart n != some k | .crown => false | .nobody => true) then
      s1.post (rspTo s.nodeId m.hdr 3)
    else
      let r := s1.writeAccess who (hAddr m.hdr) len (m.payload / 2 ^ 64 % 256 ^ len)
      (if r.1 = 0 then r.2.semAdd n 1 else r.2).post (rspTo s.nodeId m.hdr r.1)))

/-- n grid words added at an address, until one is refused (R220, R453). -/
def State.gaddWords (s : State) (who : Req) (a w : Nat) : Nat → Nat × State
  | 0 => (0, s)
  | n + 1 =>
    let c := s.accessCode who a 16 .write
    if c ≠ 0 then (c, s)
    else
      let o := s.readAccess who a 16
      if o.1 ≠ 0 then (o.1, o.2.2)
      else
        let g := gridAdd o.2.1 (w % 2 ^ 128)
        let s1 := o.2.2.store a 16 g.1
        (if g.2.2 then s1.countDev 0x001 who.partOf else s1).gaddWords who (a + 16) (w / 2 ^ 128) n

/-- GADD (R220, R453). A destination outside the SRAM regions has no grid words: UNMAPPED (log 74). -/
def execGadd (m : Msg) (s : State) : Host.Outcome State Fault Refusal :=
  .next (s.serve m 4 (fun s1 =>
    if ¬ sramRun (hAddr m.hdr) (8 * hLen m.hdr) then s1.post (rspTo s.nodeId m.hdr 2)
    else
      let r := s1.gaddWords (s1.reqOf m.hdr) (hAddr m.hdr) m.payload (hLen m.hdr / 2)
      r.2.post (rspTo s.nodeId m.hdr r.1)))

/-- CLAIM (R451, R452): granted, yielded, or queued for a later answer. The claimant's core is the address's offset in the
scratchpad (log 72). -/
def execClaim (m : Msg) (s : State) : Host.Outcome State Fault Refusal :=
  .next (s.serve m 5 (fun s1 =>
    match coreOfAddr (hAddr m.hdr) with
    | none => s1.post (rspTo s.nodeId m.hdr 2)
    | some t =>
      match s1.claimAt t (hSrc m.hdr, hAddr m.hdr - spBase t) (hTag m.hdr) with
      | (.ok, s2) => s2.post (rspTo s.nodeId m.hdr 0)
      | (.yield, s2) => s2.post (rspTo s.nodeId m.hdr 9)
      | (.queued, s2) => s2))

/-- MESSAGE_FORWARD (R423, R424): a message for another node goes on with HOPS + 1, or is UNREACHABLE. -/
def execMessageForward (m : Msg) (s : State) : Host.Outcome State Fault Refusal :=
  .next (if hDst m.hdr = s.nodeId ∨ hType m.hdr = 0 ∨ hType m.hdr = 0x3F then s
    else if ¬ s.inTurn m then s.await m
    else if headBad m.hdr then s.malformed m
    else
      let s1 := s.consume m
      if hHops m.hdr = 15 then s1.unreachable m
      else s1.post { m with hdr := m.hdr + BitVec.ofNat 128 (2 ^ 112) })

/-! ### Fencing (R445 to R448) -/

/-- The 16 bytes of a LEASE, STEP_DONE, COMMIT or FENCE: job handle, generation, a dropped node or the open and answer
flags, step (log 73). -/
def runPayload (job gen x step : Nat) : Nat :=
  job % 2 ^ 32 + gen % 65536 * 2 ^ 32 + x % 65536 * 2 ^ 48 + step % 2 ^ 64 * 2 ^ 64
def payJob (w : Nat) : Nat := bits w 31 0
def payGen (w : Nat) : Nat := bits w 47 32
def payX (w : Nat) : Nat := bits w 63 48
def payStep (w : Nat) : Nat := bits w 127 64

/-- A message of staged commit to a node. -/
def State.tell (s : State) (ty node job gen x step : Nat) : State :=
  s.post ⟨mkHdr 3 ty node s.nodeId 0 0 2 0, runPayload job gen x step⟩

/-- The run of a job's live generation. -/
def State.runOf (s : State) (job gen : Nat) : Option Run := s.fab.runs.find? (fun r => r.job == job && r.gen == gen)

/-- The state with the run of a job changed. -/
def State.modRun (s : State) (job : Nat) (f : Run → Run) : State :=
  { s with fab := { s.fab with runs := s.fab.runs.map (fun r => if r.job = job then f r else r) } }

/-- The descriptors of a job removed from an engine's queue; each writes its record with status FENCED where it has one,
and releases nothing (R448). -/
def State.removeDmas (s : State) (h e : Nat) : State :=
  let q := s.dmaQ e
  let gone := q.filter (fun x => x.job == some h)
  if gone.isEmpty then s
  else
    let s1 := match q with
      | x :: _ =>
        if x.job = some h then
          let s2 := match s.crossing e x.desc with
            | some (p, far) => if (s.claim p).own = some far then s.endClaim p else s
            | none => s
          let ws := (s2.waiters.map (fun (n : Nat × List Waiter) => (n.1, n.2.filter (fun (w : Waiter) => w.who != WaitFor.dma e)))).filter
            (fun (n : Nat × List Waiter) => !n.2.isEmpty)
          { s2 with
            waiters := ws
            fab := { s2.fab with outst := s2.fab.outst.filter (fun o => match o.origin with
              | .dma e' => e' != e
              | .dmaRead e' _ _ _ => e' != e
              | .dmaMerge e' _ _ _ => e' != e
              | _ => true) } }
        else s
      | [] => s
    let s3 := s1.setDmaQ e (q.filter (fun x => x.job != some h))
    gone.foldl (fun st x =>
      if bit x.desc 12 then (st.writeAccess x.req (bits x.desc 99 48) 16 (compRecord st.stamp 0xB)).2 else st) s3

/-- A job's generation fenced at this node (R447, R448). -/
def State.fenceJob (s : State) (r : Run) (dropped : Nat) : State :=
  if r.fenced then s
  else
    let cs := s.coresOf r.job
    let s1 := cs.foldl State.bumpRole (s.needAll r.job .fence)
    let s2 := (List.range 84).foldl (fun st e => st.removeDmas r.job e) s1
    let s3 := cs.foldl (fun st p => st.modCoreAt p (fun c => { c with lites := c.lites.map (fun (l : LiteMsg) =>
      if l.resp.isNone then { l with sent := true, resp := some 0xB } else l) })) s2
    let s4 := { s3 with fab := { s3.fab with leases := s3.fab.leases.filter (fun l => l.job != r.job) } }
    let s5 := s4.modRun r.job (fun r => { r with fenced := true, dropped := r.dropped ++ [dropped] })
    (r.nodes.filter (fun n => n != s.nodeId)).foldl (fun st n => st.tell 0x26 n r.job r.gen dropped 0) s5

/-- A partner dropped (R447): its runs are fenced; what is outstanding to it outside any lease is UNREACHABLE (R429). -/
def State.dropNode (s : State) (node : Nat) : State :=
  let s1 := (s.fab.runs.filter (fun r => r.nodes.contains node && !r.fenced)).foldl (fun st r => st.fenceJob r node) s
  (s1.fab.outst.filter (fun o => o.node == node)).foldl (fun st o =>
    st.toInbox 0xFE ⟨mkHdr 1 0x10 s.nodeId node 0 o.tag 0 0xA, 0⟩) s1

/-- The partners whose route uses a port dropped. -/
def State.dropPort (s : State) (port : Nat) : State :=
  ((s.fab.runs.flatMap (·.nodes)).dedup.filter (fun n => n != s.nodeId && s.routeOf n == port)).foldl State.dropNode s

/-! ### Responses (R429, R430, R443, R444) -/

/-- The outstanding request that a response answers. -/
def State.answered (s : State) (m : Msg) : Option Outst :=
  s.fab.outst.find? (fun o => o.node == hSrc m.hdr && o.tag == hTag m.hdr)

/-- The state without an outstanding request. -/
def State.dropOutst (s : State) (o : Outst) : State :=
  { s with fab := { s.fab with outst := s.fab.outst.erase o } }

/-- The head descriptor of an engine after one answer: the first failure is its status; UNREACHABLE is DMA_REACH (R225,
R430). -/
def Dma.answer (x : Dma) (code : Nat) : Dma :=
  let st := if code = 0xA then 9 else code
  { x with wait := x.wait - 1, status := if x.status ≤ 1 ∧ st ≠ 0 then st else x.status }

/-- A request's answer at the engine it came from. -/
def State.finishReq (s : State) (o : Outst) (code : Nat) : State :=
  let s1 := s.dropOutst o
  match o.origin with
  | .lite p ord => s1.modCoreAt p (fun c => c.modLite ord (fun l => { l with resp := some code }))
  | .dma e | .dmaRead e _ _ _ | .dmaMerge e _ _ _ =>
    match s1.dmaHead e with
    | some x => s1.setDmaHead e (x.answer code)
    | none => s1
  | .claim p =>
    if code = 0 then s1.setClaim p { s1.claim p with granted := true }
    else if code = 9 then s1.setClaim p { s1.claim p with waiting := true }
    else
      match (List.range 84).find? (fun e => ((s1.dmaHead e).bind (fun x => s1.crossing e x.desc)).map (·.1) == some p) with
      | some e =>
        (match s1.dmaHead e with
         | some x => (s1.setClaim p ClaimSt.none).setDmaHead e
             { x with moved := true, status := if code = 0xA then 9 else code }
         | none => s1)
      | none => s1
  | .other => s1

/-- RSP (R429, R430): any code but STALE_ROLE, which is its own step. -/
def execRsp (m : Msg) (s : State) : Host.Outcome State Fault Refusal :=
  .next (if hType m.hdr ≠ 0x10 ∨ hDst m.hdr ≠ s.nodeId ∨ hAddr m.hdr % 16 = 8 then s
    else s.take m (fun s1 =>
      match s1.answered m with
      | some o => s1.finishReq o (hAddr m.hdr % 16)
      | none => s1))

/-- The bytes of a READ_DATA at the near side of a descriptor: stored, or added as grid words (R219, R220). -/
def State.brimStore (s : State) (x : Dma) (dst n data : Nat) : Nat × State :=
  if dmaOp x.desc = 2 then s.gaddWords x.req (dst % 2 ^ 52) data (n / 16)
  else s.writeAccess x.req (dst % 2 ^ 52) n (data % 256 ^ n)

/-- READ_DATA (R428): the bytes to the near side of the descriptor that asked for them, or the far words back with the
descriptor's bytes in them. -/
def execReadData (m : Msg) (s : State) : Host.Outcome State Fault Refusal :=
  .next (if hType m.hdr ≠ 0x11 ∨ hDst m.hdr ≠ s.nodeId then s
    else s.take m (fun s1 =>
      match s1.answered m with
      | none => s1
      | some o =>
        match o.origin with
        | .dmaRead e dst skip n =>
          (match s1.dmaHead e with
           | some x =>
             let r := s1.brimStore x dst n (m.payload / 256 ^ skip)
             r.2.finishReq o r.1
           | none => s1.dropOutst o)
        | .dmaMerge e dst n data =>
          let w := wordWindow (dst % 2 ^ 52) n
          let k := dst % 2 ^ 52 - w.1
          ((s1.dropOutst o).request (dst / 2 ^ 52) 0 0x01 w.1 w.2
            (setBits (m.payload % 256 ^ (8 * w.2)) (8 * (k + n) - 1) (8 * k) data) (.dma e)).getD s1
        | _ => s1.finishReq o 0))

/-- The first address of a unit (R441). -/
def unitBase (u : Nat) : Nat :=
  if u < 72 then spBase u
  else if u < 136 then cantonBase 0 + (u - 72) * 2 ^ 20
  else if u < 144 then semBase + (u - 136) * 65536
  else (u - 144) * 2 ^ 30

/-- The job behind a request. -/
def State.originJob (s : State) (o : ReqFrom) : Option Nat :=
  match o with
  | .lite p _ => (s.coreAt p).job
  | .dma e => (s.dmaHead e).bind (·.job)
  | .dmaRead e _ _ _ => (s.dmaHead e).bind (·.job)
  | .dmaMerge e _ _ _ => (s.dmaHead e).bind (·.job)
  | .claim p => (s.coreAt p).job
  | .other => none

/-- A request sent again to the current home of its role: the same offset in the new unit (R443). -/
def State.resend (s : State) (o : Outst) (node unit gen : Nat) : State :=
  let h := o.msg.hdr
  let off := match unitOf (hAddr h) with | some u => hAddr h - unitBase u | none => hAddr h
  let s1 := s.dropOutst o
  match s1.freeTag node with
  | none => s
  | some tag =>
    let m : Msg := { o.msg with hdr := mkHdr (hVc h) (hType h) node s.nodeId gen tag (hLen h) (unitBase unit + off) }
    ({ s1 with fab := { s1.fab with
        outst := s1.fab.outst ++ [Outst.mk node tag o.origin m (o.stale + 1)]
        roles := sput s1.fab.roles zeroD (node * 256 + unit) gen } }).post m

/-- STALE_ROLE (R443, R444, R448): the role is resolved again and the request sent again; the eighth in a row, or a role
that has ended, completes as DENIED; a fenced generation fences the job here. -/
def execStaleRole (m : Msg) (r : Resolved) (s : State) : Host.Outcome State Fault Refusal :=
  .next (if hType m.hdr ≠ 0x10 ∨ hDst m.hdr ≠ s.nodeId ∨ hAddr m.hdr % 16 ≠ 8 then s
    else s.take m (fun s1 =>
      match s1.answered m with
      | none => s1
      | some o =>
        if 7 ≤ o.stale then s1.finishReq o 3
        else
          match r with
          | .ended => s1.finishReq o 3
          | .home node unit gen => s1.resend o node unit gen
          | .fenced =>
            match (s1.originJob o.origin).bind (fun h => s1.fab.runs.find? (fun r => r.job == h)) with
            | some run => (s1.fenceJob run (hSrc m.hdr)).dropOutst o
            | none => s1.finishReq o 3))

/-- FREE (R451): a yielded engine claims again. -/
def execFreeMsg (m : Msg) (s : State) : Host.Outcome State Fault Refusal :=
  .next (if hType m.hdr ≠ 0x12 ∨ hDst m.hdr ≠ s.nodeId then s
    else s.take m (fun s1 =>
      match coreOfAddr (hAddr m.hdr) with
      | none => s1
      | some p =>
        match (s1.claim p).own with
        | some far => if (s1.claim p).waiting ∧ far.1 = hSrc m.hdr then s1.sendClaim p far else s1
        | none => s1))

/-! ### Leases and staged commit (R445, R446, R449, R450) -/

/-- The minor that this node runs of an architecture level (table "Protocol versions of revision B0", R457). -/
def State.ownMinor (s : State) (level : Nat) : Nat := nth s.safety.minors (level - 1)

/-- The pair version with a partner: level and minor; none where no level is common (R454). -/
def State.pairVersion (s : State) (high low : Nat) (minors : List Nat) : Option Nat :=
  let level := min 2 high
  if level < max 1 low then none else some (16 * level + min (s.ownMinor level) (nth minors (level - 1)))

/-- The pair version with a node recorded (R455). -/
def State.setPairVer (s : State) (node v : Nat) : State :=
  s.setOd 0x6030 1 (setBits (s.od 0x6030 1) (8 * node + 7) (8 * node) v)

/-- HEARTBEAT (R445, R454): the partner lives; its level and minor give the pair version. -/
def execHeartbeat (m : Msg) (s : State) : Host.Outcome State Fault Refusal :=
  .next (if hType m.hdr ≠ 0x20 ∨ hDst m.hdr ≠ s.nodeId then s
    else s.take m (fun s1 =>
      let level := m.payload % 256
      s1.setPairVer (hSrc m.hdr)
        ((s1.pairVersion level 1 (List.replicate (level - 1) 0 ++ [m.payload / 256 % 16])).getD 0)))

/-- HEARTBEAT_SEND (R445): to a partner with an open lease. -/
def execHeartbeatSend (node : Nat) (s : State) : Host.Outcome State Fault Refusal :=
  .next (if s.fab.leases.any (fun l => l.node == node) then
    s.post ⟨mkHdr 3 0x20 node s.nodeId 0 0 2 0, 2 + s.ownMinor 2 * 256 + s.jobs.length * 2 ^ 64⟩ else s)

/-- HEARTBEAT_TIMEOUT (R447): a partner with an open lease is dropped. -/
def execHeartbeatTimeout (node : Nat) (s : State) : Host.Outcome State Fault Refusal :=
  .next (if s.fab.leases.any (fun l => l.node == node) then s.dropNode node else s)

/-- A lease opened or closed with a node. -/
def State.setLease (s : State) (node w : Nat) : State :=
  let l : Lease := ⟨node, payJob w, payGen w, payStep w⟩
  let rest := s.fab.leases.filter (fun x => x != l)
  let s1 := { s with fab := { s.fab with leases := if bit (payX w) 0 then rest ++ [l] else rest } }
  s1.modRun (payJob w) (fun r => if r.nodes.contains node then r else { r with nodes := r.nodes ++ [node] })

/-- LEASE (R445): this node's own goes out; a partner's is recorded and answered. -/
def execLease (m : Msg) (s : State) : Host.Outcome State Fault Refusal :=
  .next (if hType m.hdr ≠ 0x23 then s
    else if hSrc m.hdr = s.nodeId then
      (if hDst m.hdr = s.nodeId then s else (s.setLease (hDst m.hdr) m.payload).post m)
    else if hDst m.hdr ≠ s.nodeId then s
    else s.take m (fun s0 =>
      let s1 := s0.setLease (hSrc m.hdr) m.payload
      if bit (payX m.payload) 1 then s1
      else s1.tell 0x23 (hSrc m.hdr) (payJob m.payload) (payGen m.payload) (payX m.payload % 2 + 2) (payStep m.payload)))

/-- Step k of a run committed at this node: its leases close and stalled STEPs may go on (R445, R446). -/
def State.commitStep (s : State) (job k : Nat) : State :=
  let s1 := s.modRun job (fun r => { r with committed := some k, step := k + 1, doneBy := [] })
  { s1 with fab := { s1.fab with leases := s1.fab.leases.filter (fun l => !(l.job == job && l.step == k)) } }

/-- STEP_DONE (R446): to the commit node, the lowest of the run; there, the last one commits the step and COMMIT goes to
every node. -/
def execStepDone (m : Msg) (s : State) : Host.Outcome State Fault Refusal :=
  let job := payJob m.payload
  let gen := payGen m.payload
  let k := payStep m.payload
  .next (if hType m.hdr ≠ 0x24 then s
    else
      match s.runOf job gen with
      | none => s.take m id
      | some r =>
        let head := r.nodes.foldl min s.nodeId
        if head ≠ s.nodeId then
          (if hSrc m.hdr ≠ s.nodeId then s.take m id else if r.fenced then s else s.tell 0x24 head job gen 0 k)
        else s.take m (fun s1 =>
          if r.fenced ∨ k ≠ r.step then s1
          else
            let done := if r.doneBy.contains (hSrc m.hdr) then r.doneBy else r.doneBy ++ [hSrc m.hdr]
            if r.nodes.all (fun n => done.contains n) then
              (r.nodes.filter (fun n => n != s.nodeId)).foldl (fun st n => st.tell 0x25 n job gen 0 k) (s1.commitStep job k)
            else s1.modRun job (fun r => { r with doneBy := done })))

/-- COMMIT (R446). -/
def execCommit (m : Msg) (s : State) : Host.Outcome State Fault Refusal :=
  .next (if hType m.hdr ≠ 0x25 ∨ hDst m.hdr ≠ s.nodeId then s
    else s.take m (fun s1 =>
      match s1.runOf (payJob m.payload) (payGen m.payload) with
      | some r => if r.fenced then s1 else s1.commitStep (payJob m.payload) (payStep m.payload)
      | none => s1))

/-- FENCE (R447, R448). -/
def execFence (m : Msg) (s : State) : Host.Outcome State Fault Refusal :=
  .next (if hType m.hdr ≠ 0x26 ∨ hDst m.hdr ≠ s.nodeId then s
    else s.take m (fun s1 =>
      match s1.runOf (payJob m.payload) (payGen m.payload) with
      | some r => s1.fenceJob r (payX m.payload)
      | none => s1))

/-- The cores of a job's tasks, and their followers where it has pairs. -/
def State.unitsOf (s : State) (j : Job) : List Nat × List Nat :=
  let ps := j.tasks.map (fun t => t.core.getD 0)
  (ps, if s.isSafety j.part then
      ps.map (fun p => (s.safety.pairs.find? (fun q => q.leader == p)).elim p (·.follower))
    else [])

/-- A task of a fenced job started again on its core, and its follower's, with a step counter (R237, R450). -/
def State.rerunTask (s : State) (j : Job) (t step : Nat) : State :=
  match j.tasks[t]? with
  | none => s
  | some e =>
    match e.core with
    | none => s
    | some p =>
      let u := s.unitsOf j
      let put := fun (st : State) (x : Nat) => st.modCoreAt x (fun c => { c with step := step })
      let s1 := put (((s.dropWaiters p).startUnit j u.1 u.2 t)) p
      let s1 := (u.2[t]?).elim s1 (put s1)
      let s2 := e.sems.foldl (fun st n => st.setSem n 0) s1
      s2.modJob j.handle (fun x => { x with tasks := x.tasks.set t { e with done := false, saved := none } })

/-- FENCE_RECOVERY (R449, R450): once every task of the fenced job has stopped, the step counts as committed where a
survivor holds its COMMIT; the first uncommitted step is run again as the next generation, or the job is lost. -/
def execFenceRecovery (run : Nat) (survivorHolds inputsSurvive : Bool) (s : State) : Host.Outcome State Fault Refusal :=
  .next (match s.fab.runs.find? (fun r => r.job == run && r.fenced), s.jobOf run with
    | some r, some j =>
      if (s.coresOf run).any (fun p => (s.coreAt p).mode == .running || (s.coreAt p).mode == .halting) then s
      else
        let s1 := if survivorHolds then s.commitStep run r.step else s
        let step := if survivorHolds then r.step + 1 else r.step
        let gen := (r.gen + 1) % 65536
        if ¬ inputsSurvive then
          ((s1.faultNotice 0x0132 (some j.part) 4 j.part (run + r.gen * 2 ^ 32)).completeJob j 0 stJobLost 0xFF).endJob run
        else
          let s2 := (s1.modJob run (fun x => { x with gen := gen })).modRun run (fun x => { x with
            gen := gen, fenced := false, doneBy := [], dropped := [], step := step
            nodes := x.nodes.filter (fun n => !x.dropped.contains n) })
          (List.range j.tasks.length).foldl (fun st t => st.rerunTask j t step) s2
    | _, _ => s)

/-! ### Links (R432 to R436, R454) -/

/-- The width code that a number of lanes allows: 4, 2 or 1 lanes. -/
def widthOf (n : Nat) : Nat := if 4 ≤ n then 3 else if 2 ≤ n then 2 else n

/-- The good lanes that a configuration lets be used. -/
def usable (good : BitVec 4) (cfg : Nat) : List Nat :=
  (List.range 4).filter (fun i => good.getLsbD i && bit cfg (4 + i))

/-- Whether a width keeps a link up: MIN_WIDTH, and two lanes where the pair runs YA1.0 (R435, R455). -/
def widthOk (cfg w pairVer : Nat) : Bool := decide (1 ≤ w ∧ bits cfg 3 2 ≤ w) && !(pairVer == 0x10 && w == 1)

/-- A link down: the partners whose route uses it are dropped (R435, R447). -/
def State.linkDown (s : State) (l : LinkId) : State :=
  let x := s.link l
  (s.setLink l { LinkSt.reset with good := x.good, passes := x.passes, txq := x.txq }).dropPort l.val

/-- A link narrowed or widened to what its lanes allow (R435). -/
def State.relane (s : State) (l : LinkId) : State :=
  let x := s.link l
  let w := widthOf (usable x.good (s.linkCfg l)).length
  if ¬ x.up then s
  else if ¬ widthOk (s.linkCfg l) w x.pairVer then (s.countDev 0x043).linkDown l
  else if w = x.width then s.setLink l { x with training := true }
  else (s.setLink l { x with width := w, training := true }).countDev 0x043

/-- LANE_DROP (R435). -/
def execLaneDrop (l : LinkId) (lane : Fin 4) (s : State) : Host.Outcome State Fault Refusal :=
  let x := s.link l
  .next ((s.setLink l { x with good := x.good &&& ~~~ BitVec.ofNat 4 (2 ^ lane.val), passes := x.passes.set lane.val 0 }).relane l)

/-- The flits a link has not had acknowledged, sent again from the expected SEQ (R434). -/
def State.replayLink (s : State) (l : LinkId) : State :=
  let x := s.link l
  let s1 := x.replay.foldl (fun st e => st.emit (.flitSent l.val (replayed e.2.1))) s
  let s2 := s1.setLink l { s1.link l with replay := x.replay.map (fun e => (e.1, replayed e.2.1, e.2.2 + 1)) }
  if x.replay.isEmpty then s2 else s2.countDev 0x042 none x.replay.length

/-- The pair version with the partner of a link at what the partner sent in training, put in force (R454, R455). -/
def State.repair (s : State) (l : LinkId) : State :=
  let x := s.link l
  match x.peer with
  | none => s
  | some t =>
    let v := (s.pairVersion t.high t.low t.minors).getD x.pairVer
    (s.setLink l { x with pairVer := v }).setPairVer t.node v

/-- A link's traffic resumes by replay from the last acknowledged SEQ (R435). -/
def State.resumeLink (s : State) (l : LinkId) : State :=
  let x := s.link l
  let s1 := (s.setLink l { x with training := false, replay := x.replay.map (fun e => (e.1, e.2.1, 0)) }).replayLink l
  s1.linkPump l (x.txq.length + 1)

/-- RETRAIN_COMPLETE (R435, R457): traffic resumes by replay; credits are kept; the pair version is exchanged anew. -/
def execRetrainComplete (l : LinkId) (s : State) : Host.Outcome State Fault Refusal :=
  .next (if (s.link l).up ∧ (s.link l).training then (s.repair l).resumeLink l else s)

/-- LANE_TEST (R436): three passing tests in a row bring a dropped lane back. -/
def execLaneTest (l : LinkId) (lane : Fin 4) (pass : Bool) (s : State) : Host.Outcome State Fault Refusal :=
  let x := s.link l
  .next (if ¬ x.up ∨ ¬ bit (s.linkCfg l) 1 ∨ x.good.getLsbD lane.val then s
    else
      let n := if pass then nth x.passes lane.val + 1 else 0
      if n < 3 then s.setLink l { x with passes := x.passes.set lane.val n }
      else (s.setLink l { x with
          passes := x.passes.set lane.val 0, good := x.good ||| BitVec.ofNat 4 (2 ^ lane.val) }).relane l)

/-- LINK_TRAINING (R422, R436, R454): IDs, levels and lanes exchanged; the link comes up or stays down. A link that runs is
retrained by R435 at its partner's wish: credits and what is unacknowledged are kept (R457). -/
def execLinkTraining (l : LinkId) (t : TrainInfo) (s : State) : Host.Outcome State Fault Refusal :=
  let cfg := s.linkCfg l
  let w := widthOf (usable t.lanes cfg).length
  .next (if ¬ bit cfg 0 then s
    else if t.node = s.nodeId then
      ((s.linkDown l).setLink l { LinkSt.reset with good := t.lanes }).warn 0x0130 none 7 l.val t.node
    else
      match s.pairVersion t.high t.low t.minors with
      | none => ((s.linkDown l).setLink l { LinkSt.reset with good := t.lanes }).warn 0x0131 none 7 l.val
          (t.high % 16 + t.low % 16 * 16 + (t.minors.foldr (fun m n => m % 16 + 16 * n) 0) * 256)
      | some v =>
        let x := s.link l
        if ¬ widthOk cfg w v then
          (if x.up then (s.linkDown l).setLink l { LinkSt.reset with good := t.lanes, txq := x.txq }
           else s.setLink l { LinkSt.reset with good := t.lanes })
        else if x.up then
          ((s.setLink l { x with good := t.lanes, width := w, partner := t.node, peer := some t }).repair l).resumeLink l
        else
          ((s.setLink l { LinkSt.reset with
              up := true, good := t.lanes, width := w, partner := t.node, pairVer := v, peer := some t, txq := x.txq }).setPairVer
            t.node v).linkPump l (x.txq.length + 1))

/-- A message that has come in whole: taken as it is; a malformed one is dropped, counted, and a request answered DENIED
(R428). A node that forwards does not look at MTYPE (R455). -/
def State.arrive (s : State) (port : Nat) (m : Msg) : State :=
  if headBad m.hdr ∨ (hDst m.hdr = s.nodeId ∧ msgBad m.hdr) then (s.toInbox port m).malformed m else s.toInbox port m

/-- FLIT_RECEIVE (R433, R434): the expected flit with a good CRC is taken; any other is discarded, and NAK is owed. DESIGN
CHOICE (log 156): HELD [15:0] of the link word, which the CRC does not cover and for which no response is stated, is not
looked at: a flit in which it is not 0 is taken as well formed. -/
def execFlitReceive (l : LinkId) (f : Flit) (s : State) : Host.Outcome State Fault Refusal :=
  let x := s.link l
  .next (if ¬ x.up ∨ x.training then s
    else if ¬ flitOk f ∨ bits f.word.toNat 31 20 ≠ x.expSeq then s.setLink l { x with nak := true }
    else
      let r := takeFlit f.data (some (bits f.word.toNat 19 16)) x.rxLeft x.slices
      let s1 := s.setLink l { x with expSeq := (x.expSeq + 1) % 4096, nak := false, rxLeft := r.1, slices := r.2.1 }
      r.2.2.foldl (fun st m => st.arrive l.val m) s1)

/-- LINK_CTL (R432 to R434): acknowledgement, credits, and resending on NAK; a flit sent 8 times retrains the link. -/
def execLinkCtl (l : LinkId) (ack : BitVec 12) (nak : Bool) (credits : BitVec 64) (s : State) :
    Host.Outcome State Fault Refusal :=
  let x := s.link l
  .next (if ¬ x.up then s
    else
      let left := x.replay.filter (fun e => decide ((e.1 + 4096 - ack.toNat) % 4096 < 2048))
      let cr := (List.range 4).map (fun i => nth x.credits i + bits credits.toNat (16 * i + 15) (16 * i))
      let s1 := s.setLink l { x with replay := left, credits := cr }
      if nak ∧ left.any (fun e => decide (8 ≤ e.2.2)) then s1.setLink l { s1.link l with training := true }
      else (if nak then s1.replayLink l else s1).linkPump l (x.txq.length + 1))

/-- LINK_CTL_SEND (R432): ACK, NAK and the credits owed. -/
def execLinkCtlSend (l : LinkId) (s : State) : Host.Outcome State Fault Refusal :=
  let x := s.link l
  .next (if x.up then
    (s.setLink l { x with owed := [0, 0, 0, 0], nak := false }).emit (.linkCtl l.val x.expSeq x.nak x.owed) else s)

/-! ### Tunnels (R437 to R440) -/

/-- The checks of a tunnel frame's header and security (R438). -/
def State.tunOk (s : State) (t : TunnelId) (f : TunFrame) : Bool :=
  let h := f.hdr.toNat
  f.icvOk && f.replayOk && bits h 255 252 == 1 && bits h 251 248 == 0 && bits h 215 192 == 0 && bits h 63 0 == 0 &&
    bits h 247 236 == bits (s.tunCfg t) 383 372 && bits h 235 224 == s.nodeId && bits h 223 217 + 1 == f.flits.length

/-- The flits of a frame that stand next in order, taken (R439). -/
def State.tunTake (s : State) (t : TunnelId) (seq : Nat) : List (BitVec 512) → State
  | [] => s
  | d :: rest =>
    let x := s.tun t
    let s1 := if seq = x.expSeq then
        let r := takeFlit d none x.rxLeft x.slices
        r.2.2.foldl (fun st m => st.arrive (8 + t.val) m)
          (s.setTun t { x with expSeq := (x.expSeq + 1) % 2 ^ 32, rxLeft := r.1, slices := r.2.1 })
      else if serialNewer 32 seq x.expSeq then s.setTun t { x with nak := true }
      else s
    s1.tunTake t ((seq + 1) % 2 ^ 32) rest

/-- The flits of a tunnel from its oldest unacknowledged one sent again. -/
def State.tunResend (s : State) (t : TunnelId) : State :=
  match (s.tun t).unacked with
  | [] => s
  | e :: rest => s.tunFrames t e.1 ((e :: rest).map (·.2))

/-- TUNNEL_FRAME (R438, R439). -/
def execTunnelFrame (t : TunnelId) (f : TunFrame) (s : State) : Host.Outcome State Fault Refusal :=
  let h := f.hdr.toNat
  .next (if ¬ s.tunOpen t then s
    else if ¬ s.tunOk t f then s.countDev 0x044
    else
      let x := s.tun t
      let left := x.unacked.filter (fun e => !serialNewer 32 (bits h 95 64) e.1)
      let cr := (List.range 4).map (fun i => nth x.credits i + bits h (128 + 16 * i + 15) (128 + 16 * i))
      let s1 := s.setTun t { x with up := true, unacked := left, credits := cr }
      let s2 := if bit h 216 then s1.tunResend t else s1
      (s2.tunTake t (bits h 127 96) f.flits).tunPump t (x.txq.length + 1))

/-- TUNNEL_RTO (R439). -/
def execTunnelRto (t : TunnelId) (s : State) : Host.Outcome State Fault Refusal :=
  .next (if s.tunOpen t then s.tunResend t else s)

/-- TUNNEL_DOWN (R440, R447). -/
def execTunnelDown (t : TunnelId) (s : State) : Host.Outcome State Fault Refusal :=
  .next (if bit (s.tunCfg t) 0 ∧ (s.tun t).up then
    (s.setTun t { s.tun t with up := false }).dropPort (8 + t.val) else s)

/-- Every link and tunnel retrained by the procedure of R435 (R457): links stop sending new flits until RETRAIN_COMPLETE;
a tunnel resumes by replay. -/
def State.retrainAll (s : State) : State :=
  let s1 := (List.finRange 4).foldl (fun st l =>
    if (st.link l).up then st.setLink l { st.link l with training := true } else st) s
  (List.finRange 8).foldl (fun st t => if st.tunOpen t then st.tunResend t else st) s1

end Sys2Proof.Machine
end

