-- ==== Sys2Proof/Machine/Clock.lean ====
section
/-! DEFINITION. Frames, slots and instants of the timebase (R467). -/

namespace Sys2Proof.Machine

/-- One microsecond and one nanosecond of the timebase. -/
def usUnits : Int := 1000 * 2 ^ 32
def nsUnits : Int := 2 ^ 32

/-- The GPS epoch on the PTP timescale (R467). -/
def gpsEpoch : Int := 315964819 * 1000000000 * 2 ^ 32

/-- FRAME_OFFSET (R466, R467). -/
def State.frameOffset (s : State) : Int := sext 64 (s.od 0x6100 0x0A) * nsUnits

/-- Slots of a frame at numerology MU (R361, R467). -/
def slotsPerFrame (mu : Nat) : Nat := if mu = 3 then 80 else 20

/-- Length of a slot. -/
def slotLen (mu : Nat) : Int := (if mu = 3 then 125 else 500) * usUnits

/-- The number, from frame 0 on, of the slot in which the timebase stands. -/
def State.slotNow (s : State) (mu : Nat) : Int := ((s.time.now : Int) - gpsEpoch - s.frameOffset) / slotLen mu

/-- The start of slot j of frame f. -/
def State.slotStart (s : State) (mu : Nat) (f : Int) (j : Nat) : Int :=
  gpsEpoch + s.frameOffset + f * (10000 * usUnits) + j * slotLen mu

/-- T0 of slot j of frame f: its end (R467). -/
def State.t0 (s : State) (mu : Nat) (f : Int) (j : Nat) : Int := s.slotStart mu f j + slotLen mu

/-- The SFN of frame f. -/
def sfn (f : Int) : Nat := (f % 1024).toNat

end Sys2Proof.Machine
end

