-- ==== Sys2Proof/Machine/SignalCore.lean ====
section
/-! DEFINITION. The signal cores: issue, vector and accumulator arithmetic, addressing, repeat, interrupts, POST and
semaphores, faults (R326 to R360). -/

namespace Sys2Proof.Machine

/-! ### Registers -/

/-- Element i of a register file, `d` past its end. -/
def vget {α : Type} {n : Nat} (v : Vector α n) (i : Nat) (d : α) : α := v.toList.getD i d

/-- A register of the vector file, as a number. -/
def Sig.vreg (c : Sig) (i : Nat) : Nat := (vget c.v i 0#512).toNat
/-- A vector register replaced. -/
def Sig.setV (c : Sig) (i w : Nat) : Sig := { c with v := c.v.setIfInBounds i (BitVec.ofNat 512 w) }
/-- An address register. -/
def Sig.areg (c : Sig) (i : Nat) : Nat := (vget c.a i 0#32).toNat
/-- An address register replaced, modulo 2^32. -/
def Sig.setA (c : Sig) (i : Nat) (w : Int) : Sig := { c with a := c.a.setIfInBounds i (BitVec.ofInt 32 w) }
/-- An accumulator's 16 lanes. -/
def Sig.acc (c : Sig) (i : Nat) : List (Int × Int) := vget c.accs i []
/-- An accumulator replaced, with the flags of the operation (R42). -/
def Sig.setAcc (c : Sig) (i : Nat) (l : List (Int × Int)) (f : Flags) : Sig :=
  { c with accs := c.accs.setIfInBounds i l, flags := c.flags.join f }

/-- The HELD bits of L0 to L3 removed (R351). -/
def lMask (w : Nat) : Nat := bits w 28 16 * 65536 + bits w 11 0

/-- The value of a system register, none for a number that the table does not list (R351). -/
def Sig.sysRead (c : Sig) (g : SigId) (n : Nat) : Option Nat :=
  match n with
  | 0x00 => some (b2n c.ie * 2 ^ 15 + b2n c.inh * 2 ^ 14 + g.val)
  | 0x01 => some c.ien.toNat
  | 0x02 => some c.ipend.toNat
  | 0x03 => some c.ivec.toNat
  | 0x04 => some c.epc.toNat
  | 0x05 => some c.flags.toNat
  | 0x06 => some c.tmr.toNat
  | 0x07 => some c.watch.toNat
  | _ =>
    if 0x10 ≤ n ∧ n ≤ 0x17 then some (vget c.m (n - 0x10) 0#32).toNat
    else if 0x18 ≤ n ∧ n ≤ 0x1B then some (vget c.l (n - 0x18) 0#32).toNat
    else none

/-- A system register written: SCID and HELD fields ignore it, IPEND and FLAGS clear where 1 is written (R331, R351). -/
def Sig.sysWrite (c : Sig) (n w : Nat) : Sig :=
  match n with
  | 0x00 => { c with ie := bit w 15, inh := bit w 14 }
  | 0x01 => { c with ien := BitVec.ofNat 16 w }
  | 0x02 => { c with ipend := c.ipend &&& ~~~ BitVec.ofNat 16 w }
  | 0x03 => { c with ivec := BitVec.ofNat 32 (w / 1024 * 1024) }
  | 0x04 => { c with epc := BitVec.ofNat 32 w }
  | 0x05 => { c with flags := c.flags.w1c w }
  | 0x06 => { c with tmr := BitVec.ofNat 32 w }
  | 0x07 => { c with watch := BitVec.ofNat 16 w }
  | _ =>
    if n < 0x18 then { c with m := c.m.setIfInBounds (n - 0x10) (BitVec.ofNat 32 w) }
    else { c with l := c.l.setIfInBounds (n - 0x18) (BitVec.ofNat 32 (lMask w)) }

/-- A post-modify of A_k by M_m (R343). -/
def Sig.postMod (c : Sig) (k m : Nat) : Sig :=
  let off := (vget c.m m 0#32).toInt
  let l := (vget c.l k 0#32).toNat
  let len := bits l 28 16
  if k < 4 ∧ len ≠ 0 then
    let b : Int := 64 * (bits l 11 0 : Nat)
    c.setA k (b + ((c.areg k : Int) - b + off) % (64 * (len : Int)))
  else c.setA k ((c.areg k : Int) + off)

/-! ### Local memory (R342, R344) -/

/-- n bytes of local memory from offset `off`, as R182 gives them: a bank in OFF reads as 0, an uncorrectable word as its
stored bits, and neither stops the signal core (log 48). A bank in RETAIN is woken. -/
def State.sigLoad (s : State) (g : SigId) (off n : Nat) : Nat × State :=
  let a := sigBase g.val + off
  if s.bankOff a n then (0, s) else (s.rd a n, (s.eccRead a n).wakeSpan a n)

/-- n bytes stored in local memory at offset `off`; a bank in OFF takes none (log 48). -/
def State.sigStore (s : State) (g : SigId) (off n w : Nat) : State :=
  let a := sigBase g.val + off
  if s.bankOff a n then s else (s.wakeSpan a n).wr a n w

/-! ### Faults (R358) -/

/-- A signal core that issues no more; a waiting SACQ is withdrawn. -/
def State.sigStop (s : State) (g : SigId) : State :=
  let ws := (s.waiters.map (fun e => (e.1, e.2.filter (fun w => w.who != WaitFor.sig g.val)))).filter
    (fun e => !e.2.isEmpty)
  let c := { s.sig g with run := false, waiting := false, semWait := false }
  ({ s with waiters := ws }).setSig g c

/-- A fault of signal core g at instruction `w` of address `pc`: it stops, RUN falls, the record is written and a FAULT
notice raised. -/
def State.sigFault (s : State) (g : SigId) (w pc code detail : Nat) : State :=
  let s1 := s.sigStop g
  (s1.setSig g { s1.sig g with
      faulted := true, frec := w * 2 ^ 96 + pc * 2 ^ 64 + detail % 2 ^ 32 * 2 ^ 32 + code }).raise
    ⟨2, code, some 0, 2, g.val, 0x3130, g.val + 1, detail % 2 ^ 32⟩

/-- A source raised at signal core g (R355). -/
def State.sigRaise (s : State) (g : SigId) (q : Nat) : State :=
  let c := s.sig g
  s.setSig g { c with ipend := c.ipend ||| BitVec.ofNat 16 (2 ^ q) }

/-! ### Issue (R345, R350, R358) -/

/-- What issuing an instruction comes to: a stall, a fault, or its effect. -/
inductive SigR where
  | stall
  | fault (code detail : Nat)
  | ok (s : State)

/-- The lowest code of a list of causes (code, DETAIL), else what follows. -/
def sigChecked (causes : List (Bool × Nat × Nat)) (k : SigR) : SigR :=
  match (causes.filter (·.1)).foldl (fun (m : Option (Nat × Nat)) e =>
      match m with
      | none => some e.2
      | some x => if e.2.1 < x.1 then some e.2 else some x) none with
  | some e => .fault e.1 e.2
  | none => k

/-- Line i of local memory in the fetch buffer of 4 lines, its use noted: read where it is not there, in place of the line whose
last use is oldest (R345; log 153). -/
def State.fetchLine (s : State) (g : SigId) (i : Nat) : State :=
  if 4096 ≤ i then s
  else
    match (s.sig g).lines.find? (fun e => e.1 == i) with
    | some e => s.setSig g { s.sig g with lines := (s.sig g).lines.filter (fun x => x.1 != i) ++ [e] }
    | none =>
      let r := s.sigLoad g (64 * i) 64
      let l := (r.2.sig g).lines
      r.2.setSig g { r.2.sig g with lines := l.drop (l.length - 3) ++ [(i, r.1)] }

/-- The 32 bits issued at local address pc: from its line in the fetch buffer, which then runs 2 lines ahead (R345). A misaligned
address holds no instruction, and what is issued there is a free value (log 48). -/
def State.sigWord (s : State) (g : SigId) (pc : Nat) : Nat × State :=
  if pc % 4 = 0 then
    let s1 := s.fetchLine g (pc / 64)
    let line := (((s1.sig g).lines.find? (fun e => e.1 == pc / 64)).map (·.2)).getD 0
    (bits line (8 * (pc % 64) + 31) (8 * (pc % 64)), (s1.fetchLine g (pc / 64 + 1)).fetchLine g (pc / 64 + 2))
  else
    let f := s.takeFree
    (f.1 % 2 ^ 32, f.2)

/-- Whether an interrupt is to be taken at the next boundary (R355, R357). -/
def Sig.interrupted (c : Sig) : Bool := c.ie && (c.ipend &&& c.ien) != 0#16

/-- Whether signal core g issues: it runs, waits for no semaphore, its WAIT is over, and no interrupt comes first (R350, R355 to
R357). -/
def Sig.issues (c : Sig) : Bool :=
  c.run && !c.semWait && !c.interrupted && (!c.waiting || (c.ipend &&& c.ien) != 0#16)

/-- Signal core g with its PC at `n`, past any WAIT. -/
def Sig.goto (c : Sig) (n : Nat) : Sig := { c with pc := BitVec.ofNat 32 n, waiting := false }

/-- One issue of signal core g: where the instruction at its PC is one that `mine` accepts, what `k` makes of it, the PC
at the next instruction; otherwise nothing happens (log 7). -/
def State.issue (s : State) (g : SigId) (mine : Nat → Bool) (k : State → Nat → SigR) : State :=
  let c := s.sig g
  let pc := c.pc.toNat
  if !c.issues || s.power.stopped then s
  else if 2 ^ 18 ≤ pc then
    let f := s.takeFree
    f.2.sigFault g (f.1 % 2 ^ 32) pc 0x72 pc
  else
    let w := s.sigWord g pc
    if mine w.1 then
      match k (w.2.setSig g ((w.2.sig g).goto (pc + 4))) w.1 with
      | .stall => s
      | .fault code detail => w.2.sigFault g w.1 pc code detail
      | .ok s' => s'
    else s

/-- The opcode of an instruction. -/
def sigOp (w : Nat) : Nat := bits w 31 26

/-! ### Vector memory (R342 to R344) -/

/-- A breach of R342 at a register's value. -/
def badLocal (a align : Nat) : Bool := decide (2 ^ 18 ≤ a) || a % align != 0

/-- VLD, VST. -/
def sigVmem (g : SigId) (s : State) (w : Nat) : SigR :=
  let c := s.sig g
  let j := bits w 20 17
  let a := c.areg j
  sigChecked
    [(bits w 12 0 != 0 || (!bit w 16 && bits w 15 13 != 0), 0x71, 0), (badLocal a 64, 0x72, a)]
    (if sigOp w = 0x01 then
      let r := s.sigLoad g a 64
      let c1 := (r.2.sig g).setV (bits w 25 21) r.1
      .ok (r.2.setSig g (if bit w 16 then c1.postMod j (bits w 15 13) else c1))
    else
      let s1 := s.sigStore g a 64 (c.vreg (bits w 25 21))
      .ok (s1.setSig g (if bit w 16 then c.postMod j (bits w 15 13) else c)))

/-- VLD2. -/
def sigVld2 (g : SigId) (s : State) (w : Nat) : SigR :=
  let c := s.sig g
  let j := bits w 20 17
  let k := bits w 12 9
  let d := bits w 25 21
  sigChecked
    [(bits w 4 0 != 0 || d % 2 != 0 || (!bit w 16 && bits w 15 13 != 0) || (!bit w 8 && bits w 7 5 != 0), 0x71, 0),
     (badLocal (c.areg j) 64, 0x72, c.areg j), (badLocal (c.areg k) 64, 0x72, c.areg k)]
    (let r := s.sigLoad g (c.areg j) 64
     let q := r.2.sigLoad g (c.areg k) 64
     let c1 := ((q.2.sig g).setV d r.1).setV (d + 1) q.1
     let c2 := if bit w 16 then c1.postMod j (bits w 15 13) else c1
     .ok (q.2.setSig g (if bit w 8 then c2.postMod k (bits w 7 5) else c2)))

/-! ### Multiply-accumulate (R333 to R336) -/

/-- Lane i of a 512-bit line (R330). -/
def laneOf (line i : Nat) : Int × Int := (sbits line (32 * i + 15) (32 * i), sbits line (32 * i + 31) (32 * i + 16))

/-- Element e of a line. -/
def elemOf (line e : Nat) : Int := sbits line (16 * e + 15) (16 * e)

/-- A complex product with one operand conjugated by CJ (R333). -/
def cprod (cj : Nat) (x y : Int × Int) : Int × Int :=
  let b := if cj = 1 then -x.2 else x.2
  let d := if cj = 2 then -y.2 else y.2
  (x.1 * y.1 - b * d, x.1 * d + b * y.1)

/-- The bounds of an accumulator part (R330). -/
def accLo : Int := -(2 ^ 39)
def accHi : Int := 2 ^ 39 - 1

/-- One part accumulated: the clamped result and whether it clamped (R334). -/
def accPart (sub : Bool) (x p : Int) : Int × Bool :=
  let r := if sub then x - p else x + p
  (clampI accLo accHi r, decide (r < accLo ∨ accHi < r))

/-- One product accumulated in one lane. -/
def accLane (sub : Bool) (z : (Int × Int) × Bool) (p : Int × Int) : (Int × Int) × Bool :=
  let a := accPart sub z.1.1 p.1
  let b := accPart sub z.1.2 p.2
  ((a.1, b.1), z.2 || a.2 || b.2)

/-- Products accumulated lane by lane: `ps i` are those of lane i, in their order (R334, R335). -/
def Sig.accumulate (c : Sig) (n : Nat) (sub : Bool) (ps : Nat → List (Int × Int)) : Sig :=
  let l := (List.range 16).map (fun i => (ps i).foldl (accLane sub) ((c.acc n).getD i (0, 0), false))
  c.setAcc n (l.map (·.1)) (Flags.ofSat (l.any (·.2)))

/-- Fields that a MAC instruction holds. -/
def macHeld (w : Nat) : Bool := bits w 5 0 != 0 || bits w 22 21 == 3

/-- CMAC, CDOT3 and RMAC: products of vector registers. -/
def sigMac (g : SigId) (s : State) (w : Nat) : SigR :=
  let c := s.sig g
  let va := bits w 19 15
  let vb := bits w 14 10
  let cj := bits w 22 21
  let op := sigOp w
  sigChecked
    [(macHeld w || bits w 9 6 != 0 || (op == 0x0B && cj != 0) || (op == 0x0A && (va % 4 != 0 || vb % 4 != 0)), 0x71, 0)]
    (.ok (s.setSig g (c.accumulate (bits w 25 23) (bit w 20) (fun i =>
      if op = 0x0B then
        [(elemOf (c.vreg va) (2 * i) * elemOf (c.vreg vb) (2 * i),
          elemOf (c.vreg va) (2 * i + 1) * elemOf (c.vreg vb) (2 * i + 1))]
      else if op = 0x0A then
        (List.range 4).map (fun q => cprod cj (laneOf (c.vreg (va + q)) i) (laneOf (c.vreg (vb + q)) i))
      else [cprod cj (laneOf (c.vreg va) i) (laneOf (c.vreg vb) i)]))))

/-- CMACM: products of two lines of local memory, both registers post-modified. -/
def sigCmacm (g : SigId) (s : State) (w : Nat) : SigR :=
  let c := s.sig g
  let j := bits w 19 16
  let k := bits w 12 9
  sigChecked
    [(macHeld w, 0x71, 0), (badLocal (c.areg j) 64, 0x72, c.areg j), (badLocal (c.areg k) 64, 0x72, c.areg k)]
    (let r := s.sigLoad g (c.areg j) 64
     let q := r.2.sigLoad g (c.areg k) 64
     let c1 := (q.2.sig g).accumulate (bits w 25 23) (bit w 20)
       (fun i => [cprod (bits w 22 21) (laneOf r.1 i) (laneOf q.1 i)])
     .ok (q.2.setSig g ((c1.postMod j (bits w 15 13)).postMod k (bits w 8 6))))

/-! ### Accumulators (R337 to R339) -/

/-- A part stored as I16 with shift and rounding (R338). -/
def shiftStore (sh : Nat) (x : Int) : Stored := storeInt 16 (.num x (2 ^ sh) false)

/-- 16 pairs of I16 codes as a line. -/
def packLanes (l : List (Nat × Nat)) : Nat :=
  l.foldr (fun e n => e.1 % 65536 + 65536 * (e.2 % 65536) + 2 ^ 32 * n) 0

/-- 32 I16 codes as a line. -/
def packElems (l : List Nat) : Nat := l.foldr (fun e n => e % 65536 + 65536 * n) 0

/-- Fields of the accumulator instructions that must be 0. -/
def accField (w : Nat) : Bool :=
  let op := sigOp w
  bits w 8 0 != 0 || (op != 0x0D && bits w 22 13 != 0) || (op != 0x0E && op != 0x0F && bits w 12 9 != 0)

/-- ACCSUM (R337). -/
def sigAccsum (g : SigId) (s : State) (w : Nat) : SigR :=
  let c := s.sig g
  let n := bits w 25 23
  let re := ((c.acc n).map (·.1)).sum
  let im := ((c.acc n).map (·.2)).sum
  sigChecked [(accField w, 0x71, 0)]
    (.ok (s.setSig g (c.setAcc n ((clampI accLo accHi re, clampI accLo accHi im) :: List.replicate 15 (0, 0))
      (Flags.ofSat (decide (re < accLo ∨ accHi < re ∨ im < accLo ∨ accHi < im))))))

/-- ACCCLR. -/
def sigAccclr (g : SigId) (s : State) (w : Nat) : SigR :=
  sigChecked [(accField w, 0x71, 0)]
    (.ok (s.setSig g ((s.sig g).setAcc (bits w 25 23) (List.replicate 16 (0, 0)) Flags.clear)))

/-- ACCST (R338). -/
def sigAccst (g : SigId) (s : State) (w : Nat) : SigR :=
  let c := s.sig g
  let l := (c.acc (bits w 25 23)).map (fun z => (shiftStore (bits w 17 13) z.1, shiftStore (bits w 17 13) z.2))
  sigChecked [(accField w, 0x71, 0)]
    (.ok (s.setSig g
      { c.setV (bits w 22 18) (packLanes (l.map (fun e => (e.1.code, e.2.code)))) with
        flags := c.flags.join (Flags.joinAll (l.map (fun e => e.1.fl.join e.2.fl))) }))

/-- The 256 bytes of an accumulator (R339). -/
def accImage (l : List (Int × Int)) : Nat :=
  l.foldr (fun e n => enc 64 e.1 + 2 ^ 64 * enc 64 e.2 + 2 ^ 128 * n) 0

/-- ACCSV (R339). -/
def sigAccsv (g : SigId) (s : State) (w : Nat) : SigR :=
  let a := (s.sig g).areg (bits w 12 9)
  sigChecked [(accField w, 0x71, 0), (badLocal a 256, 0x72, a)]
    (.ok (s.sigStore g a 256 (accImage ((s.sig g).acc (bits w 25 23)))))

/-- ACCRS (R339). -/
def sigAccrs (g : SigId) (s : State) (w : Nat) : SigR :=
  let a := (s.sig g).areg (bits w 12 9)
  sigChecked [(accField w, 0x71, 0), (badLocal a 256, 0x72, a)]
    (let r := s.sigLoad g a 256
     let raw := (List.range 16).map (fun i => (sbits r.1 (128 * i + 63) (128 * i), sbits r.1 (128 * i + 127) (128 * i + 64)))
     let z := raw.map (fun e => accLane false ((0, 0), false) e)
     .ok (r.2.setSig g ((r.2.sig g).setAcc (bits w 25 23) (z.map (·.1)) (Flags.ofSat (z.any (·.2))))))

/-! ### VALU (R340) -/

/-- The functions that read VB. -/
def valuBinary (fn : Nat) : Bool := decide (fn < 4) || decide (0x0B ≤ fn ∧ fn ≤ 0x0E)

/-- The functions that read IMM6. -/
def valuImm (fn : Nat) : Bool := fn == 0x09 || fn == 0x0A || fn == 0x0F

/-- A quotient stored as I16: rounded by R33, saturated by R37. -/
def valuStore (n : Int) (d : Nat) : Stored := storeInt 16 (.num n d false)

/-- The result of an elementwise function at element e. -/
def valuElem (fn n a b e : Nat) : Stored :=
  let x := elemOf a e
  let y := elemOf b e
  match fn with
  | 0x00 => valuStore (x + y) 1
  | 0x01 => valuStore (x - y) 1
  | 0x02 => valuStore (min x y) 1
  | 0x03 => valuStore (max x y) 1
  | 0x04 => valuStore x.natAbs 1
  | 0x05 => valuStore (-x) 1
  | 0x06 => valuStore (if e % 2 = 1 then -x else x) 1
  | 0x07 => valuStore (if e % 2 = 0 then -(elemOf a (e + 1)) else elemOf a (e - 1)) 1
  | 0x08 => valuStore (if e % 2 = 0 then elemOf a (e + 1) else elemOf a (e - 1)) 1
  | 0x09 => valuStore x (2 ^ n)
  | 0x0A => valuStore (x * 2 ^ n) 1
  | _ => valuStore (x + y) 2

/-- VALU. -/
def sigValu (g : SigId) (s : State) (w : Nat) : SigR :=
  let c := s.sig g
  let a := c.vreg (bits w 20 16)
  let b := c.vreg (bits w 15 11)
  let fn := bits w 10 6
  let d := bits w 25 21
  let put := fun (x : Nat) => SigR.ok (s.setSig g (c.setV d x))
  sigChecked
    [(decide (0x11 ≤ fn) || (!valuBinary fn && bits w 15 11 != 0) || (!valuImm fn && bits w 5 0 != 0), 0x71, 0)]
    (match fn with
     | 0x0C => put (Nat.land a b)
     | 0x0D => put (Nat.lor a b)
     | 0x0E => put (Nat.xor a b)
     | 0x0F => put (packLanes (List.replicate 16 (bits a (32 * bits w 3 0 + 15) (32 * bits w 3 0),
         bits a (32 * bits w 3 0 + 31) (32 * bits w 3 0 + 16))))
     | 0x10 => put a
     | _ =>
       let l := (List.range 32).map (valuElem fn (bits w 3 0) a b)
       .ok (s.setSig g { c.setV d (packElems (l.map (·.code))) with
         flags := c.flags.join (Flags.joinAll (l.map (·.fl))) }))

/-! ### Scalars (R341, R342, R351) -/

/-- The functions of AALU and AALUI on 32-bit values, before the reduction modulo 2^32. -/
def aaluOp (fn a b : Nat) : Int :=
  let x := sext 32 a
  let y := sext 32 b
  let n := b % 32
  match fn with
  | 0x0 => (a : Int) + b
  | 0x1 => (a : Int) - b
  | 0x2 => (Nat.land a b : Nat)
  | 0x3 => (Nat.lor a b : Nat)
  | 0x4 => (Nat.xor a b : Nat)
  | 0x5 => (a * 2 ^ n : Nat)
  | 0x6 => roundDiv a (2 ^ n)
  | 0x7 => roundDiv x (2 ^ n)
  | 0x8 => min x y
  | 0x9 => max x y
  | _ => if x < y then 1 else 0

/-- AALU, AALUI. -/
def sigAalu (g : SigId) (s : State) (w : Nat) : SigR :=
  let c := s.sig g
  let b := if sigOp w = 0x20 then c.areg (bits w 13 10) else enc 32 (sbits w 13 0)
  sigChecked [(decide (0xB ≤ bits w 17 14) || (sigOp w == 0x20 && bits w 9 0 != 0), 0x71, 0)]
    (.ok (s.setSig g (c.setA (bits w 25 22) (aaluOp (bits w 17 14) (c.areg (bits w 21 18)) b))))

/-- LDS and STS. -/
def sigScalar (g : SigId) (s : State) (w : Nat) : SigR :=
  let c := s.sig g
  let e := enc 32 ((c.areg (bits w 21 18) : Int) + sbits w 13 0)
  sigChecked [(bits w 17 14 != 0, 0x71, 0), (badLocal e 4, 0x72, e)]
    (if sigOp w = 0x22 then
      let r := s.sigLoad g e 4
      .ok (r.2.setSig g ((r.2.sig g).setA (bits w 25 22) r.1))
    else .ok (s.sigStore g e 4 (c.areg (bits w 25 22))))

/-- MOVE: LI, LIH, MTS, MFS. -/
def sigMove (g : SigId) (s : State) (w : Nat) : SigR :=
  let c := s.sig g
  let d := bits w 25 22
  let kind := bits w 21 20
  sigChecked
    [(bits w 19 16 != 0 || (decide (2 ≤ kind) && (bits w 15 7 != 0 || (c.sysRead g (bits w 6 0)).isNone)), 0x71, 0)]
    (match kind with
     | 0 => .ok (s.setSig g (c.setA d (sbits w 15 0)))
     | 1 => .ok (s.setSig g (c.setA d (setBits (c.areg d) 31 16 (bits w 15 0))))
     | 2 => .ok (s.setSig g (c.sysWrite (bits w 6 0) (c.areg d)))
     | _ => .ok (s.setSig g (c.setA d ((c.sysRead g (bits w 6 0)).getD 0))))

/-! ### Control (R350, R352 to R354) -/

/-- The test of a branch; none for the held value. -/
def brTest (cond : Nat) (x : Int) : Option Bool :=
  match cond with
  | 0 => some true
  | 1 => some (decide (x = 0))
  | 2 => some (decide (x ≠ 0))
  | 3 => some (decide (x < 0))
  | 4 => some (decide (0 ≤ x))
  | 5 => some (decide (0 < x))
  | 6 => some (decide (x ≤ 0))
  | _ => none

/-- The PC of a branch's target; the PC stands behind the branch. -/
def Sig.target (c : Sig) (w : Nat) : BitVec 32 := BitVec.ofInt 32 ((c.pc.toNat : Int) - 4 + 4 * sbits w 18 0)

/-- BR. -/
def sigBr (g : SigId) (s : State) (w : Nat) : SigR :=
  let c := s.sig g
  match brTest (bits w 21 19) (sext 32 (c.areg (bits w 25 22))) with
  | none => .fault 0x71 0
  | some true => .ok (s.setSig g { c with pc := c.target w })
  | some false => .ok s

/-- BRL. -/
def sigBrl (g : SigId) (s : State) (w : Nat) : SigR :=
  let c := s.sig g
  sigChecked [(bits w 25 19 != 0, 0x71, 0)]
    (.ok (s.setSig g { c.setA 15 c.pc.toNat with pc := c.target w }))

/-- JR. -/
def sigJr (g : SigId) (s : State) (w : Nat) : SigR :=
  let c := s.sig g
  sigChecked [(bits w 21 0 != 0, 0x71, 0)]
    (.ok (s.setSig g { c with pc := BitVec.ofNat 32 (c.areg (bits w 25 22)) }))

/-- WAIT: issue stops until an enabled interrupt is pending. -/
def sigWait (g : SigId) (s : State) (w : Nat) : SigR :=
  sigChecked [(bits w 25 0 != 0, 0x71, 0)] (.ok (s.setSig g { s.sig g with waiting := true }))

/-- RTI. -/
def sigRti (g : SigId) (s : State) (w : Nat) : SigR :=
  let c := s.sig g
  sigChecked [(bits w 25 0 != 0, 0x71, 0)] (.ok (s.setSig g { c with pc := c.epc, ie := true, inh := false }))

/-- HALT: as a write of RUN = 0. -/
def sigHalt (g : SigId) (s : State) (w : Nat) : SigR :=
  sigChecked [(bits w 25 0 != 0, 0x71, 0)] (.ok (s.sigStop g))

/-- The instructions that REP may repeat (R353). -/
def repeatable (w : Nat) : Bool :=
  [0x01, 0x02, 0x03, 0x07, 0x08, 0x09, 0x0A, 0x0B, 0x0C, 0x0D, 0x10, 0x20, 0x21, 0x22, 0x23].contains (sigOp w) ||
    (sigOp w == 0x24 && decide (bits w 21 20 < 2))

/-- One iteration of a repeated instruction. -/
def sigBody (g : SigId) (s : State) (w : Nat) : SigR :=
  match sigOp w with
  | 0x01 => sigVmem g s w
  | 0x02 => sigVmem g s w
  | 0x03 => sigVld2 g s w
  | 0x07 => sigAccsum g s w
  | 0x08 => sigMac g s w
  | 0x09 => sigCmacm g s w
  | 0x0A => sigMac g s w
  | 0x0B => sigMac g s w
  | 0x0C => sigAccclr g s w
  | 0x0D => sigAccst g s w
  | 0x10 => sigValu g s w
  | 0x20 => sigAalu g s w
  | 0x21 => sigAalu g s w
  | 0x22 => sigScalar g s w
  | 0x23 => sigScalar g s w
  | _ => sigMove g s w

/-- n iterations of an instruction at address pc; a fault in one leaves the effects of those before it (R354). -/
def sigIterate (g : SigId) (w pc : Nat) : Nat → State → State
  | 0, s => s
  | n + 1, s =>
    match sigBody g s w with
    | .ok s' => sigIterate g w pc n s'
    | .fault code detail => s.sigFault g w pc code detail
    | .stall => s

/-! ### POST and semaphores (R346 to R349) -/

/-- POST: one write to the address PB_i + A_k, beside the accesses `others` that ask for memory in the same cycle; its response is
outstanding until it returns. -/
def sigPost (others : List MemAccess) (g : SigId) (s : State) (w : Nat) : SigR :=
  let c := s.sig g
  let pb := bits (s.od 0x3140 (g.val + 1)) (64 * bits w 20 17 + 63) (64 * bits w 20 17)
  let addr := pb + c.areg (bits w 16 13)
  let len := 8 * (bits w 12 10 + 1)
  sigChecked
    [(bits w 9 0 != 0, 0x71, 0),
     (addr % 8 != 0 || decide (64 < addr % 64 + len) || ((addrMode pb == 1 || addrMode pb == 2) && len != 8), 0x75, 0)]
    (if 8 ≤ c.posts.length then .stall
    else
      let r := s.postWrite g.val (addr % 2 ^ 52) len (c.vreg (bits w 25 21) % 256 ^ len) others
      .ok (r.2.setSig g { r.2.sig g with posts := (r.2.sig g).posts ++ [(w, c.pc.toNat - 4, r.1)] }))

/-- A semaphore instruction's checks: K from 1, and the semaphore of partition 0 (R328, R348). -/
def sigSem (s : State) (w : Nat) (k : SigR) : SigR :=
  sigChecked [(bits w 9 0 == 0, 0x71, 0), (s.semPart (bits w 25 10) != some 0, 0x74, 3)] k

/-- SACQ: the core waits, its PC at the instruction, until the amount is granted. -/
def sigSacq (g : SigId) (s : State) (w : Nat) : SigR :=
  let c := s.sig g
  sigSem s w (.ok ((s.setSig g { c with semWait := true, pc := c.pc - 4#32 }).ask (bits w 25 10) (bits w 9 0) (.sig g.val)))

/-- SREL: once every earlier POST has its response. -/
def sigSrel (g : SigId) (s : State) (w : Nat) : SigR :=
  sigSem s w (if (s.sig g).posts.isEmpty then .ok (s.semAdd (bits w 25 10) (bits w 9 0)) else .stall)

/-! ### REP (R352 to R354, R358) -/

/-- Whether an instruction has an opcode and function that the tables list. -/
def sigKnown (w : Nat) : Bool :=
  [0x01, 0x02, 0x03, 0x07, 0x08, 0x09, 0x0A, 0x0B, 0x0C, 0x0D, 0x0E, 0x0F, 0x22, 0x23, 0x24, 0x30, 0x31, 0x32, 0x33,
    0x34, 0x35, 0x36, 0x38, 0x39, 0x3A].contains (sigOp w) ||
    (sigOp w == 0x10 && decide (bits w 10 6 < 0x11)) ||
    ((sigOp w == 0x20 || sigOp w == 0x21) && decide (bits w 17 14 < 0xB))

/-- Fields of REP that must be 0. -/
def repField (w : Nat) : Bool :=
  bits w 21 19 != 0 || bits w 17 8 != 0 || (bit w 18 && bits w 7 0 != 0) || (!bit w 18 && bits w 25 22 != 0)

/-- An instruction that REP may not repeat, as its own issue would take it; for a second REP its fields alone count. -/
def sigUnrepeated (g : SigId) (s : State) (w : Nat) : SigR :=
  match sigOp w with
  | 0x0E => sigAccsv g s w
  | 0x0F => sigAccrs g s w
  | 0x24 => sigMove g s w
  | 0x30 => sigBr g s w
  | 0x31 => sigBrl g s w
  | 0x32 => sigJr g s w
  | 0x34 => sigWait g s w
  | 0x35 => sigRti g s w
  | 0x36 => sigHalt g s w
  | 0x38 => sigPost [] g s w
  | 0x39 => sigSacq g s w
  | 0x3A => sigSrel g s w
  | _ => if repField w then .fault 0x71 0 else .ok s

/-- What is wrong with the instruction after a REP: SIG_REP where it may not be repeated, or a lower code of its own (R353,
R358). -/
def repCause (g : SigId) (s : State) (w : Nat) : Option (Nat × Nat) :=
  if repeatable w then none
  else if !sigKnown w then some (0x70, 0)
  else
    match sigUnrepeated g s w with
    | .fault code detail => if code < 0x73 then some (code, detail) else some (0x73, 0)
    | _ => some (0x73, 0)

/-- REP (R352 to R354): the count, then the next instruction that often, as one unit. The lowest code of what is wrong with
either is reported (R358). -/
def sigRep (g : SigId) (s : State) (w : Nat) : SigR :=
  let c := s.sig g
  let count := if bit w 18 then c.areg (bits w 25 22) else bits w 7 0 + 1
  let pc := c.pc.toNat
  sigChecked [(repField w, 0x71, 0)]
    (if 2 ^ 18 ≤ pc then
      let f := s.takeFree
      .ok (f.2.sigFault g (f.1 % 2 ^ 32) pc 0x72 pc)
    else
      let i := s.sigWord g pc
      match (repCause g i.2 i.1).filter (fun e => decide (count ≤ 256 ∨ e.1 < 0x73)) with
      | some e => .ok (i.2.sigFault g i.1 pc e.1 e.2)
      | none =>
        if 256 < count then .fault 0x73 0
        else .ok (sigIterate g i.1 pc count (i.2.setSig g ((i.2.sig g).goto (pc + 4)))))

/-! ### Stepping one issue by name -/

/-- The instructions of an opcode. -/
def ofOp (op w : Nat) : Bool := sigOp w == op
/-- The VALU instructions of a function. -/
def ofValu (fn w : Nat) : Bool := sigOp w == 0x10 && bits w 10 6 == fn
/-- The AALU and AALUI instructions of a function. -/
def ofAalu (fn w : Nat) : Bool := (sigOp w == 0x20 || sigOp w == 0x21) && bits w 17 14 == fn
/-- The MOVE instructions of a kind. -/
def ofMove (kind w : Nat) : Bool := sigOp w == 0x24 && bits w 21 20 == kind

/-- Vld (R344). -/
def execVld (g : SigId) (s : State) : Host.Outcome State Fault Refusal :=
  .next (s.issue g (ofOp 0x01) (sigVmem g))

/-- Vst (R344). -/
def execVst (g : SigId) (s : State) : Host.Outcome State Fault Refusal :=
  .next (s.issue g (ofOp 0x02) (sigVmem g))

/-- Vld2 (R344). -/
def execVld2 (g : SigId) (s : State) : Host.Outcome State Fault Refusal :=
  .next (s.issue g (ofOp 0x03) (sigVld2 g))

/-- Accsum (R337). -/
def execAccsum (g : SigId) (s : State) : Host.Outcome State Fault Refusal :=
  .next (s.issue g (ofOp 0x07) (sigAccsum g))

/-- Cmac (R334). -/
def execCmac (g : SigId) (s : State) : Host.Outcome State Fault Refusal :=
  .next (s.issue g (ofOp 0x08) (sigMac g))

/-- Cmacm (R334). -/
def execCmacm (g : SigId) (s : State) : Host.Outcome State Fault Refusal :=
  .next (s.issue g (ofOp 0x09) (sigCmacm g))

/-- Cdot3 (R335). -/
def execCdot3 (g : SigId) (s : State) : Host.Outcome State Fault Refusal :=
  .next (s.issue g (ofOp 0x0A) (sigMac g))

/-- Rmac (R336). -/
def execRmac (g : SigId) (s : State) : Host.Outcome State Fault Refusal :=
  .next (s.issue g (ofOp 0x0B) (sigMac g))

/-- Accclr (R350). -/
def execAccclr (g : SigId) (s : State) : Host.Outcome State Fault Refusal :=
  .next (s.issue g (ofOp 0x0C) (sigAccclr g))

/-- Accst (R338). -/
def execAccst (g : SigId) (s : State) : Host.Outcome State Fault Refusal :=
  .next (s.issue g (ofOp 0x0D) (sigAccst g))

/-- Accsv (R339). -/
def execAccsv (g : SigId) (s : State) : Host.Outcome State Fault Refusal :=
  .next (s.issue g (ofOp 0x0E) (sigAccsv g))

/-- Accrs (R339). -/
def execAccrs (g : SigId) (s : State) : Host.Outcome State Fault Refusal :=
  .next (s.issue g (ofOp 0x0F) (sigAccrs g))

/-- ValuAdd (R340). -/
def execValuAdd (g : SigId) (s : State) : Host.Outcome State Fault Refusal :=
  .next (s.issue g (ofValu 0x00) (sigValu g))

/-- ValuSub (R340). -/
def execValuSub (g : SigId) (s : State) : Host.Outcome State Fault Refusal :=
  .next (s.issue g (ofValu 0x01) (sigValu g))

/-- ValuMin (R340). -/
def execValuMin (g : SigId) (s : State) : Host.Outcome State Fault Refusal :=
  .next (s.issue g (ofValu 0x02) (sigValu g))

/-- ValuMax (R340). -/
def execValuMax (g : SigId) (s : State) : Host.Outcome State Fault Refusal :=
  .next (s.issue g (ofValu 0x03) (sigValu g))

/-- ValuAbs (R340). -/
def execValuAbs (g : SigId) (s : State) : Host.Outcome State Fault Refusal :=
  .next (s.issue g (ofValu 0x04) (sigValu g))

/-- ValuNeg (R340). -/
def execValuNeg (g : SigId) (s : State) : Host.Outcome State Fault Refusal :=
  .next (s.issue g (ofValu 0x05) (sigValu g))

/-- ValuConj (R340). -/
def execValuConj (g : SigId) (s : State) : Host.Outcome State Fault Refusal :=
  .next (s.issue g (ofValu 0x06) (sigValu g))

/-- ValuMulj (R340). -/
def execValuMulj (g : SigId) (s : State) : Host.Outcome State Fault Refusal :=
  .next (s.issue g (ofValu 0x07) (sigValu g))

/-- ValuSwap (R340). -/
def execValuSwap (g : SigId) (s : State) : Host.Outcome State Fault Refusal :=
  .next (s.issue g (ofValu 0x08) (sigValu g))

/-- ValuShr (R340). -/
def execValuShr (g : SigId) (s : State) : Host.Outcome State Fault Refusal :=
  .next (s.issue g (ofValu 0x09) (sigValu g))

/-- ValuShl (R340). -/
def execValuShl (g : SigId) (s : State) : Host.Outcome State Fault Refusal :=
  .next (s.issue g (ofValu 0x0A) (sigValu g))

/-- ValuAvg (R340). -/
def execValuAvg (g : SigId) (s : State) : Host.Outcome State Fault Refusal :=
  .next (s.issue g (ofValu 0x0B) (sigValu g))

/-- ValuAnd (R340). -/
def execValuAnd (g : SigId) (s : State) : Host.Outcome State Fault Refusal :=
  .next (s.issue g (ofValu 0x0C) (sigValu g))

/-- ValuOr (R340). -/
def execValuOr (g : SigId) (s : State) : Host.Outcome State Fault Refusal :=
  .next (s.issue g (ofValu 0x0D) (sigValu g))

/-- ValuXor (R340). -/
def execValuXor (g : SigId) (s : State) : Host.Outcome State Fault Refusal :=
  .next (s.issue g (ofValu 0x0E) (sigValu g))

/-- ValuBcast (R340). -/
def execValuBcast (g : SigId) (s : State) : Host.Outcome State Fault Refusal :=
  .next (s.issue g (ofValu 0x0F) (sigValu g))

/-- ValuMov (R340). -/
def execValuMov (g : SigId) (s : State) : Host.Outcome State Fault Refusal :=
  .next (s.issue g (ofValu 0x10) (sigValu g))

/-- AaluAdd (R341). -/
def execAaluAdd (g : SigId) (s : State) : Host.Outcome State Fault Refusal :=
  .next (s.issue g (ofAalu 0x0) (sigAalu g))

/-- AaluSub (R341). -/
def execAaluSub (g : SigId) (s : State) : Host.Outcome State Fault Refusal :=
  .next (s.issue g (ofAalu 0x1) (sigAalu g))

/-- AaluAnd (R341). -/
def execAaluAnd (g : SigId) (s : State) : Host.Outcome State Fault Refusal :=
  .next (s.issue g (ofAalu 0x2) (sigAalu g))

/-- AaluOr (R341). -/
def execAaluOr (g : SigId) (s : State) : Host.Outcome State Fault Refusal :=
  .next (s.issue g (ofAalu 0x3) (sigAalu g))

/-- AaluXor (R341). -/
def execAaluXor (g : SigId) (s : State) : Host.Outcome State Fault Refusal :=
  .next (s.issue g (ofAalu 0x4) (sigAalu g))

/-- AaluShl (R341). -/
def execAaluShl (g : SigId) (s : State) : Host.Outcome State Fault Refusal :=
  .next (s.issue g (ofAalu 0x5) (sigAalu g))

/-- AaluShr (R341). -/
def execAaluShr (g : SigId) (s : State) : Host.Outcome State Fault Refusal :=
  .next (s.issue g (ofAalu 0x6) (sigAalu g))

/-- AaluSra (R341). -/
def execAaluSra (g : SigId) (s : State) : Host.Outcome State Fault Refusal :=
  .next (s.issue g (ofAalu 0x7) (sigAalu g))

/-- AaluMin (R341). -/
def execAaluMin (g : SigId) (s : State) : Host.Outcome State Fault Refusal :=
  .next (s.issue g (ofAalu 0x8) (sigAalu g))

/-- AaluMax (R341). -/
def execAaluMax (g : SigId) (s : State) : Host.Outcome State Fault Refusal :=
  .next (s.issue g (ofAalu 0x9) (sigAalu g))

/-- AaluSlt (R341). -/
def execAaluSlt (g : SigId) (s : State) : Host.Outcome State Fault Refusal :=
  .next (s.issue g (ofAalu 0xA) (sigAalu g))

/-- Lds (R342). -/
def execLds (g : SigId) (s : State) : Host.Outcome State Fault Refusal :=
  .next (s.issue g (ofOp 0x22) (sigScalar g))

/-- Sts (R342). -/
def execSts (g : SigId) (s : State) : Host.Outcome State Fault Refusal :=
  .next (s.issue g (ofOp 0x23) (sigScalar g))

/-- Li (R350). -/
def execLi (g : SigId) (s : State) : Host.Outcome State Fault Refusal :=
  .next (s.issue g (ofMove 0) (sigMove g))

/-- Lih (R350). -/
def execLih (g : SigId) (s : State) : Host.Outcome State Fault Refusal :=
  .next (s.issue g (ofMove 1) (sigMove g))

/-- Mts (R351). -/
def execMts (g : SigId) (s : State) : Host.Outcome State Fault Refusal :=
  .next (s.issue g (ofMove 2) (sigMove g))

/-- Mfs (R351). -/
def execMfs (g : SigId) (s : State) : Host.Outcome State Fault Refusal :=
  .next (s.issue g (ofMove 3) (sigMove g))

/-- Br (R350). -/
def execBr (g : SigId) (s : State) : Host.Outcome State Fault Refusal :=
  .next (s.issue g (ofOp 0x30) (sigBr g))

/-- Brl (R350). -/
def execBrl (g : SigId) (s : State) : Host.Outcome State Fault Refusal :=
  .next (s.issue g (ofOp 0x31) (sigBrl g))

/-- Jr (R350). -/
def execJr (g : SigId) (s : State) : Host.Outcome State Fault Refusal :=
  .next (s.issue g (ofOp 0x32) (sigJr g))

/-- Rep (R352 to R354). -/
def execRep (g : SigId) (s : State) : Host.Outcome State Fault Refusal :=
  .next (s.issue g (ofOp 0x33) (sigRep g))

/-- WaitCmd (R350). -/
def execWaitCmd (g : SigId) (s : State) : Host.Outcome State Fault Refusal :=
  .next (s.issue g (ofOp 0x34) (sigWait g))

/-- Rti (R350). -/
def execRti (g : SigId) (s : State) : Host.Outcome State Fault Refusal :=
  .next (s.issue g (ofOp 0x35) (sigRti g))

/-- SignalCoreHalt (R350, R359). -/
def execSignalCoreHalt (g : SigId) (s : State) : Host.Outcome State Fault Refusal :=
  .next (s.issue g (ofOp 0x36) (sigHalt g))

/-- Post (R346, R347, R349), beside the accesses that meet its write at memory. -/
def execPost (x : PostTurn) (s : State) : Host.Outcome State Fault Refusal :=
  .next (s.issue x.core (ofOp 0x38) (sigPost x.others x.core))

/-- Sacq (R348). -/
def execSacq (g : SigId) (s : State) : Host.Outcome State Fault Refusal :=
  .next (s.issue g (ofOp 0x39) (sigSacq g))

/-- Srel (R348). -/
def execSrel (g : SigId) (s : State) : Host.Outcome State Fault Refusal :=
  .next (s.issue g (ofOp 0x3A) (sigSrel g))

/-! ### Other steps of a signal core -/

/-- SIG_OPCODE (R340, R341, R350): a held opcode faults with 0x70; a held function of VALU or AALU, which no other step
issues, with 0x71 (log 49). -/
def execSigOpcode (g : SigId) (s : State) : Host.Outcome State Fault Refusal :=
  .next (s.issue g (fun w => !sigKnown w) (fun _ w =>
    .fault (if sigOp w = 0x10 ∨ sigOp w = 0x20 ∨ sigOp w = 0x21 then 0x71 else 0x70) 0))

/-- SIGNAL_CORE_STOPPED (R359): a core that issues no more and has every POST response is no longer RUNNING. -/
def execSignalCoreStopped (g : SigId) (s : State) : Host.Outcome State Fault Refusal :=
  let c := s.sig g
  .next (if !c.run && c.posts.isEmpty then s.setSig g { c with running := false } else s)

/-- POST_RESPONSE (R349, R358): the oldest POST is answered. W_LOST has been counted at its bank; any other response
except OK faults the core, once. -/
def execPostResponse (g : SigId) (s : State) : Host.Outcome State Fault Refusal :=
  let c := s.sig g
  .next (match c.posts with
    | [] => s
    | (w, pc, code) :: t =>
      let s1 := s.setSig g { c with posts := t }
      if code = 0 ∨ code = 1 ∨ c.faulted then s1 else s1.sigFault g w pc 0x74 code)

/-- The lowest set bit of a 16-bit word, 16 where there is none. -/
def lowestBit (w : BitVec 16) : Nat := ((List.range 16).find? (fun i => w.getLsbD i)).getD 16

/-- INTERRUPT_TAKEN (R355, R356): the lowest pending enabled source, where ST.IE allows it. A waiting SACQ is withdrawn
and stands at EPC. -/
def execInterruptTaken (g : SigId) (s : State) : Host.Outcome State Fault Refusal :=
  let c := s.sig g
  let w := c.ipend &&& c.ien
  .next (if c.run ∧ c.ie ∧ w ≠ 0#16 then
      let s1 := s.sigStop g
      s1.setSig g { s1.sig g with
        run := true, ie := false, inh := true, epc := c.pc, pc := c.ivec + BitVec.ofNat 32 (64 * lowestBit w) }
    else s)

/-- TIMER (table "Interrupt sources"): TMR reaches 0. -/
def execTimer (g : SigId) (s : State) : Host.Outcome State Fault Refusal :=
  let c := s.sig g
  .next (if c.tmr = 0#32 then s else (s.setSig g { c with tmr := 0#32 }).sigRaise g 5)

/-- CROWN_MESSAGE (table "Interrupt sources"): Crown posts a message to signal core g. -/
def execCrownMessage (g : SigId) (s : State) : Host.Outcome State Fault Refusal := .next (s.sigRaise g 7)

end Sys2Proof.Machine
end

