-- ==== Sys2Proof/Machine/FarReach.lean ====
section
/-! DEFINITION. The far-reach chirp link: frames, soft symbol records, gain control, transmission, the drift ledger,
combining and the converter port (R393 to R421). -/

namespace Sys2Proof.Machine

/-! ### Waveform (R393 to R397) -/

/-- Whether the link runs: ENABLE of 0x5800.01 (R421). -/
def State.frOn (s : State) : Bool := bit (s.od 0x5800 1) 0

/-- Bandwidth of a code in Hz. -/
def bwHz (bw : Nat) : Nat := 200000 * 2 ^ bw

/-- Reflected-binary code of a shift's bits (R394), and its inverse on w bits. -/
def gray (b : Nat) : Nat := Nat.xor b (b / 2)
def ungray (w k : Nat) : Nat := (List.range w).foldl (fun a i => Nat.xor a (k / 2 ^ i)) 0 % 2 ^ w

/-- R of a code-rate code (R397). -/
def rateOf (cr : Nat) : Nat := cr + 2

/-- Data symbols of a frame: E / m with E = m x ceil(A R / m), A = 8 x payload bytes (R397). -/
def symbolsOf (m len cr : Nat) : Nat := (8 * len * rateOf cr + m - 1) / m

/-- Duration of a frame in timebase units (R395). -/
def frameTime (m bw s : Nat) : Int := ((10 + s + (s - 1) / 8) * 2 ^ m * 1000000000 * 2 ^ 32 : Nat) / (bwHz bw : Int)

/-- m bits, the earliest the most significant. -/
def bitsVal (l : List Bool) : Nat := l.foldl (fun a b => 2 * a + b2n b) 0

/-- Groups of n. -/
def groupsOf {α : Type} (n : Nat) (l : List α) : List (List α) :=
  (List.range ((l.length + n - 1) / n)).map (fun i => (l.drop (n * i)).take n)

/-- The chirps of a frame: up-chirps by their shift, a down-chirp as N (R394, R395). -/
def chirpsOf (m : Nat) (coded : List Bool) : List Nat :=
  let n := 2 ^ m
  let data := (groupsOf m coded).map (fun g => gray (bitsVal g))
  let groups := groupsOf 8 data
  [0, n / 2, 0, n / 2, 0, n / 2, 0, n / 2, n, n] ++
    ((List.range groups.length).map (fun i =>
      groups.getD i [] ++ (if i + 1 < groups.length then [n] else []))).flatten

/-- The bits of a payload, most significant bit of byte 0 first (log 61). -/
def payloadBits (w len : Nat) : List Bool :=
  (List.range (8 * len)).map (fun i => w.testBit (8 * (i / 8) + (7 - i % 8)))
/-- The payload of decoded bits. -/
def bitsPayload (l : List Bool) (len : Nat) : Nat :=
  ((List.range (8 * len)).map (fun i => if l.getD i false then 2 ^ (8 * (i / 8) + (7 - i % 8)) else 0)).sum

/-! ### The drift ledger (R413) -/

/-- Address of ledger entry i. -/
def State.ledgerAddr (s : State) (i : Nat) : Nat := s.od 0x5800 5 + 64 * i
/-- Ledger entry i. -/
def State.ledger (s : State) (i : Nat) : Nat := s.rd (s.ledgerAddr i) 64
/-- The state with ledger entry i replaced. -/
def State.setLedger (s : State) (i w : Nat) : State := s.wr (s.ledgerAddr i) 64 w

def lgAddr (w : Nat) : Nat := bits w 511 480
def lgWake (w : Nat) : Nat := bits w 479 384
def lgPeriod (w : Nat) : Nat := bits w 383 320
def lgGuard (w : Nat) : Nat := bits w 319 288
def lgDrift (w : Nat) : Int := sbits w 287 256
def lgHeard (w : Nat) : Nat := bits w 255 160
def lgEpoch (w : Nat) : Nat := bits w 159 136
def lgMiss (w : Nat) : Nat := bits w 135 128
def lgM (w : Nat) : Nat := bits w 127 124
def lgBw (w : Nat) : Nat := bits w 123 122
def lgCr (w : Nat) : Nat := bits w 121 120
def lgLen (w : Nat) : Nat := bits w 119 114
def lgGroup (w : Nat) : Nat := bits w 113 107
def lgState (w : Nat) : Nat := bits w 1 0

/-- The ledger entry of a node address, scheduled or in re-acquisition. -/
def State.nodeOf (s : State) (addr : Nat) : Option Nat :=
  (List.range (s.od 0x5800 6)).find? (fun i =>
    lgAddr (s.ledger i) == addr && (lgState (s.ledger i) == 1 || lgState (s.ledger i) == 2))

/-- Whether any node is in re-acquisition (R417). -/
def State.anyLost (s : State) : Bool := (List.range (s.od 0x5800 6)).any (fun i => lgState (s.ledger i) == 2)

/-- Payload bytes, code rate of the frame that is in reception: of the node's entry, or of JOIN (table "Frame
classes"). -/
def State.frameForm (s : State) (node : Option Nat) : Nat × Nat :=
  match node with
  | some i => (lgLen (s.ledger i) + 1, lgCr (s.ledger i))
  | none => (8, 1)

/-- Node i lost (R417): re-acquisition and its notice. -/
def State.loseNode (s : State) (i : Nat) : State :=
  (s.setLedger i (setBits (s.ledger i) 1 0 2)).warn 0x0120 (some 0) 0 0 (lgAddr (s.ledger i))

/-- A combine group's site j, 0xFFFF where unused. -/
def State.siteOf (s : State) (group j : Nat) : Nat := bits (s.od 0x5810 group) (16 * j + 15) (16 * j)

/-- This site's index in a group, 0 where it has none. -/
def State.siteIndex (s : State) (group : Nat) : Nat :=
  if group = 0 then 0 else ((List.range 8).find? (fun j => s.siteOf group j == s.nodeId)).getD 0

/-! ### Frames in reception (R399 to R402, R409) -/

/-- The frame of m and B in reception. -/
def State.rxOf (s : State) (m bw : Nat) : Option Rx := s.fr.rx.find? (fun r => r.m == m && r.bw == bw)

/-- The state with that frame changed. -/
def State.modRx (s : State) (m bw : Nat) (f : Rx → Rx) : State :=
  { s with fr := { s.fr with rx := s.fr.rx.map (fun r => if r.m = m ∧ r.bw = bw then f r else r) } }

/-- Whether four bins alternate by N/2, each within 1 of its place (R399). -/
def alternates (n : Nat) (l : List Nat) : Bool :=
  (List.range 3).any (fun d =>
    let base := l.headD 0 + n + d - 1
    (List.range l.length).all (fun i =>
      let x := (nth l i + 2 * n + 1 - (base + i % 2 * (n / 2)) % n) % n
      decide (x ≤ 2)))

/-- The ledger place of an open receive window for m and B, or JOIN listening; none where neither names them (R399). -/
def State.listens (s : State) (m bw : Nat) : Option (Option Nat) :=
  match s.fr.windows.find? (fun w => lgM (s.ledger w.node) == m && lgBw (s.ledger w.node) == bw &&
      decide (w.opens ≤ (s.time.now : Int) ∧ (s.time.now : Int) ≤ w.closes)) with
  | some w => some (some w.node)
  | none => if m = 12 ∧ bw = 0 then some none else none

/-- Whether the AGC is frozen (R409). -/
def State.agcFrozen (s : State) : Bool := !s.fr.rx.isEmpty || s.fr.txEn

/-- FRAME_DETECT (R399, R400, R409). -/
def execFrameDetect (m bw : Nat) (shifts : List Nat) (start : Nat) (s : State) : Host.Outcome State Fault Refusal :=
  .next (match s.listens m bw with
    | none => s
    | some node =>
      if ¬ s.frOn ∨ s.fr.txEn ∨ ¬ s.fr.jesdUp ∨ shifts.length ≠ 4 ∨ ¬ alternates (2 ^ m) shifts then s
      else if (s.rxOf m bw).isSome then s.countDev 0x030 (some 0)
      else if 4 ≤ s.fr.rx.length ∨ s.fr.rx.any (fun r => r.m == m) then s
      else { s with fr := { s.fr with
        rx := s.fr.rx ++ [⟨m, bw, start, false, node, 0, 0, [], 0, true⟩] } })

/-- A bin in eighths, modulo 8N, as a signed offset. -/
def signedBin (n : Nat) (b : Int) : Int :=
  let r := b % (8 * n)
  if r < 4 * n then r else r - 8 * n

/-! ### Transmission (R411, R412) -/

/-- A frame leaves: the receiver's enable falls, the transmitter's rises, the chirps go out (R411). -/
def State.sendFrame (s : State) (m bw : Nat) (coded : List Bool) : State :=
  ({ s with fr := { s.fr with txBusy := true, txEn := true, rxEn := false } }).emit (.chirps m bw (chirpsOf m coded))

/-- M, BW of a transmit request: a beacon's own, a downlink's from the ledger; none where it is BAD. -/
def State.txForm (s : State) (e : Nat) : Option (Nat × Nat) :=
  let len := bits e 375 370
  if bits e 263 0 ≠ 0 ∨ bits e 377 376 = 3 ∨ len < 2 then none
  else if bits e 369 368 = 0 then
    (if bits e 415 384 = 0 ∧ 6 ≤ bits e 383 380 ∧ bits e 383 380 ≤ 14 then some (bits e 383 380, bits e 379 378)
     else none)
  else if bits e 369 368 = 1 then
    match s.nodeOf (bits e 415 384) with
    | some i =>
      if lgState (s.ledger i) = 1 ∧ bits e 383 378 = 0 then some (lgM (s.ledger i), lgBw (s.ledger i)) else none
    | none => none
  else none

/-- STATUS and SENT written into the host's entry at `addr`. -/
def State.txStatus (s : State) (addr e status sent : Nat) : State :=
  (s.emit (.hostWrite 0 0x2820 addr 128 (setBits (setBits e 367 360 status) 359 264 sent))).emit
    (.frTxStatus status sent)

/-- A request sent now (R395, R397, R411). -/
def State.sendEntry (s : State) (addr e : Nat) : State :=
  match s.txForm e with
  | none => s.txStatus addr e 2 0
  | some f =>
    let len := bits e 375 370 + 1
    let n := f.1 * symbolsOf f.1 len (bits e 377 376)
    (s.sendFrame f.1 f.2 (Config.uciEncode (8 * len) n (payloadBits (bits e 1023 512) len))).txStatus addr e 0 s.stamp

/-- A deferred transmission starts once no frame is in reception and the port is free (R412). -/
def State.sendDeferred (s : State) : State :=
  if s.fr.rx.isEmpty ∧ ¬ s.fr.txBusy then
    match s.fr.deferred with
    | [] => s
    | x :: t => ({ s with fr := { s.fr with deferred := t } }).sendEntry x.1 x.2
  else s

/-- The frame of m and B leaves reception (R409, R412). -/
def State.dropRx (s : State) (m bw : Nat) : State :=
  ({ s with fr := { s.fr with rx := s.fr.rx.filter (fun r => !(r.m == m && r.bw == bw)) } }).sendDeferred

/-- FR_TRANSMIT (R411, R412, table "FR_TX entry"): the next entry of the FR_TX ring, at its START. -/
def execFrTransmit (e : FrTx) (s : State) : Host.Outcome State Fault Refusal :=
  let w := e.toNat
  let r := s.ring 0 0x2820
  let addr := r.base + r.cons % 2 ^ r.log2n * 128
  let start := bits w 511 416
  .next (if ¬ r.enable ∨ r.count = 0 then s
    else
      let s1 := s.setRing 0 0x2820 { r with cons := (r.cons + 1) % 2 ^ 32 }
      if ¬ s.frOn then s1.txStatus addr w 3 0
      else if s.txForm w = none then s1.txStatus addr w 2 0
      else if s.stamp < start then s
      else if start ≠ 0 ∧ start < s.stamp then s1.txStatus addr w 1 0
      else if ¬ s.fr.rx.isEmpty then
        ({ s1 with fr := { s1.fr with deferred := s1.fr.deferred ++ [(addr, w)] } }).countDev 0x034 (some 0)
      else if s.fr.txBusy then s
      else s1.sendEntry addr w)

/-- FR_TX_TAIL_END (R411): the transmitter's enable has fallen, the receiver's rises again. -/
def execFrTxTailEnd (s : State) : Host.Outcome State Fault Refusal :=
  .next (if s.fr.txBusy then
    ({ s with fr := { s.fr with txBusy := false, txEn := false, rxEn := s.frOn } }).sendDeferred else s)

/-- FRAME_CONFIRM (R399): the rest of the preamble and both down-chirps, bins in eighths; up = f - t, down = f + t. A frame
not confirmed is not received. -/
def execFrameConfirm (m bw : Nat) (shifts downs : List Nat) (s : State) : Host.Outcome State Fault Refusal :=
  let n := 2 ^ m
  let up := signedBin n (shifts.headD 0)
  let dn := signedBin n (downs.headD 0)
  let f := (up + dn + 1) / 2
  .next (match s.rxOf m bw with
    | none => s
    | some r =>
      if r.confirmed then s
      else if shifts.length = 4 ∧ alternates n (shifts.map (fun x => (x + 4) / 8 % n)) ∧ downs.length = 2 ∧
          -(n : Int) ≤ f ∧ f ≤ n then
        s.modRx m bw (fun r => { r with confirmed := true, freq := f, time := (dn - up + 1) / 2 })
      else s.dropRx m bw)

/-! ### Soft symbol records (R401 to R405) -/

/-- A bin put into a list of the nine best: descending metric, lower bin first (R403). -/
def putBest (x : Nat × Int) : List (Nat × Int) → List (Nat × Int)
  | [] => [x]
  | y :: t => if y.2 < x.2 ∨ (y.2 = x.2 ∧ x.1 < y.1) then x :: y :: t else y :: putBest x t

/-- The n best of a list of metrics. -/
def best (n : Nat) (l : List Int) : List (Nat × Int) :=
  ((List.range l.length).zip l).foldl (fun a x => (putBest x a).take n) []

/-- A record from the metrics of the N bins (R403). -/
def softRecord (src site idx : Nat) (metrics : List Int) : Nat :=
  let b := best 9 metrics
  enc 8 (b.getD 8 (0, 0)).2 * 2 ^ 224 +
    ((List.range 8).map (fun q => ((b.getD q (0, 0)).1 % 65536 + enc 8 (b.getD q (0, 0)).2 * 65536) * 2 ^ (24 * q + 32))).sum +
    site % 256 * 2 ^ 24 + idx % 4096 * 2 ^ 12 + src % 4096

/-- Metrics of the classical demodulator (R404); where N0 is 0 they are free values. -/
def classicMetrics (free : Nat) (l : List Nat) : List Int :=
  let total := l.sum
  let top := ((best 8 (l.map Int.ofNat)).map (·.2)).sum
  let rest : Int := (total : Int) - top
  let n : Int := (l.length : Int) - 8
  if rest ≤ 0 then (List.range l.length).map (fun k => sext 8 (Config.freeNat (free + k)))
  else l.map (fun e => clampI (-128) 127 (roundDiv (4 * ((e : Int) * n - rest)) rest.toNat))

/-- SYMBOL_DEMOD (R401, R403 to R405, R409): the record of the next data symbol of a confirmed frame. -/
def execSymbolDemod (m bw : Nat) (energies : List Nat) (clipped total : Nat) (s : State) :
    Host.Outcome State Fault Refusal :=
  .next (match s.rxOf m bw with
    | none => s
    | some r =>
      if ¬ r.confirmed then s
      else
        let group := match r.node with | some i => lgGroup (s.ledger i) | none => 0
        let site := s.siteIndex group
        let rec_ := softRecord s.nodeId site r.recs.length
        let classic := rec_ (classicMetrics s.free energies)
        let learned := bit (s.od 0x5800 1) 24
        let x := if learned then
            rec_ ((List.range energies.length).map (fun k => clampI (-128) 127 (Config.learnedMetric energies k)))
          else classic
        let s1 := { s with free := s.free + energies.length }
        let s2 := s1.modRx m bw (fun r => { r with
          recs := r.recs ++ [x], classic := classic, learnedAll := r.learnedAll && learned })
        if total < 100 * clipped then s2.countDev 0x033 (some 0) else s2)

/-- FR_LEARNED_LATE (R405): the last record replaced by the classical one. -/
def execFrLearnedLate (m bw : Nat) (s : State) : Host.Outcome State Fault Refusal :=
  .next (match s.rxOf m bw with
    | none => s
    | some r =>
      if bit (s.od 0x5800 1) 24 ∧ r.recs ≠ [] then
        (s.modRx m bw (fun r => { r with recs := r.recs.dropLast ++ [r.classic], learnedAll := false })).countDev 0x032
          (some 0)
      else s)

/-- PILOT_TRACK (R402): a pilot within 1 bin corrects the tracking, one beyond ends the frame as lost. -/
def execPilotTrack (m bw : Nat) (freqEighths timeEighths : Int) (s : State) : Host.Outcome State Fault Refusal :=
  .next (match s.rxOf m bw with
    | none => s
    | some r =>
      if ¬ r.confirmed then s
      else if 8 < (freqEighths + timeEighths).natAbs then (s.dropRx m bw).countDev 0x031 (some 0)
      else s.modRx m bw (fun r => { r with freq := r.freq + freqEighths, time := r.time + timeEighths }))

/-! ### Decoding (R397, R406, R418) -/

/-- A record's metric of bin k: of its candidate, else its FLOOR. -/
def recMetric (w k : Nat) : Int :=
  match (List.range 8).find? (fun q => bits w (24 * q + 47) (24 * q + 32) == k) with
  | some q => sbits w (24 * q + 55) (24 * q + 48)
  | none => sbits w 231 224

/-- M(k) of a symbol from its records (R406). -/
def combined (recs : List Nat) (k : Nat) : Int := (recs.map (fun w => recMetric w k)).sum

/-- The largest of a list of integers. -/
def maxInt : List Int → Int
  | [] => 0
  | x :: t => t.foldl max x

/-- The m LLRs of a symbol, the earliest bit first (R394, R406); 0 where no record came (R418). -/
def symbolLlrs (m : Nat) (recs : List Nat) : List Int :=
  if recs.isEmpty then List.replicate m 0
  else
    let ms := (List.range (2 ^ m)).map (fun k => (ungray m k, combined recs k))
    (List.range m).map (fun i =>
      let one := (ms.filter (fun e => e.1.testBit (m - 1 - i))).map (·.2)
      let zero := (ms.filter (fun e => !e.1.testBit (m - 1 - i))).map (·.2)
      clampI (-127) 127 (maxInt zero - maxInt one))

/-- Records of one symbol. -/
def recsAt (recs : List Nat) (j : Nat) : List Nat := recs.filter (fun w => bits w 23 12 == j)

/-- The LLRs of a frame of n symbols. -/
def frameLlrs (m n : Nat) (recs : List Nat) : List Int :=
  ((List.range n).map (fun j => symbolLlrs m (recsAt recs j))).flatten

/-- Sites that sent records. -/
def sitesIn (recs : List Nat) : Nat := (recs.map (fun w => bits w 11 0)).dedup.length

/-- A frame decoded and delivered in the FR_RX ring; a full or disabled ring drops it (R503, R509). SNR is not stated: a
free value (log 62). -/
def State.deliver (s : State) (recs : List Nat) (m bw : Nat) (node : Option Nat) (arrival : Nat) (learned : Bool) : State :=
  let form := s.frameForm node
  let n := symbolsOf m form.1 form.2
  let b := Config.polarDecode (8 * form.1) (frameLlrs m n recs)
  let f := s.takeFree
  let addr := match node with | some i => lgAddr (s.ledger i) | none => 0
  let e := bitsPayload b form.1 * 2 ^ 512 + arrival % 2 ^ 96 * 2 ^ 416 + addr * 2 ^ 384 + m * 2 ^ 380 + bw * 2 ^ 378 +
    (if node.isSome then 2 else 3) * 2 ^ 376 + (form.1 - 1) * 2 ^ 370 + b2n (Config.crcOk b) * 2 ^ 369 +
    b2n learned * 2 ^ 368 + (sitesIn recs - 1) % 8 * 2 ^ 365 + f.1 % 256 * 2 ^ 357 + 2 ^ 356
  match f.2.ringPut 0 0x2840 128 e false with
  | some s1 => s1
  | none => f.2.countDev 0x054 (some 0)

/-- Records taken by the home site for a frame: duplicates discarded and counted (R418). -/
def State.takeRecord (s : State) (addr epoch w : Nat) : State :=
  match s.fr.combines.find? (fun c => c.addr == addr && c.epoch == epoch) with
  | none => { s with fr := { s.fr with combines := s.fr.combines ++ [⟨addr, epoch, [w], none, false, false⟩] } }
  | some c =>
    if c.closed ∨ c.recs.any (fun x => bits x 23 0 == bits w 23 0) then s.countDev 0x036 (some 0)
    else { s with fr := { s.fr with combines := s.fr.combines.map (fun d =>
      if d.addr = addr ∧ d.epoch = epoch then { d with recs := d.recs ++ [w] } else d) } }

/-- FRAME_END (R406, R409, R418): the last data symbol has come. The frame is decoded here, or its records go to the home
site of the node's group. -/
def execFrameEnd (m bw : Nat) (s : State) : Host.Outcome State Fault Refusal :=
  .next (match s.rxOf m bw with
    | none => s
    | some r =>
      if ¬ r.confirmed then s
      else
        match r.node with
        | none => (s.dropRx m bw).deliver r.recs m bw none r.start r.learnedAll
        | some i =>
          let e := s.ledger i
          let g := lgGroup e
          if g = 0 ∨ 64 < g then (s.dropRx m bw).deliver r.recs m bw (some i) r.start r.learnedAll
          else if s.siteOf g 0 = s.nodeId then
            let s1 := r.recs.foldl (fun st w => st.takeRecord (lgAddr e) (lgEpoch e) w) (s.dropRx m bw)
            { s1 with fr := { s1.fr with combines := s1.fr.combines.map (fun d =>
              if d.addr = lgAddr e ∧ d.epoch = lgEpoch e then
                { d with arrival := some r.start, learned := r.learnedAll } else d) } }
          else
            r.recs.foldl (fun st w => st.emit (.frRecord (s.siteOf g 0) (lgAddr e) (lgEpoch e) w)) (s.dropRx m bw))

/-- FRAME_TIMEOUT (R409). -/
def execFrameTimeout (m bw : Nat) (s : State) : Host.Outcome State Fault Refusal :=
  .next (if (s.rxOf m bw).isSome then (s.dropRx m bw).countDev 0x035 (some 0) else s)

/-- COMBINE_RECORD (R418): a record of another site for a node whose home site this is. -/
def execCombineRecord (addr : BitVec 32) (epoch : BitVec 24) (r : BitVec 256) (s : State) :
    Host.Outcome State Fault Refusal :=
  .next (match s.nodeOf addr.toNat with
    | none => s.countDev 0x036 (some 0)
    | some i =>
      let g := lgGroup (s.ledger i)
      if g = 0 ∨ 64 < g ∨ s.siteOf g 0 ≠ s.nodeId then s.countDev 0x036 (some 0)
      else s.takeRecord addr.toNat epoch.toNat r.toNat)

/-- COMBINE_WAIT (R418): the records received are combined. The arrival and LEARNED of a frame that this site did not
receive are free values (log 62). -/
def execCombineWait (addr : BitVec 32) (epoch : BitVec 24) (s : State) : Host.Outcome State Fault Refusal :=
  .next (match s.fr.combines.find? (fun c => c.addr == addr.toNat && c.epoch == epoch.toNat && !c.closed) with
    | none => s
    | some c =>
      match s.nodeOf addr.toNat with
      | none => s
      | some i =>
        let f := s.takeFree
        let e := s.ledger i
        let s1 := { f.2 with fr := { s.fr with combines := s.fr.combines.map (fun (d : Combine) =>
          if d.addr = addr.toNat ∧ d.epoch = epoch.toNat then { d with closed := true } else d) } }
        s1.deliver c.recs (lgM e) (lgBw e) (some i) (c.arrival.getD (f.1 % 2 ^ 96))
          (if c.arrival.isSome ∧ sitesIn c.recs = 1 then c.learned else f.1.testBit 96))

/-! ### Gain control and noise floor (R407 to R410) -/

/-- AGC_UPDATE (R407 to R409): the mean power of the last 500 ns, in units of 2^-16 dBFS. -/
def execAgcUpdate (powerQ : Int) (s : State) : Host.Outcome State Fault Refusal :=
  let d := powerQ - sext 16 (s.od 0x5800 2) * 2 ^ 14
  let g := s.fr.gain
  let n := min 200 (s.fr.since + 1)
  .next (if ¬ s.frOn then s
    else if s.agcFrozen then { s with fr := { s.fr with since := n } }
    else if 3 * 2 ^ 16 < d then
      { s with fr := { s.fr with gain := g - min 6 ((d + 65535) / 65536).toNat, since := n } }
    else if d < -(6 * 2 ^ 16) ∧ 200 ≤ n then { s with fr := { s.fr with gain := min 63 (g + 1), since := 0 } }
    else { s with fr := { s.fr with since := n } })

/-- NOISE_FLOOR_UPDATE (R410): `samples` of the 1,600 kHz stream that count, and their mean power at gain code 0 in units
of 2^-16 dBFS. -/
def execNoiseFloorUpdate (samples : Nat) (meanQ : Int) (s : State) : Host.Outcome State Fault Refusal :=
  .next (if samples < 32000 then s.setOd 0x5801 2 1
    else (s.setOd 0x5801 1 (enc 16 (roundDiv meanQ 16384))).setOd 0x5801 2 0)

/-! ### Sleeping nodes (R414 to R417) -/

/-- The state of node i's window: its expected drift error and half-width, in units of 10^-9 timebase units (R414). -/
def halfWidth (w : Nat) : Int × Int :=
  let g : Int := (lgGuard w : Int) * usUnits * 1000000000
  (g, g + (lgDrift w).natAbs * ((ofTime96 (lgWake w) : Int) - ofTime96 (lgHeard w)))

/-- NODE_OCCURRENCE (R414): a receive window for a scheduled node from t - H on, or re-acquisition. -/
def execNodeOccurrence (i : Nat) (s : State) : Host.Outcome State Fault Refusal :=
  let w := s.ledger i
  let t : Int := ofTime96 (lgWake w)
  let h := halfWidth w
  .next (if ¬ s.frOn ∨ s.od 0x5800 6 ≤ i ∨ lgState w ≠ 1 ∨ s.fr.windows.any (fun x => x.node == i) then s
    else if 8 * h.1 < h.2 then (if t ≤ s.time.now then s.loseNode i else s)
    else
      let hw := h.2 / 1000000000
      if t - hw ≤ s.time.now then
        { s with fr := { s.fr with windows := s.fr.windows ++
          [⟨i, t - hw, t + hw + frameTime (lgM w) (lgBw w) (symbolsOf (lgM w) (lgLen w + 1) (lgCr w)), false⟩] } }
      else s)

/-- The new drift of R415; a free value where it is not defined or leaves I32 (log 62). -/
def newDrift (free w : Nat) (arrival : Nat) : Nat :=
  let t : Int := ofTime96 (lgWake w)
  let span : Int := t - ofTime96 (lgHeard w)
  let delta : Int := (ofTime96 arrival : Int) - t
  let dm := if span < 0 then roundDiv (-(delta * 1000000000)) (-span).toNat else roundDiv (delta * 1000000000) span.toNat
  let d := lgDrift w + roundDiv (dm - lgDrift w) 4
  if span = 0 ∨ d < -(2 ^ 31) ∨ 2 ^ 31 ≤ d then free % 2 ^ 32 else enc 32 d

/-- NODE_HEARD (R415). -/
def execNodeHeard (i arrival : Nat) (s : State) : Host.Outcome State Fault Refusal :=
  .next (if s.fr.windows.any (fun x => x.node == i) then
    let f := s.takeFree
    let w := s.ledger i
    let w1 := setBits (setBits (setBits w 287 256 (newDrift f.1 w arrival)) 135 128 0) 255 160 arrival
    let s1 := f.2.setLedger i w1
    { s1 with fr := { s1.fr with windows := s1.fr.windows.map (fun x =>
      if x.node = i then { x with heard := true } else x) } }
  else s)

/-- A TIME96 value some nanoseconds later. -/
def addNs (t ns : Nat) : Nat := toTime96 (ofTime96 t + ns * 2 ^ 32)

/-- OCCURRENCE_END (R416, R417): the window closes. -/
def execOccurrenceEnd (i : Nat) (s : State) : Host.Outcome State Fault Refusal :=
  .next (match s.fr.windows.find? (fun x => x.node == i) with
    | none => s
    | some x =>
      if (s.time.now : Int) < x.closes then s
      else
        let w := s.ledger i
        let miss := lgMiss w + 1
        let w1 := setBits (setBits w 479 384 (addNs (lgWake w) (lgPeriod w))) 159 136 (lgEpoch w + 1)
        let s1 := { s with fr := { s.fr with windows := s.fr.windows.filter (fun y => y.node != i) } }
        if x.heard then s1.setLedger i w1
        else
          let s2 := s1.setLedger i (setBits w1 135 128 (min 255 miss))
          if s.od 0x5800 3 ≤ miss then s2.loseNode i else s2)

/-- BEACON (R417): while any node is in re-acquisition. What a beacon that no host request names carries is a free value
(log 63). -/
def execBeacon (s : State) : Host.Outcome State Fault Refusal :=
  .next (if s.frOn ∧ s.anyLost ∧ s.fr.rx.isEmpty ∧ ¬ s.fr.txBusy then
    let f := s.takeFree
    let m := 6 + f.1 % 9
    let len := 3 + f.1 / 36 % 62
    f.2.sendFrame m (f.1 / 9 % 4) (Config.uciEncode (8 * len) (m * symbolsOf m len (f.1 / 2304 % 3)) (payloadBits (f.1 / 8192) len))
  else s)

/-- JOIN_FRAME (R417). -/
def execJoinFrame (addr : BitVec 32) (arrival : Nat) (s : State) : Host.Outcome State Fault Refusal :=
  .next (if (List.range (s.od 0x5800 6)).any (fun i => lgState (s.ledger i) == 2 && lgAddr (s.ledger i) == addr.toNat) then
    s.raiseAt arrival ⟨0, 0x0121, some 0, 0, 0, 0, 0, addr.toNat⟩ else s)

/-! ### Converter port (R398, R419, R420) -/

/-- CONVERTER (R398, R420): a half of a signal core's receive ring, from samples in units of 2^-16 of I16, and its
stamp. -/
def execConverter (g : SigId) (first : Nat) (samples : List (Int × Int)) (s : State) : Host.Outcome State Fault Refusal :=
  .next (if ¬ s.frOn ∨ ¬ s.fr.jesdUp then s
    else
      let st := samples.map (fun z => (storeInt 16 (.num z.1 65536 false), storeInt 16 (.num z.2 65536 false)))
      let half := sget s.fr.ringHalf zeroD g.val
      let v := st.foldr (fun e n => e.1.code + 65536 * e.2.code + 2 ^ 32 * n) 0
      let n := 4 * samples.length
      let s1 := s.wr (sigBase g.val + (Config.ringBase g.val + half * n) % 2 ^ 18) n v
      let lat := sext 32 (s.od 0x5800 0x0A) * nsUnits
      let s2 := s1.wr (sigBase g.val + Config.ringStamp g.val half % 2 ^ 18) 12
        (toTime96 ((ofTime96 first : Int) - lat).toNat)
      let c := s2.sig g
      let s3 := s2.setSig g { c with flags := c.flags.join (Flags.joinAll (st.map (fun e => e.1.fl.join e.2.fl))) }
      ({ s3 with fr := { s3.fr with ringHalf := sput s3.fr.ringHalf zeroD g.val (1 - half) } }).sigRaise g 3)

/-- FR_JESD (R419). -/
def execFrJesd (lockLost : Bool) (crcErrors : Nat) (s : State) : Host.Outcome State Fault Refusal :=
  .next (if s.frOn ∧ (lockLost ∨ 16 < crcErrors) then
    ({ s with fr := { s.fr with txEn := false, rx := [], jesdUp := false } }).warn 0x0122 (some 0) 0 0 0 else s)

/-- SYSREF_EDGE (R419, R474): captured; the port aligns to it. -/
def execSysrefEdge (s : State) : Host.Outcome State Fault Refusal :=
  .next { s with
    time := { s.time with lastSysref := s.stamp }
    fr := { s.fr with jesdUp := s.fr.jesdUp || s.frOn } }

end Sys2Proof.Machine
end

