-- ==== Sys2Proof/Machine/Wire.lean ====
section
/-! DEFINITION. Frames of published standards as bytes on the wire (R7): a frame is a number whose byte i is the i-th byte
sent, and its fields are read and written most significant byte first. The places of the fields are those of Ethernet and
IEEE 802.1Q, IPv4, IPv6, UDP, IEEE 1588-2019 and eCPRI 2.0, which the spec cites and does not repeat: PRESUMED (log 157). -/

namespace Sys2Proof.Machine

/-- Byte i of a frame. -/
def wireByte (w i : Nat) : Nat := w / 256 ^ i % 256

/-- The n-byte field at byte i, most significant byte first (R7). -/
def wireField (w i n : Nat) : Nat := (List.range n).foldl (fun a k => 256 * a + wireByte w (i + k)) 0

/-- A value of n bytes as it goes out, its most significant byte first (R7). -/
def wireOrder (n v : Nat) : Nat := wireField v 0 n

/-- The n-byte field at byte i replaced. -/
def setWire (w i n v : Nat) : Nat := setBits w (8 * (i + n) - 1) (8 * i) (wireOrder n (v % 256 ^ n))

/-- VLAN tags from byte i on, at most n of them (IEEE 802.1Q). -/
def tagsFrom (w i : Nat) : Nat → Nat
  | 0 => 0
  | n + 1 =>
    if wireField w i 2 = 0x8100 ∨ wireField w i 2 = 0x88A8 then 1 + tagsFrom w (i + 4) n else 0

/-- VLAN tags of a frame, counted to three. -/
def wireTags (w : Nat) : Nat := tagsFrom w 12 3

/-- The Ethertype behind the tags. -/
def wireEtherType (w : Nat) : Nat := wireField w (12 + 4 * wireTags w) 2

/-- The first byte behind the Ethertype. -/
def wireBody (w : Nat) : Nat := 14 + 4 * wireTags w

/-- 4 or 6 where the frame carries IPv4 or IPv6, else 0. -/
def wireIp (w : Nat) : Nat := if wireEtherType w = 0x0800 then 4 else if wireEtherType w = 0x86DD then 6 else 0

/-- Where the UDP header stands, if the frame has one; IPv6 without extension headers. -/
def wireUdp (w : Nat) : Option Nat :=
  if wireIp w = 4 ∧ wireByte w (wireBody w + 9) = 17 then some (wireBody w + 4 * (wireByte w (wireBody w) % 16))
  else if wireIp w = 6 ∧ wireByte w (wireBody w + 6) = 17 then some (wireBody w + 40)
  else none

/-- The UDP destination port, 0 without UDP. -/
def wireUdpDst (w : Nat) : Nat := (wireUdp w).elim 0 (fun u => wireField w (u + 2) 2)

/-- Where the PTP header stands: behind Ethertype 0x88F7, or in UDP to port 319 or 320 (R469). -/
def wirePtp (w : Nat) : Option Nat :=
  if wireEtherType w = 0x88F7 then some (wireBody w)
  else if wireUdpDst w = 319 ∨ wireUdpDst w = 320 then (wireUdp w).map (· + 8)
  else none

/-- The PTP messageType, 0xF without a PTP header. -/
def wirePtpType (w : Nat) : Nat := (wirePtp w).elim 0xF (fun p => wireByte w p % 16)

/-- Whether a frame is a PTP event message (R469). -/
def wirePtpEvent (w : Nat) : Bool :=
  decide (wirePtpType w ≤ 3) && ((wireEtherType w == 0x88F7 && decide (wireTags w ≤ 2)) || wireUdpDst w == 319)

/-- Whether a frame is any PTP message (R469). -/
def wirePtpAny (w : Nat) : Bool := wirePtpEvent w || wireEtherType w == 0x88F7 || wireUdpDst w == 320

/-- Revision, message type and eAxC ID of an eCPRI header (R364, R365). -/
def ecpriRevOf (h : Nat) : Nat := wireByte h 0 / 16
def ecpriTypeOf (h : Nat) : Nat := wireByte h 1
def ecpriEaxcOf (h : Nat) : Nat := wireField h 4 2

end Sys2Proof.Machine

namespace Sys2Proof

/-- The fields that the ingest unit reads in a frame's eCPRI header (R7, R364, R365). -/
def UFrame.rev (f : UFrame) : Nat := Machine.ecpriRevOf f.ecpri
def UFrame.msgType (f : UFrame) : Nat := Machine.ecpriTypeOf f.ecpri
def UFrame.eaxc (f : UFrame) : Nat := Machine.ecpriEaxcOf f.ecpri
def CFrame.rev (f : CFrame) : Nat := Machine.ecpriRevOf f.ecpri
def CFrame.msgType (f : CFrame) : Nat := Machine.ecpriTypeOf f.ecpri
def CFrame.eaxc (f : CFrame) : Nat := Machine.ecpriEaxcOf f.ecpri

/-- Whether a received frame is eCPRI: by its Ethertype, or UDP that the host's M-plane has set up for it (R364). -/
def PortFrame.isEcpri (f : PortFrame) : Bool :=
  Machine.wireEtherType f.content == 0xAEFE || (f.ecpriUdp && (Machine.wireUdp f.content).isSome)

/-- The headers of a received frame (R469). -/
def PortFrame.ipVersion (f : PortFrame) : Nat := Machine.wireIp f.content
def PortFrame.udpDst (f : PortFrame) : Nat := Machine.wireUdpDst f.content

/-- The PTP header of a frame to send: whether it is an event message, and its fields (R7, R473). -/
def PtpTx.hasPtp (t : PtpTx) : Bool := Machine.wirePtpEvent t.content
def PtpTx.ptpType (t : PtpTx) : Nat := Machine.wirePtpType t.content
def PtpTx.ptpAt (t : PtpTx) : Nat := (Machine.wirePtp t.content).getD 0
def PtpTx.origin (t : PtpTx) : Nat := Machine.wireField t.content (t.ptpAt + 34) 10
def PtpTx.correction (t : PtpTx) : Int := Machine.sext 64 (Machine.wireField t.content (t.ptpAt + 8) 8)

/-- The UDP checksum of a frame to send, 0 without UDP. -/
def PtpTx.checksum (t : PtpTx) : Nat := (Machine.wireUdp t.content).elim 0 (fun u => Machine.wireField t.content (u + 6) 2)

end Sys2Proof
end

