-- ==== Sys2Proof/Machine/Radio.lean ====
section
/-! DEFINITION. The radio cells: slots, fronthaul ingest, stage windows, slot results, the frozen-frame detector, code
engines and the downlink (R361 to R392, R509). -/

namespace Sys2Proof.Machine

/-! ### Cells -/

/-- Cell c. -/
def State.cell (s : State) (c : CellId) : CellSt := s.radio.cells[c.val]

/-- The state with cell c replaced. -/
def State.setCell (s : State) (c : CellId) (x : CellSt) : State :=
  { s with radio := { s.radio with cells := s.radio.cells.set c.val x } }

/-- The configuration of cell c (R362). -/
def State.cellCfg (s : State) (c : CellId) : Nat := s.od 0x5000 (c.val + 1)

/-- Numerology of a configuration. -/
def cfgMu (w : Nat) : Nat := bits w 4 3

/-- Whether stage k, from 0, of a cell is watched (R374). -/
def watched (cfg k : Nat) : Bool := !bit cfg 26 || k == 5

/-- The default windows in µs (table "Default stage windows"). -/
def windowDef (mu k : Nat) : Nat × Nat :=
  if mu = 3 then
    (nth [0, 5, 10, 12, 15, 18] k, nth [30, 80, 140, 160, 230, 250] k)
  else (nth [0, 10, 20, 25, 30, 35] k, nth [60, 200, 330, 360, 460, 500] k)

/-- EARLIEST and LATEST of stage k of cell c, in µs after T0 (R372). -/
def State.windowOf (s : State) (c : CellId) (k : Nat) : Nat × Nat :=
  let w := s.od 0x5010 (6 * c.val + k + 1)
  if w = 0 then windowDef (cfgMu (s.cellCfg c)) k else (bits w 15 0, bits w 31 16)

/-- This moment relative to T0 of a slot. -/
def State.sinceT0 (s : State) (c : CellId) (r : SlotRec) : Int :=
  (s.time.now : Int) - s.t0 (cfgMu (s.cellCfg c)) r.frame r.slot

/-- The payload of the slot notices: SFN, slot, stage from 1. -/
def slotPayload (f : Int) (slot stage : Nat) : Nat := sfn f * 2 ^ 22 + slot % 128 * 2 ^ 15 + stage

/-- Whether some cell is served. -/
def State.radioOn (s : State) : Bool := !s.power.stopped && s.radio.cells.toList.any (·.running)

/-- A source raised at every signal core: all belong to partition 0 (R328). -/
def State.raiseAll (s : State) (q : Nat) : State :=
  { s with sigs := Vector.ofFn (fun i : SigId => { s.sig i with ipend := (s.sig i).ipend ||| BitVec.ofNat 16 (2 ^ q) }) }

/-- The stream records of cell c's mapped antennas: their eAxC IDs (R365). -/
def State.mapIds (s : State) (c : CellId) : List Nat :=
  ((List.range 64).map (fun a => bits (s.od 0x5008 (c.val + 1)) (32 * a + 31) (32 * a))).filterMap (fun w =>
    if bit w 7 then some (bits w 31 16) else none)

/-- Whether a stream of the cell is frozen (R383). -/
def State.cellFrozen (s : State) (c : CellId) : Bool :=
  s.radio.streams.any (fun x => x.frozen && (s.mapIds c).contains x.eaxc)

/-- Reduced service (R555): canton 0 alone, one cell, the classical receiver. -/
def State.reduced (s : State) : Bool := s.power.level == 2 || s.power.level == 3

/-- Whether cell c may be served at the service level in force: in reduced service the lowest-numbered enabled cell alone, in
full service every one (R555). -/
def State.cellMayStart (s : State) (c : CellId) : Bool :=
  s.power.level == 4 || s.power.level == 5 ||
    (s.reduced && ([0, 1, 2] : List CellId).all (fun d => decide (c ≤ d) || !bit (s.cellCfg d) 0))

/-- Whether the first slot boundary at least 10 ms after the acknowledgement of the write that enabled cell c is reached; the
write is acknowledged once its persisted copy is whole (R363, R467, R485). -/
def State.cellDue (s : State) (c : CellId) : Bool :=
  let mu := cfgMu (s.cellCfg c)
  !s.host.persists.any (fun x => x.index == 0x5000 && x.sub == c.val + 1) &&
    match (s.cell c).enabledAt with
    | none => true
    | some t => decide ((t : Int) + 10000 * usUnits - gpsEpoch - s.frameOffset ≤ s.slotNow mu * slotLen mu)

/-- CELL_START (R363, R555): an enabled cell is served from the slot boundary at which it starts. -/
def execCellStart (c : CellId) (s : State) : Host.Outcome State Fault Refusal :=
  .next (if bit (s.cellCfg c) 0 ∧ ¬ (s.cell c).running ∧ s.cellMayStart c ∧ s.cellDue c then
    s.setCell c { CellSt.reset with running := true } else s)

/-- A slot that begins in cell c; in reduced service the classical receiver takes it from the start (R555). -/
def State.openSlot (s : State) (b : Int) (c : CellId) : State :=
  let x := s.cell c
  let n := slotsPerFrame (cfgMu (s.cellCfg c))
  if x.running ∧ ¬ x.stopping then
    s.setCell c { x with slots := x.slots ++
      [⟨b / n, (b % n).toNat, [], [], none, if s.reduced then 1 else 0, false, s.cellFrozen c, false⟩] }
  else s

/-- The numerology of the cells served. -/
def State.muNow (s : State) : Nat :=
  if (s.cell 0).running then cfgMu (s.cellCfg 0)
  else if (s.cell 1).running then cfgMu (s.cellCfg 1)
  else cfgMu (s.cellCfg 2)

/-- SLOT (R355, R464, R467): the boundary at which the slot of this moment begins; it fires once. -/
def execSlot (s : State) : Host.Outcome State Fault Refusal :=
  let b := s.slotNow s.muNow
  .next (if s.radioOn && (match s.radio.lastSlot with | some l => decide (l < b) | none => true) then
      let s1 := { s with radio := { s.radio with lastSlot := some b } }
      (([0, 1, 2] : List CellId).foldl (fun st c => st.openSlot b c) s1).raiseAll 0
    else s)

/-- SYMBOL (table "Interrupt sources"). -/
def execSymbol (s : State) : Host.Outcome State Fault Refusal := .next (if s.radioOn then s.raiseAll 1 else s)

/-! ### Fronthaul ingest (R364 to R368) -/

/-- The cell and signal core of a stream: the valid map entry of an enabled cell with its eAxC ID (R365). -/
def State.mapEntry (s : State) (eaxc : Nat) : Option (CellId × Nat) :=
  (([0, 1, 2] : List CellId).filter (fun c => bit (s.cellCfg c) 0)).findSome? (fun c =>
    ((List.range 64).map (fun a => bits (s.od 0x5008 (c.val + 1)) (32 * a + 31) (32 * a))).findSome? (fun w =>
      if bit w 7 ∧ bits w 31 16 = eaxc then some (c, bits w 12 8) else none))

/-- Whether a slot's S1 has completed or been declared late: its record says so, or is gone (R368). -/
def State.s1Over (s : State) (c : CellId) (f : Int) (j : Nat) : Bool :=
  match (s.cell c).slots.find? (fun r => r.frame == f && r.slot == j) with
  | some r => r.took.contains 0 || r.declared.isSome || r.reported
  | none =>
    match s.radio.lastSlot with
    | some l => decide (f * slotsPerFrame (cfgMu (s.cellCfg c)) + j < l)
    | none => false

/-- The PRBs of a section. -/
def prbRange (u : USection) : List Nat := (List.range u.prbs.length).map (fun i => u.start + i)

/-- A decompressed sample as CI16: mantissa x 2^exponent, saturated per part (R367). -/
def ci16 (e : Nat) (re im : Int) : Nat :=
  enc 16 (clampI (-32768) 32767 (re * 2 ^ e)) + 65536 * enc 16 (clampI (-32768) 32767 (im * 2 ^ e))

/-- One PRB written to the ingest core's memory in the program's layout: 24 mantissas as I16, and the exponent (R366). -/
def State.putPrb (s : State) (core base i : Nat) (p : Prb) : State :=
  let place := fun j => sigBase core + (base + Config.sectionOffset i j) % 2 ^ 18
  let s1 := (List.range 24).foldl (fun st j => st.wr (place j) 2 (enc 16 (p.mantissas.getD j 0))) s
  s1.wr (place 24) 1 (p.exponent % 16)

/-- The terms of a PRB in the detector's digest (R380), and whether a sample of it is not 0. -/
def prbTerms (eaxc n : Nat) (p : Prb) : Nat × Bool :=
  (List.range 12).foldl (fun a i =>
    let v := ci16 p.exponent (p.mantissas.getD (2 * i) 0) (p.mantissas.getD (2 * i + 1) 0)
    ((a.1 + term eaxc (12 * n + i) v) % 2 ^ 64, a.2 || v != 0)) (0, false)

/-- The detector's record of a stream's symbol number (R380). -/
def State.stream (s : State) (eaxc sym : Nat) : Stream :=
  (s.radio.streams.find? (fun x => x.eaxc == eaxc && x.symbol == sym)).getD ⟨eaxc, sym, 0, false, none, 0, false⟩

/-- The state with a detector record replaced. -/
def State.setStream (s : State) (x : Stream) : State :=
  { s with radio := { s.radio with
      streams := s.radio.streams.filter (fun y => !(y.eaxc == x.eaxc && y.symbol == x.symbol)) ++ [x] } }

/-- Whether a PRB of a stream's symbol has been received. -/
def State.hasPrb (s : State) (eaxc : Nat) (f : Int) (slot sym n : Nat) : Bool :=
  s.radio.received.any (fun x => x.eaxc == eaxc && x.frame == f && x.slot == slot && x.symbol == sym && x.prb == n)

/-- One section received (R366, R368, R380). -/
def State.section (s : State) (core : Nat) (f : UFrame) (u : USection) : State :=
  if ¬ (u.compMeth = 1 ∧ (u.iqWidth = 8 ∨ u.iqWidth = 9 ∨ u.iqWidth = 12 ∨ u.iqWidth = 14)) then
    s.countDev 0x022 (some 0)
  else if (prbRange u).any (fun n => s.hasPrb f.eaxc f.frame f.slot f.symbol n) then
    s.countDev 0x023 (some 0)
  else
    let s1 := ((List.range u.prbs.length).zip u.prbs).foldl (fun st e => st.putPrb core u.base e.1 e.2) s
    let s2 := { s1 with radio := { s1.radio with
      received := s1.radio.received ++
        ((prbRange u).zip u.prbs).map (fun (e : Nat × Prb) => PrbIn.mk f.eaxc f.frame f.slot f.symbol e.1 e.2) } }
    let d := ((prbRange u).zip u.prbs).foldl (fun a e =>
      let t := prbTerms f.eaxc e.1 e.2
      ((a.1 + t.1) % 2 ^ 64, a.2 || t.2)) (0, false)
    let x := s2.stream f.eaxc f.symbol
    s2.setStream { x with digest := (x.digest + d.1) % 2 ^ 64, nonEmpty := x.nonEmpty || d.2 }

/-- A detector record of a stream whose FROZEN ends. -/
def Stream.thaw (eaxc : Nat) (y : Stream) : Stream := if y.eaxc = eaxc then { y with frozen := false } else y

/-- A symbol's digest compared with that of its last non-empty occurrence (R380, R382, R383). -/
def State.compareDigest (s : State) (c : CellId) (eaxc sym : Nat) : State :=
  let x := s.stream eaxc sym
  let done := { x with digest := 0, nonEmpty := false }
  if ¬ x.nonEmpty then s.setStream done
  else
    let wasFrozen := s.radio.streams.any (fun y => y.eaxc == eaxc && y.frozen)
    if x.prev = some x.digest then
      let run := x.run + 1
      let s1 := s.setStream { done with run := run, frozen := x.frozen || decide (run = s.od 0x5020 1) }
      if run = s.od 0x5020 1 ∧ ¬ wasFrozen then
        let s2 := (s1.setOd 0x5020 2 ((s1.od 0x5020 2 + 1) % 2 ^ 32)).raise ⟨1, 0x0114, some 0, 5, c.val, 0, 0, eaxc⟩
        s2.setCell c { s2.cell c with slots := (s2.cell c).slots.map (fun r => { r with frozen := true }) }
      else s1
    else
      let s1 := s.setStream { done with prev := some x.digest, run := 1, frozen := false }
      if wasFrozen then
        ({ s1 with radio := { s1.radio with
            streams := s1.radio.streams.map (Stream.thaw eaxc) } }).raise
          ⟨0, 0x0115, some 0, 5, c.val, 0, 0, eaxc⟩
      else s1

/-- U_PLANE_FRAME (R364 to R368, R380 to R383). -/
def execUPlaneFrame (f : UFrame) (s : State) : Host.Outcome State Fault Refusal :=
  .next (if f.rev ≠ 1 ∨ f.msgType ≠ 0 then s.countDev 0x020 (some 0)
    else
      match s.mapEntry f.eaxc with
      | none => s.countDev 0x021 (some 0)
      | some (c, core) =>
        if s.s1Over c f.frame f.slot then s.countDev 0x024 (some 0)
        else
          let s1 := f.sections.foldl (fun st u => st.section core f u) s
          if f.last then
            let s2 := s1.compareDigest c f.eaxc f.symbol
            if h : core < 32 then s2.sigRaise ⟨core, h⟩ 2 else s2
          else s1)

/-- C_PLANE_FRAME (R364): sections of types 1 and 3 are accepted, PRACH among them; other frames are dropped and
counted. -/
def execCPlaneFrame (f : CFrame) (s : State) : Host.Outcome State Fault Refusal :=
  .next (if f.rev = 1 ∧ f.msgType = 2 ∧ (f.sectionType = 1 ∨ f.sectionType = 3) then
      s.emit (.cPlane f.eaxc (f.sectionType == 3 && decide (1 ≤ f.filterIndex ∧ f.filterIndex ≤ 6)))
    else s.countDev 0x020 (some 0))

/-! ### S1's output (R367 to R370) -/

/-- The power-of-two S8 codes, ascending: mantissa field 0. -/
def powerCodes : List Nat := (List.range 15).map (fun e => 8 * (e + 1))

/-- An element of a block with a power-of-two S8 code as I8 (R33, R37). -/
def s1Elem (s8 : Nat) (x : Int) : Stored := storeInt 8 (.num (x * (s8Val s8).2) (s8Val s8).1.toNat false)

/-- A block of S1's output (R369): the smallest power of two at which every element fits I8 after rounding, S8 0x00 where all are
0. Where none fits, the code is one of the powers of two and free (`f`; log 154). -/
def s1Block (f : Nat) (l : List Int) : Nat × List Nat :=
  if l.all (fun x => x == 0) then (0, l.map (fun _ => 0))
  else
    let s8 := (powerCodes.find? (fun c => l.all (fun x => !(s1Elem c x).fl.sat))).getD (8 * (1 + f % 15))
    (s8, l.map (fun x => (s1Elem s8 x).code))

/-- A list in blocks of 32. -/
def blocks32 (l : List Int) : List (List Int) := (List.range ((l.length + 31) / 32)).map (fun i => (l.drop (32 * i)).take 32)

/-- The stream of antenna a of cell c, none where its map entry is not valid (R365). -/
def State.antenna (s : State) (c : CellId) (a : Nat) : Option Nat :=
  let w := bits (s.od 0x5008 (c.val + 1)) (32 * a + 31) (32 * a)
  if bit w 7 then some (bits w 31 16) else none

/-- A part, 0 real or 1 imaginary, of a sample as S1 decompresses it: mantissa x 2^exponent saturated to I16; 0 where the PRB was
not received (R367, R368). -/
def State.samplePart (s : State) (id : Option Nat) (f : Int) (slot sym re part : Nat) : Int :=
  match s.radio.received.find? (fun x => some x.eaxc == id && x.frame == f && x.slot == slot && x.symbol == sym &&
      x.prb == re / 12) with
  | some x => clampI (-32768) 32767 (x.data.mantissas.getD (2 * (re % 12) + part) 0 * 2 ^ x.data.exponent)
  | none => 0

/-- The symbol's tensor: real and imaginary parts interleaved along the antenna dimension, resource element by resource
element (table "Uplink stages"). -/
def State.s1Symbol (s : State) (c : CellId) (f : Int) (slot sym free : Nat) : S1Out :=
  let cfg := s.cellCfg c
  let ids := (List.range (bits cfg 20 14)).map (s.antenna c)
  ⟨c.val, f, slot, sym, (List.range (12 * bits cfg 13 5)).map (fun re =>
    (blocks32 (ids.flatMap (fun id => [s.samplePart id f slot sym re 0, s.samplePart id f slot sym re 1]))).map (s1Block free))⟩

/-- Whether a sample of a PRB saturates as it is decompressed. -/
def prbSaturates (p : Prb) : Bool :=
  p.mantissas.any (fun m => decide (m * 2 ^ p.exponent < -32768 ∨ 32767 < m * 2 ^ p.exponent))

/-- S1 of a slot complete, once: its tensors are formed and kept; a saturation sets SAT and INX in the flags of the stream's
signal core (R367, R369, R370). -/
def State.closeS1 (s : State) (c : CellId) (f : Int) (slot : Nat) : State :=
  if s.radio.s1out.any (fun e => e.cell == c.val && e.frame == f && e.slot == slot) then s
  else
    let fr := s.takeFree
    let s1 := { fr.2 with radio := { fr.2.radio with
      s1out := fr.2.radio.s1out ++ (List.range 14).map (fun sym => fr.2.s1Symbol c f slot sym fr.1) } }
    (s.radio.received.filter (fun x => x.frame == f && x.slot == slot && (s.mapIds c).contains x.eaxc && prbSaturates x.data)).foldl
      (fun st x => match s.mapEntry x.eaxc with
        | some (_, core) => if h : core < 32 then st.setSig ⟨core, h⟩ { st.sig ⟨core, h⟩ with
            flags := (st.sig ⟨core, h⟩).flags.join Flags.saturated } else st
        | none => st) s1

/-! ### Slot results (R371, R377, R383, R509) -/

/-- An entry for the RADIO ring: to the ring, in-band where the PCIe link is down or the ring disabled, else dropped and
counted (R503, R509); in-band the transport blocks follow the record (log 53). -/
def State.radioPut (s : State) (rec : Nat) : State :=
  if s.host.pcieUp ∧ (s.ring 0 0x2800).enable then
    match s.ringPut 0 0x2800 32 rec false with
    | some s1 => s1
    | none => s.countDev 0x054 (some 0)
  else if s.od 0x1110 8 ≠ 0 then
    (s.emit (.datagram (odKey 0x1110 8) rec)).emit (.transportBlocks (odKey 0x1110 8) (bits rec 76 69) (bits rec 63 0))
  else s.countDev 0x054 (some 0)

/-- Whether a PRB of a mapped antenna of the cell is missing in a slot (R368). -/
def State.incomplete (s : State) (c : CellId) (f : Int) (j : Nat) : Bool :=
  let n := bits (s.cellCfg c) 13 5
  (s.mapIds c).any (fun id => (List.range 14).any (fun sym => (List.range n).any (fun prb =>
    !s.hasPrb id f j sym prb)))

/-- The 256 bits of a slot result record (R371). -/
def slotRecord (time : Nat) (c : Nat) (f : Int) (slot path : Nat) (frozen incomplete early : Bool)
    (crc ntb base : Nat) : Nat :=
  crc % 2 ^ 64 * 2 ^ 192 + time % 2 ^ 96 * 2 ^ 96 + sfn f * 2 ^ 86 + slot % 128 * 2 ^ 79 + c % 4 * 2 ^ 77 +
    ntb % 256 * 2 ^ 69 + path % 4 * 2 ^ 67 + b2n frozen * 2 ^ 66 + b2n incomplete * 2 ^ 65 + b2n early * 2 ^ 64 +
    base % 2 ^ 64

/-- The soft buffers of a slot put back as they were before it (R377). -/
def State.undoHarq (s : State) (c : CellId) (f : Int) (j : Nat) : State :=
  s.radio.harqUndo.reverse.foldl (fun st e =>
    if e.1 = c.val ∧ e.2.1 = f ∧ e.2.2.1 = j then st.wr e.2.2.2.1 e.2.2.2.2.1 e.2.2.2.2.2 else st) s

/-- What is held for a slot whose record is written, dropped: S1's output among it (R370). -/
def State.dropSlotData (s : State) (c : CellId) (f : Int) (j : Nat) : State :=
  { s with radio := { s.radio with
      harqUndo := s.radio.harqUndo.filter (fun e => !(e.1 == c.val && e.2.1 == f && e.2.2.1 == j))
      s1out := s.radio.s1out.filter (fun e => !(e.cell == c.val && e.frame == f && e.slot == j))
      received := s.radio.received.filter (fun e => !((s.mapIds c).contains e.eaxc && e.frame == f && e.slot == j)) } }

/-- A slot no longer watched or reported leaves; a cell that is to stop does so after its last one (R363, R373). -/
def State.prune (s : State) (c : CellId) : State :=
  let cfg := s.cellCfg c
  let x := s.cell c
  let left := x.slots.filter (fun r => !(r.reported && (r.declared.isSome ||
    (List.range 6).all (fun k => !watched cfg k || r.took.contains k))))
  s.setCell c { x with slots := left, running := x.running && !(x.stopping && left.isEmpty) }

/-- The record of a slot written, and the slot marked reported. -/
def State.writeRecord (s : State) (c : CellId) (r : SlotRec) (crc ntb base : Nat) : State :=
  let s1 := s.radioPut (slotRecord s.stamp c.val r.frame r.slot r.path r.frozen (s.incomplete c r.frame r.slot) r.early
    crc ntb base)
  let x := s1.cell c
  let s2 := s1.setCell c { x with
    slots := x.slots.map (fun q => if q.frame = r.frame ∧ q.slot = r.slot then { q with reported := true } else q)
    fallback := if x.fallback = some (r.frame, r.slot) then none else x.fallback }
  (s2.dropSlotData c r.frame r.slot).prune c

/-- The records of failed slots that stand first in their cell's order, written: CRC_OK 0, and a count and an address of
transport blocks that the spec does not state (R371, R377; log 51). -/
def State.flushFailed (s : State) (c : CellId) : Nat → State
  | 0 => s
  | n + 1 =>
    match (s.cell c).slots.find? (fun r => !r.reported) with
    | some r =>
      if r.path = 2 then
        let a := s.takeFree
        let b := a.2.takeFree
        (b.2.writeRecord c r 0 (a.1 % 65) (b.1 % 2 ^ 64)).flushFailed c n
      else s
    | none => s

/-- A slot changed in its cell. -/
def State.modSlot (s : State) (c : CellId) (r : SlotRec) (f : SlotRec → SlotRec) : State :=
  let x := s.cell c
  s.setCell c { x with slots := x.slots.map (fun q => if q.frame = r.frame ∧ q.slot = r.slot then f q else q) }

/-- A slot reported failed (R377, R379): its decoding is cancelled, its soft buffers keep what they held, its record is
written as soon as its turn comes. -/
def State.failSlot (s : State) (c : CellId) (r : SlotRec) (stage : Nat) : State :=
  if r.reported then s
  else
    let s1 := ((s.undoHarq c r.frame r.slot).modSlot c r (fun q => { q with path := 2 })).info 0x0112 (some 0) 5 c.val
      (slotPayload r.frame r.slot stage)
    let x := s1.cell c
    let s2 := s1.setCell c { x with fallback := if x.fallback = some (r.frame, r.slot) then none else x.fallback }
    s2.flushFailed c (x.slots.length + 1)

/-- Stage k of a slot declared late or early (R376 to R379): the takes it still owes are owed no more to it; the slot
falls back to the classical receiver or fails. -/
def State.declare (s : State) (c : CellId) (r : SlotRec) (k : Nat) (early : Bool) : State :=
  let cfg := s.cellCfg c
  let s0 := s.closeS1 c r.frame r.slot
  let s1 := s0.warn (if early then 0x0111 else 0x0110) (some 0) 5 c.val (slotPayload r.frame r.slot (k + 1))
  let s2 := s1.modSlot c r (fun q => { q with declared := some k, early := q.early || early })
  let x := s2.cell c
  let more := (List.range 6).filter (fun i => watched cfg i && !(r.took.contains i))
  let s3 := s2.setCell c { x with owed := x.owed ++ more }
  let r' := { r with early := r.early || early }
  if bit cfg 25 ∨ x.fallback.isSome ∨ r.reported then s3.failSlot c r' (k + 1)
  else
    let s4 := (s3.modSlot c r (fun q => { q with path := 1 })).info 0x0113 (some 0) 5 c.val
      (slotPayload r.frame r.slot (k + 1))
    s4.setCell c { s4.cell c with fallback := some (r.frame, r.slot) }

/-! ### Stage windows (R373 to R379) -/

/-- The slot whose take of stage k is next: slots in order, none declared late or early (R373). -/
def State.nextTake (s : State) (c : CellId) (k : Nat) : Option SlotRec :=
  if watched (s.cellCfg c) k then
    (s.cell c).slots.find? (fun r => r.declared.isNone && !r.took.contains k)
  else none

/-- The done semaphore of a stage (log 22). -/
def doneSem (c : CellId) (k : Nat) : Nat := Config.doneSem c.val k % 65536

/-- WINDOW_TAKE (R373, R376): 1 taken from the done semaphore of stage k. A take owed to a slot declared before is
discarded and counted; else it completes the stage in time, or makes it early or late. -/
def execWindowTake (c : CellId) (k : Fin 6) (s : State) : Host.Outcome State Fault Refusal :=
  let n := doneSem c k.val
  .next (if s.semCount n = 0 then s
    else if (s.cell c).owed.contains k.val then
      let s1 := (s.setSem n (s.semCount n - 1)).countDev 0x025 (some 0)
      s1.setCell c { s1.cell c with owed := (s1.cell c).owed.erase k.val }
    else
      match s.nextTake c k.val with
      | none => s
      | some r =>
        let s0 := if k.val = 0 then s.closeS1 c r.frame r.slot else s
        let s1 := s0.setSem n (s.semCount n - 1)
        let w := s.windowOf c k.val
        let t := s.sinceT0 c r
        let took := s1.modSlot c r (fun q => { q with took := q.took ++ [k.val] })
        let r' := { r with took := r.took ++ [k.val] }
        if t < (w.1 : Int) * usUnits then took.declare c r' k.val true
        else if t ≤ (w.2 : Int) * usUnits then took.prune c
        else
          let s2 := (s1.declare c r k.val false).countDev 0x025 (some 0)
          s2.setCell c { s2.cell c with owed := (s2.cell c).owed.erase k.val })

/-- WINDOW (R375): at LATEST - WARN_LEAD of a stage whose take is owed. -/
def execWindow (c : CellId) (k : Fin 6) (s : State) : Host.Outcome State Fault Refusal :=
  .next (match s.nextTake c k.val with
    | none => s
    | some r =>
      if ¬ r.warned.contains k.val ∧
          (((s.windowOf c k.val).2 : Int) - s.od 0x5011 1) * usUnits ≤ s.sinceT0 c r then
        (s.modSlot c r (fun q => { q with warned := q.warned ++ [k.val] })).raiseAll 6
      else s)

/-- STAGE_LATE (R373, R376). -/
def execStageLate (c : CellId) (k : Fin 6) (s : State) : Host.Outcome State Fault Refusal :=
  .next (match s.nextTake c k.val with
    | none => s
    | some r =>
      if ((s.windowOf c k.val).2 : Int) * usUnits ≤ s.sinceT0 c r then s.declare c r k.val false else s)

/-- FB_LATEST of a cell, in units after T0 (R378). -/
def State.fbLatest (s : State) (c : CellId) : Int :=
  if s.od 0x5011 2 = 0 then ((s.windowOf c 5).2 : Int) * usUnits + slotLen (cfgMu (s.cellCfg c))
  else (s.od 0x5011 2 : Int) * usUnits

/-- FB_LATEST (R378): a fallback that has not completed S6 by then fails. -/
def execFbLatest (c : CellId) (s : State) : Host.Outcome State Fault Refusal :=
  .next (match (s.cell c).fallback with
    | none => s
    | some (f, j) =>
      match (s.cell c).slots.find? (fun r => r.frame == f && r.slot == j && !r.reported) with
      | some r => if s.fbLatest c ≤ s.sinceT0 c r then s.failSlot c r 6 else s
      | none => s)

/-- SLOT_RESULT_RECORD (R371, R376, R383, R389): the record of the cell's first slot not yet reported. A frozen slot with
FROZEN_FAIL, and every slot while no code engine is left, is failed. -/
def execSlotResultRecord (c : CellId) (r : SlotResult) (s : State) : Host.Outcome State Fault Refusal :=
  .next (match (s.cell c).slots.find? (fun q => !q.reported) with
    | none => s
    | some q =>
      if (q.frozen ∧ bit (s.cellCfg c) 27) ∨ s.radio.engLost ∨ s.radio.engRetired.all id then s.failSlot c q 6
      else (s.writeRecord c q r.crcOk (min r.ntb 64) r.tbBase).flushFailed c ((s.cell c).slots.length + 1))

/-! ### Code engines (R384 to R389) -/

/-- A min-sum message from the magnitudes and signs of the other edges of a check (R384). -/
def checkMsg (others : List Int) : Int :=
  match others with
  | [] => 0
  | x :: t =>
    let m := t.foldl (fun a y => min a y.natAbs) x.natAbs
    let neg := (x :: t).foldl (fun a y => a != decide (y < 0)) false
    let v := min 127 ((3 * m + 2) / 4)
    if neg then -(v : Int) else v

/-- One layer: a check row with its stored messages, on the bits' LLRs. -/
def ldpcRow (l : List Int) (row : List Nat) (old : List Int) : List Int × List Int :=
  let q := (List.range row.length).map (fun i => l.getD (nth row i) 0 - old.getD i 0)
  let new := (List.range row.length).map (fun i => checkMsg (q.eraseIdx i))
  ((List.range row.length).foldl (fun a i => a.set (nth row i) (q.getD i 0 + new.getD i 0)) l, new)

/-- One iteration over all layers. -/
def ldpcIter : List (List Nat) → List (List Int) → List Int → List Int × List (List Int)
  | [], _, l => (l, [])
  | r :: rs, msgs, l =>
    let x := ldpcRow l r (msgs.headD [])
    let y := ldpcIter rs msgs.tail x.1
    (y.1, x.2 :: y.2)

/-- Hard decisions: a negative LLR is a 1 (log 55). -/
def hard (l : List Int) : List Bool := l.map (fun x => decide (x < 0))

/-- Whether every check row is even. -/
def syndromeZero (rows : List (List Nat)) (b : List Bool) : Bool :=
  rows.all (fun r => !(r.foldl (fun a i => a != b.getD i false) false))

/-- Iterations until a zero syndrome, a good CRC where there is one, or ITER_MAX (R384). -/
def ldpcLoop (rows : List (List Nat)) (crc : Bool) (info : Nat) : Nat → List (List Int) → List Int → List Int
  | 0, _, l => l
  | n + 1, msgs, l =>
    let x := ldpcIter rows msgs l
    if syndromeZero rows (hard x.1) || (crc && Config.crcOk ((hard x.1).take info)) then x.1
    else ldpcLoop rows crc info n x.2 x.1

/-- Decoded bits and whether they pass. -/
def decodeBlock (b : CodeBlock) (iterMax : Nat) (llrs : List Int) : List Bool × Bool :=
  if b.polar then
    let x := Config.polarDecode b.infoBits llrs
    (x, Config.crcOk x)
  else
    let rows := Config.ldpcRows b.graph b.lifting
    let h := hard (ldpcLoop rows b.hasCrc b.infoBits iterMax [] llrs)
    (h.take b.infoBits, if b.hasCrc then Config.crcOk (h.take b.infoBits) else syndromeZero rows h)

/-- LLRs combined with a soft buffer: exact addition saturated to +-127, and the number of saturations (R387). -/
def combineLlrs (old new : List Int) : List Int × Nat :=
  let l := (List.range new.length).map (fun i => old.getD i 0 + new.getD i 0)
  (l.map (clampI (-127) 127), (l.filter (fun x => decide (x < -127 ∨ 127 < x))).length)

/-- LLRs as bytes, and back. -/
def llrBytes (l : List Int) : Nat := l.foldr (fun x n => enc 8 x + 256 * n) 0
def bytesLlr (w n : Nat) : List Int := (List.range n).map (fun i => sbits w (8 * i + 7) (8 * i))

/-- CODE_BLOCK_DECODE (R384 to R387): a retransmission is combined with its soft buffer in HBM, then decoded. Nothing is
decoded while no engine is left, or for a slot whose decoding is cancelled (R377, R389). Without HBM nothing is combined
(R555). -/
def execCodeBlockDecode (b : CodeBlock) (s : State) : Host.Outcome State Fault Refusal :=
  let n := b.llrs.length
  let gone := (s.cell b.cell).slots.any (fun r => r.frame == b.frame && r.slot == b.slot && r.path == 2)
  .next (if s.radio.engLost ∨ s.radio.engRetired.all id ∨ gone then s
    else
      let old := s.rd b.harq n
      let soft := b.harq ≠ 0 ∧ s.hbmUp
      let x := if b.combine ∧ s.hbmUp then combineLlrs (bytesLlr old n) b.llrs else (b.llrs, 0)
      let s1 := if ¬ soft then s
        else ((s.writeAccess (.part 0) b.harq n (llrBytes x.1)).2)
      let s2 := if ¬ soft then s1 else { s1 with radio := { s1.radio with
        harqUndo := s1.radio.harqUndo ++ [(b.cell.val, b.frame, b.slot, b.harq, n, old)] } }
      let s3 := if x.2 = 0 then s2 else s2.countDev 0x026 (some 0) x.2
      let d := decodeBlock b (s.od 0x5018 1) x.1
      s3.emit (.decoded d.1 d.2))

/-- CODE_ENGINE_RETIRED (R389): its code blocks go to the other engines. -/
def execCodeEngineRetired (e : Fin 4) (s : State) : Host.Outcome State Fault Refusal :=
  .next (if s.radio.engRetired.getD e.val false then s
    else ({ s with radio := { s.radio with engRetired := s.radio.engRetired.set e.val true } }).faultNotice 0x0117
      (some 0) 9 e.val e.val)

/-! ### Downlink (R390, R391) -/

/-- Whether every sample of a PRB fits a mantissa of w bits at exponent e. -/
def fitsExp (w e : Nat) (l : List Int) : Bool :=
  l.all (fun v => decide (-(2 ^ (w - 1)) ≤ roundDiv v (2 ^ e) ∧ roundDiv v (2 ^ e) ≤ 2 ^ (w - 1) - 1))

/-- The exponent and mantissas of a PRB (R390). -/
def compressPrb (w : Nat) (l : List Int) : Nat × List Int :=
  let e := ((List.range 17).find? (fun e => fitsExp w e l)).getD 16
  (e, l.map (fun v => roundDiv v (2 ^ e)))

/-- Samples cut into PRBs of 24 parts. -/
def prbsOf (l : List Int) : List (List Int) :=
  (List.range ((l.length + 23) / 24)).map (fun i => (l.drop (24 * i)).take 24)

/-- A downlink code block encoded: the coded bits of TS 38.212 (R388; log 21). -/
def encodeBlock (b : DlBlock) : List Bool :=
  if b.polar then Config.polarEncode b.bits else Config.ldpcEncode b.graph b.lifting b.bits

/-- Whether code engines are left to decode and encode (R388, R389). -/
def State.enginesLeft (s : State) : Bool := !s.radio.engLost && !s.radio.engRetired.all id

/-- DL_SYMBOL_SEND (R388, R390, R391): the code engines encode the transport-block bits that the symbol needs; its U-plane is
compressed and leaves. A symbol that no engine is left to encode for is not ready. -/
def execDlSymbolSend (c : CellId) (frame : Int) (slot symbol : Nat) (x : DlSymbol) (width : Nat)
    (s : State) : Host.Outcome State Fault Refusal :=
  .next (if s.radio.dlDone.contains (c.val, frame, slot, symbol) ∨ ¬ (x.blocks.isEmpty ∨ s.enginesLeft) then s
    else
      let s0 := x.blocks.foldl (fun st b => st.emit (.encoded (encodeBlock b))) s
      let s1 := (prbsOf x.samples).foldl (fun st l =>
        let y := compressPrb width l
        st.emit (.uPlane c.val y.1 y.2)) s0
      { s1 with radio := { s1.radio with dlDone := s1.radio.dlDone ++ [(c.val, frame, slot, symbol)] } })

/-- DL_LATE (R391): the symbol is not sent; one WARN for its slot. -/
def execDlLate (c : CellId) (frame : Int) (slot symbol : Nat) (s : State) : Host.Outcome State Fault Refusal :=
  .next (if s.radio.dlDone.contains (c.val, frame, slot, symbol) then s
    else
      let s1 := ({ s with radio := { s.radio with
        dlDone := s.radio.dlDone ++ [(c.val, frame, slot, symbol)] } }).countDev 0x027 (some 0)
      if s.radio.dlLateSlots.contains (c.val, frame, slot) then s1
      else ({ s1 with radio := { s1.radio with dlLateSlots := s1.radio.dlLateSlots ++ [(c.val, frame, slot)] } }).warn
        0x0116 (some 0) 5 c.val (slotPayload frame slot 0))

end Sys2Proof.Machine
end

