-- ==== Sys2Proof/Machine/Time.lean ====
section
/-! DEFINITION. The timebase, stamps at the field ports, the pulse pins and time over Brim links (R458 to R476), but for
the dictionary writes among them. -/

namespace Sys2Proof.Machine

/-! ### The timebase (R459, R462 to R465) -/

/-- PPS_OUT as the timebase reaches a value: its edge at the start of a new second fires where it lies at most 1 us back
and has not fired, is skipped and counted where it lies further back (R464, R474; log 79). -/
def State.ppsEdge (s : State) (old : Nat) : State :=
  let sec := s.time.now / secUnits
  if sec ≤ old / secUnits ∨ bit (s.od 0x6100 8) 31 = false ∨ s.time.ppsFired.contains sec then s
  else if 1000 * 2 ^ 32 < s.time.now % secUnits then s.countDev 0x003
  else { s with time := { s.time with ppsHigh := true, ppsFired := sec :: s.time.ppsFired } }

/-- The timebase taken to a value (SEC has 48 bits), and PPS_OUT with it. -/
def State.setNow (s : State) (v : Nat) : State :=
  ({ s with time := { s.time with now := v % (2 ^ 48 * secUnits) } }).ppsEdge s.time.now

/-- TIMEBASE_TICK (R459): TB_INC is added. -/
def execTimebaseTick (s : State) : Host.Outcome State Fault Refusal :=
  .next (if s.power.stopped then s else s.setNow (s.time.now + s.time.inc))

/-- TB_ADJUST_APPLY (R461, R462): a tick that applies the oldest acknowledged adjustment. An increment is in force from
this tick on; a step is added on top of TB_INC; a set replaces the value. A one-step frame never stands between commit
and its timestamp point here, since PKT_TX_SEND covers both (R463). -/
def execTbAdjustApply (s : State) : Host.Outcome State Fault Refusal :=
  .next (if s.power.stopped then s else match s.time.pend with
    | [] => s
    | a :: rest =>
      let s1 := { s with time := { s.time with pend := rest } }
      match a with
      | .inc v => ({ s1 with time := { s1.time with inc := v } }).setNow (s.time.now + v)
      | .step d => s1.setNow ((s.time.now : Int) + s.time.inc + d * 2 ^ 16).toNat
      | .set t => s1.setNow (ofTime96 t))

/-- SCHEDULED_INSTANT (R464): an instant at or before the timebase fires once; one that lies more than 1 us back is skipped
and counted (log 79). -/
def execScheduledInstant (t : Nat) (s : State) : Host.Outcome State Fault Refusal :=
  .next (if s.time.now < t ∨ s.time.fired.contains t then s
    else
      let s1 := { s with time := { s.time with fired := t :: s.time.fired } }
      if t + 1000 * 2 ^ 32 < s.time.now then s1.countDev 0x003 else s1)

/-- TB_REF_LOST (R465): the PLL changes to the board's reference; the timebase and TB_INC are kept. -/
def execTbRefLost (s : State) : Host.Outcome State Fault Refusal :=
  .next (let s1 := { s with time := { s.time with refSel := true, refOk := false } }
    if s.time.refSel then s1 else s1.warn 0x0140 none 0 0 0)

/-- TB_REF_OK (R465): the PLL returns to TB_REF. -/
def execTbRefOk (s : State) : Host.Outcome State Fault Refusal :=
  .next (let s1 := { s with time := { s.time with refSel := false, refOk := true } }
    if s.time.refSel then s1.info 0x0141 none 0 0 0 else s1)

/-! ### Field ports (R468 to R473) -/

/-- ⌊ns x 2^16 + 1/2⌋ for a latency in tenths of a nanosecond (R470). -/
def latencyUnits (tenths : Nat) : Nat := (tenths * 2 ^ 17 + 10) / 20

/-- Ingress and egress latency in tenths of a nanosecond (table "Port latencies"). -/
def portLatency (speed : Nat) (bypassed : Bool) : Option (Nat × Nat) :=
  match speed, bypassed with
  | 100, false => some (1424, 586)
  | 100, true => some (712, 586)
  | 200, false => some (960, 413)
  | 200, true => some (528, 413)
  | 400, false => some (744, 329)
  | 400, true => some (416, 329)
  | _, _ => none

/-- The latency entry of port q as it reads: 0 while the link is down (R470). -/
def State.latEntry (s : State) (q : Nat) : Nat := if s.time.portUp.getD q false then s.od 0x6110 (q + 1) else 0

/-- PORT_LINK_UP (R470): the preloads of the negotiated mode, but for fields whose override bit is set. -/
def execPortLinkUp (q : PortId) (speed : Nat) (bypassed : Bool) (s : State) : Host.Outcome State Fault Refusal :=
  .next (match portLatency speed bypassed with
    | none => s
    | some (i, e) =>
      let w := s.od 0x6110 (q.val + 1)
      let w1 := if bit w 56 then w else setBits w 27 0 (latencyUnits i)
      let w2 := if bit w 57 then w1 else setBits w1 55 28 (latencyUnits e)
      ({ s with time := { s.time with portUp := s.time.portUp.set q.val true } }).setOd 0x6110 (q.val + 1) w2)

/-- PORT_LINK_DOWN (R470): the latency entry reads 0. -/
def execPortLinkDown (q : PortId) (s : State) : Host.Outcome State Fault Refusal :=
  .next { s with time := { s.time with portUp := s.time.portUp.set q.val false } }

/-- TIME_SOURCE (R466): KIND and INDEX. -/
def State.srcKind (s : State) : Nat := bits (s.od 0x6100 6) 4 3
def State.srcIndex (s : State) : Nat := bits (s.od 0x6100 6) 2 0

/-- A servo offset taken: the newest 16 are kept. -/
def State.servoOffset (s : State) (d : Int) : State :=
  { s with time := { s.time with offsets := (d :: s.time.offsets).take 16 } }

/-- Who takes a received frame: 0 fronthaul ingest, 1 a tunnel, 2 in-band management, 3 Crown's PTP servo, 4 the PKT_RX
ring ("Partition 0 rings"). -/
def State.frameClass (s : State) (f : PortFrame) : Nat :=
  if f.isEcpri then 0
  else if f.ipVersion = 6 ∧ f.udpDst = 48621 then 1
  else if f.ipVersion = 6 ∧ f.udpDst = 48620 then 2
  else if wirePtpAny f.content ∧ s.srcKind = 1 ∧ s.srcIndex = f.port.val then 3
  else 4

/-- BAR0 offsets of partition 0's rings: r = 0 RADIO, 1 FR_TX, 2 FR_RX, 3 PKT_TX, 4 PKT_RX (R500). -/
def p0Ring (r : Nat) : Nat := 0x2800 + 0x20 * r

/-- The device's index of a host-produced ring advanced, and its signal (R501, R503). -/
def State.ringTaken (s : State) (f off : Nat) : State :=
  let r := s.ring f off
  (s.setRing f off { r with cons := (r.cons + 1) % 2 ^ 32 }).ringSignal f off

/-- A PKT_RX entry as the device writes it (table "PKT_TX and PKT_RX entry"). -/
def pktRxEntry (buf stamp len bufLen status port : Nat) (event : Bool) : Nat :=
  buf % 2 ^ 64 * 2 ^ 192 + stamp % 2 ^ 96 * 2 ^ 96 + len % 2 ^ 16 * 2 ^ 80 + bufLen % 2 ^ 16 * 2 ^ 64 +
    status % 256 * 2 ^ 56 + port % 8 * 2 ^ 53 + b2n event * 2 ^ 50

/-- A frame put into a posted buffer of PKT_RX; dropped and counted where the ring is disabled or has none (R503). -/
def State.pktReceive (s : State) (f : PortFrame) (stamp : Nat) : State :=
  let off := p0Ring 4
  let r := s.ring 0 off
  if ¬ r.enable ∨ r.count = 0 ∨ ¬ s.host.pcieUp then s.countDev 0x053
  else
    let n := min f.len f.bufLen
    let status := if f.bufLen < f.len then 1 else 0
    let s1 := s.emit (.hostWrite 0 off f.buf n (f.content % 256 ^ n))
    let s2 := s1.emit (.hostWrite 0 off (r.base + r.cons % 2 ^ r.log2n * 32) 32
      (pktRxEntry f.buf stamp f.len f.bufLen status f.port.val (wirePtpEvent f.content)))
    s2.ringTaken 0 off

/-- The ingress stamp of a frame: the capture less ING_LAT; a free value where that lies before the timebase's zero
(R468). -/
def State.ingressStamp (s : State) (f : PortFrame) : Nat × State :=
  let lat := bits (s.latEntry f.port.val) 27 0
  if lat ≤ f.capture then (toTime96 ((f.capture - lat) * 2 ^ 16), s)
  else (s.takeFree.1 % 2 ^ 96, s.takeFree.2)

/-- FIELD_PORT_FRAME (R468, R469): stamped, classified, handed on. Each event message that the PTP servo takes gives it an
offset, which Crown firmware computes (log 82). -/
def execFieldPortFrame (f : PortFrame) (s : State) : Host.Outcome State Fault Refusal :=
  .next (let t := s.ingressStamp f
    match s.frameClass f with
    | 4 => t.2.pktReceive f t.1
    | 3 =>
      let s1 := t.2.emit (.pktRx 3 t.1)
      if wirePtpEvent f.content then s1.takeFree.2.servoOffset (sext 64 s1.takeFree.1) else s1
    | c => t.2.emit (.pktRx c t.1))

/-- An incremental checksum (RFC 1624) over words that change from `old` to `new`. -/
def checksumUpdate (hc : Nat) (old new : List Nat) : Nat :=
  let sum := (0xFFFF - hc % 65536) + (old.map (fun w => 0xFFFF - w % 65536)).sum + (new.map (fun w => w % 65536)).sum
  let fold := fun x => x % 65536 + x / 65536
  0xFFFF - fold (fold (fold sum))

/-- The 16-bit words of an n-word field, most significant first (R7). -/
def halfWords (n v : Nat) : List Nat := (List.range n).map (fun i => v / 65536 ^ (n - 1 - i) % 65536)

/-- The UDP checksum a one-step frame leaves with: 0 stays 0 on IPv4, a result of 0 is 0xFFFF on IPv6 (R473). -/
def oneStepChecksum (t : PtpTx) (origin correction : Nat) : Nat :=
  let c := checksumUpdate t.checksum (halfWords 5 t.origin ++ halfWords 4 (enc 64 t.correction))
    (halfWords 5 origin ++ halfWords 4 correction)
  if wireIp t.content = 4 then (if t.checksum = 0 then 0 else c)
  else if c = 0 then 0xFFFF
  else c

/-- The bytes a one-step frame leaves with: originTimestamp, correctionField and UDP checksum, each most significant byte
first (R7, R473). -/
def corrected (t : PtpTx) (origin correction : Nat) : Nat :=
  let w := setWire (setWire t.content (t.ptpAt + 34) 10 origin) (t.ptpAt + 8) 8 correction
  (wireUdp t.content).elim w (fun u => setWire w (u + 6) 2 (oneStepChecksum t origin correction))

/-- A TIME96 value in units of 2^-16 ns. -/
def time16 (t : Nat) : Nat := ofTime96 t / 2 ^ 16

/-- A correctionField result beyond the largest value is that value (R473). -/
def satCorrection (v : Int) : Nat := enc 64 (min v (2 ^ 63 - 1))

/-- PKT_TX_SEND (R472, R473): the frame of the oldest PKT_TX entry leaves; its completion tells the status and, where a
stamp was asked for, the egress stamp. No one-step frame is committed while a step or set is pending (R463). -/
def execPktTxSend (t : PtpTx) (s : State) : Host.Outcome State Fault Refusal :=
  let off := p0Ring 3
  let r := s.ring 0 off
  let pendingStep := s.time.pend.any (fun a => match a with | .inc _ => false | _ => true)
  .next (if ¬ r.enable ∨ r.count = 0 ∨ (t.tsMode = 2 ∧ pendingStep) then s
    else
      let te := toTime96 ((t.egress + bits (s.latEntry t.port.val) 55 28) * 2 ^ 16)
      let fin := fun (st : State) (status : Nat) (stamp : Option Nat) =>
        (st.emit (.pktDone status stamp)).ringTaken 0 off
      if ¬ s.time.portUp.getD t.port.val false then fin s 3 none
      else if t.bad ∨ 3 ≤ t.tsMode then fin s 4 none
      else
        let plain := s.emit (.frameSent t.port.val t.len t.content)
        if t.tsMode = 0 then fin plain 0 none
        else if t.tsMode = 1 then fin plain 0 (some te)
        else if t.hasPtp ∧ t.ptpType = 0 then
          let o := te / 2 ^ 16
          let c := satCorrection (t.correction + te % 2 ^ 16)
          fin (s.emit (.frameSent t.port.val t.len (corrected t o c))) 0 (some te)
        else if t.hasPtp ∧ t.ptpType = 3 then
          let c := satCorrection (t.correction + ((time16 te : Int) - time16 t.tr))
          fin (s.emit (.frameSent t.port.val t.len (corrected t t.origin c))) 0 (some te)
        else fin plain 2 (some te))

/-! ### Pins (R474) -/

/-- PPS_IN_EDGE: captured, or ignored and counted where it comes less than 100 ms after the previous one. -/
def execPpsInEdge (sinceMs : Nat) (s : State) : Host.Outcome State Fault Refusal :=
  .next (if sinceMs < 100 then s.countDev 0x047 else { s with time := { s.time with lastPps := s.stamp } })

/-- PPS_OUT_END: WIDTH is over. -/
def execPpsOutEnd (s : State) : Host.Outcome State Fault Refusal :=
  .next { s with time := { s.time with ppsHigh := false } }

/-! ### Time over Brim links (R475, R476) -/

/-- The payload of a TIME message. -/
def timePayload (t1 t2 t3 seq kind : Nat) (replayed : Bool) : BitVec 384 :=
  BitVec.ofNat 384 (t1 % 2 ^ 96 * 2 ^ 288 + t2 % 2 ^ 96 * 2 ^ 192 + t3 % 2 ^ 96 * 2 ^ 96 + seq % 2 ^ 16 * 2 ^ 80 +
    kind % 16 * 2 ^ 76 + b2n replayed * 2 ^ 75)

/-- TIME_REQUEST (R475): answered within 1 us; the response's egress in that bound is a free value. A replayed request's
answer says REPLAYED too (log 83). DESIGN CHOICE (log 156): HELD [74:0], for which no response is stated, is not looked
at. -/
def execTimeRequest (l : LinkId) (payload : BitVec 384) (s : State) : Host.Outcome State Fault Refusal :=
  let w := payload.toNat
  .next (if ¬ (s.link l).up ∨ bits w 79 76 ≠ 0 then s
    else
      let t3 := toTime96 (s.time.now + s.takeFree.1 % (1000 * 2 ^ 32 + 1))
      s.takeFree.2.emit (.timeMsg l.val (timePayload (bits w 383 288) s.stamp t3 (bits w 95 80) 1 (bit w 75))))

/-- TIME_RESPONSE (R475, R476): offset and delay, exactly, with the halving rounded by R33; a sample marked REPLAYED is
discarded. DESIGN CHOICE (log 156): HELD [74:0], for which no response is stated, is not looked at: the sample is used. -/
def execTimeResponse (l : LinkId) (payload : BitVec 384) (s : State) : Host.Outcome State Fault Refusal :=
  let w := payload.toNat
  .next (if ¬ (s.link l).up ∨ bits w 79 76 ≠ 1 ∨ bit w 75 ∨ bits w 95 80 ≠ s.fab.timeSeq then s
    else
      let up : Int := (time16 (bits w 287 192) : Int) - time16 (bits w 383 288)
      let down : Int := (time16 s.stamp : Int) - time16 (bits w 191 96)
      let th := roundDiv (up - down) 2
      let s1 := { s with time := { s.time with theta := th, delay := roundDiv (up + down) 2 } }
      if s.srcKind = 2 ∧ s.srcIndex = l.val then s1.servoOffset th else s1)

/-- TIME_EXCHANGE_START (R466, R475): a request with T1 on the link that disciplines the timebase. -/
def execTimeExchangeStart (s : State) : Host.Outcome State Fault Refusal :=
  .next (if s.srcKind ≠ 2 ∨ ¬ ((s.fab.links.toList.getD s.srcIndex LinkSt.reset).up) then s
    else
      let q := (s.fab.timeSeq + 1) % 65536
      ({ s with fab := { s.fab with timeSeq := q } }).emit
        (.timeMsg s.srcIndex (timePayload s.stamp 0 0 q 0 false)))

end Sys2Proof.Machine
end

