-- ==== Sys2Proof/Machine/Dictionary.lean ====
section
/-! DEFINITION. The object dictionary: rights, reads, the checks of writes and what an accepted write does (R479 to R486
and the entry tables of every chapter). -/

namespace Sys2Proof.Machine

/-! ### Error codes (table "Dictionary errors") -/

def odOk : Nat := 0
def odNoEntry : Nat := 1
def odNoSub : Nat := 2
def odReadOnly : Nat := 3
def odWriteOnly : Nat := 4
def odLength : Nat := 5
def odRange : Nat := 6
def odRefused : Nat := 7
def odNotPermitted : Nat := 8
def odLocked : Nat := 9
def odBusy : Nat := 0xA
def odPersist : Nat := 0xB
def odProtocol : Nat := 0xC
def odTimeout : Nat := 0xD

/-! ### Rights (R482) -/

/-- The partition to which virtual function v is bound (R500). -/
def State.boundPart (s : State) (v : Nat) : Option Nat :=
  let b := s.od 0x4040 (v + 1)
  if b < 16 then some b else none

/-- Whether core p is in partition k's map. -/
def State.mapHolds (s : State) (k p : Nat) : Bool :=
  (List.range 64).any (fun l => byteCore (s.mapByte k l) == some p)

/-- Whether a virtual function may read an entry: sub-index 0 of a group it may read is readable (R482). -/
def State.vfReads (s : State) (v index sub : Nat) : Bool :=
  decide (index / 0x1000 = 1) ||
    (match s.boundPart v with
     | none => false
     | some k =>
       if index = 0x4010 ∨ index = 0x4020 ∨ index = 0x4180 then sub == 0 || sub == k + 1
       else if index = 0x3100 ∨ index = 0x3300 then sub == 0 || s.mapHolds k (sub - 1)
       else if 0x8100 ≤ index ∧ index < 0x8148 then s.mapHolds k (index % 0x100)
       else if 0x8400 ≤ index ∧ index < 0x8448 then s.mapHolds k (index % 0x100)
       else false)

/-- Whether the dictionary answers a requester at the service level in force: from CROWN on, in RECOVERY over PCIe and CAN
alone (R553, R554). -/
def State.answers (s : State) (by_ : Requester) : Bool :=
  !s.power.stopped && match s.power.level with
  | 0 => false
  | 6 => match by_ with
    | .pf => true
    | .vf _ => true
    | .can _ => true
    | _ => false
  | _ => true

/-- What RECOVERY serves (R553). -/
def recoveryServes (index sub : Nat) : Bool :=
  index == 0x1000 || index == 0x2000 || (index == 0x7030 && decide (2 ≤ sub ∧ sub ≤ 5))

/-- What an access meets before its entry is looked into: LOCKED, NO_ENTRY, NO_SUBINDEX, NOT_PERMITTED (R481 to R483;
log 80, 84). -/
def State.odGate (s : State) (by_ : Requester) (index sub : Nat) (write : Bool) : Nat :=
  if 0xF000 ≤ index ∧ by_ ≠ .crown then odLocked
  else if s.power.level = 6 ∧ ¬ recoveryServes index sub then odNotPermitted
  else if ¬ indexDefined index then odNoEntry
  else if (entryOf index sub).isNone then odNoSub
  else
    match by_ with
    | .vf v => if write ∨ ¬ s.vfReads v.val index sub then odNotPermitted else odOk
    | _ => odOk

/-! ### Reads -/

/-- A number written as consecutive elements of w bits, the first lowest. -/
def packBits (w : Nat) (l : List Nat) : Nat := l.foldr (fun x a => x % 2 ^ w + 2 ^ w * a) 0

/-- The code of a bank's state (table "Bank state fields"). -/
def bankCode : BankSt → Nat
  | .on => 0
  | .retain => 1
  | .off => 2

/-- STATE_b of n banks from bank b0 on. -/
def State.bankStates (s : State) (b0 n : Nat) : Nat :=
  packBits 2 ((List.range n).map (fun i => bankCode (s.bank (b0 + i)).st))

/-- The status word of a link (table "Link status"). -/
def linkStatus (x : LinkSt) (cfg : Nat) : Nat :=
  let lanes := (usable x.good cfg).take (if x.width = 3 then 4 else x.width)
  let map := packBits 2 lanes
  (if x.up then x.pairVer * 2 ^ 16 + map * 2 ^ 8 + x.width * 2 ^ 4 else 0) + b2n x.training * 2 ^ 7 + x.good.toNat

/-- SPARE_STATE codes (table "Canton status"). -/
def spareCode : SpareSt → Nat
  | .ready => 0
  | .inTest => 1
  | .lent => 2
  | .none => 3

/-- The status word of canton c (table "Canton status"). -/
def State.cantonStatus (s : State) (c : Nat) : Nat :=
  let pos := List.range 9
  packBits 1 (pos.map (fun i => b2n (s.safety.retired.contains (9 * c + i)))) * 2 ^ 17 +
    packBits 1 (pos.map (fun i => b2n (s.inService (9 * c + i)))) * 2 ^ 8 +
    ((s.safety.spare.getD c none).getD 0xF) * 2 ^ 4 + spareCode (s.safety.spareSt.getD c .none) * 2 ^ 2 +
    b2n (s.safety.railOk.getD c false)

/-- A fault record as 48 bytes (table "Fault record"). -/
def FaultRec.toNat (r : FaultRec) : Nat :=
  r.cmd % 2 ^ 128 * 2 ^ 256 + r.step % 2 ^ 64 * 2 ^ 192 + r.loopI % 2 ^ 64 * 2 ^ 128 + r.detail % 2 ^ 64 * 2 ^ 64 +
    r.offset % 2 ^ 22 * 2 ^ 8 + r.code % 256

/-- TB_STATUS (R466): LOCKED, STEP_PENDING, REF_SEL, REF_OK. -/
def State.tbStatus (s : State) : Nat :=
  let locked := s.srcKind ≠ 0 ∧ s.time.offsets.length = 16 ∧
    s.time.offsets.all (fun d => decide (-(50 * 65536) ≤ d ∧ d ≤ 50 * 65536))
  let step := s.time.pend.any (fun a => match a with | .inc _ => false | _ => true)
  b2n (decide locked) * 8 + b2n step * 4 + b2n s.time.refSel * 2 + b2n s.time.refOk

/-- Records of the journal in flash, and the first still in its region of 64 MiB: 16,384 pages of 127 records (R537). -/
def State.journalCount (s : State) : Nat := s.host.journal.length
def State.journalOldest (s : State) : Nat := ((s.journalCount + 126) / 127 - 16384) * 127

/-- The page that holds record n: header, then its records (R537). -/
def State.journalPage (s : State) (n : Nat) : Nat :=
  let page := n / 127
  let recs := (s.host.journal.drop (127 * page)).take 127
  Config.journalHeader page (127 * page) recs.length % 2 ^ 256 + 2 ^ 256 * packBits 256 recs

/-- The value of an entry as it reads: the state behind it where there is one, else what is stored. -/
def State.odValue (s : State) (index sub : Nat) : Nat :=
  if sub = 0 then odDef (odKey index sub)
  else
    match index with
    | 0x1021 => if sub = 1 then s.safety.version else if sub = 5 then 0x02000000 + nth s.safety.minors 1 * 2 ^ 16 else Config.firmwareVersion sub
    | 0x1100 => if sub = 1 then s.canNodeSet else s.od index sub
    | 0x2000 =>
      if sub = 1 then s.power.level
      else if sub = 2 then s.power.straps % 16
      else s.power.cause * 4 + b2n s.power.otherSlot * 2 + s.safety.activeSlot
    | 0x2200 => Config.railReading (sub - 1) s.time.now
    | 0x2120 => nth s.power.freq (sub - 1)
    | 0x3100 => (s.coreAt (sub - 1)).flags.toNat
    | 0x3110 => (s.sigs.toList.getD (sub - 1) Sig.reset).flags.toNat
    | 0x3120 =>
      let g := s.sigs.toList.getD (sub - 1) Sig.reset
      g.entry.toNat * 2 ^ 16 + b2n g.faulted * 4 + b2n g.running * 2 + b2n g.run
    | 0x3130 => (s.sigs.toList.getD (sub - 1) Sig.reset).frec
    | 0x3200 => s.bankStates (4 * (sub - 1)) 4 + bits (s.od index sub) 9 8 * 2 ^ 8
    | 0x3210 => s.bankStates (288 + 8 * (sub - 1)) 8 + bits (s.od index sub) 17 16 * 2 ^ 16
    | 0x3220 => s.bankStates (352 + 4 * (sub - 1)) 4 + bits (s.od index sub) 9 8 * 2 ^ 8
    | 0x3300 => (s.coreAt (sub - 1)).frec.toNat
    | 0x4010 => packBits 8 ((List.range 64).map (fun l => s.mapByte (sub - 1) l))
    | 0x4180 => s.od index sub % 8 + b2n (s.lockActive (sub - 1)) * 8
    | 0x5801 => if sub = 3 then s.fr.gain else s.od index sub
    | 0x6001 => linkStatus (s.fab.links.toList.getD (sub - 1) LinkSt.reset) (s.od 0x6002 sub)
    | 0x6100 =>
      match sub with
      | 1 => s.stamp
      | 5 => s.tbStatus
      | 7 => s.time.lastPps
      | 9 => s.time.lastSysref
      | _ => s.od index sub
    | 0x6110 => s.latEntry (sub - 1)
    | 0x7010 => s.cantonStatus (sub - 1)
    | 0x7030 => if sub = 1 then s.safety.activeSlot else s.od index sub
    | 0x8300 => sget s.visor zeroD (odKey index sub)
    | 0x9000 => (s.host.chans.toList.getD (sub - 1) ⟨0, [], 0, 0⟩).seq
    | 0x9010 => (s.host.chans.toList.getD (sub - 1) ⟨0, [], 0, 0⟩).dropped
    | 0x9100 =>
      match sub with
      | 1 => s.journalCount - 1
      | 2 => s.journalOldest
      | 4 => s.journalPage (s.od 0x9100 3)
      | _ => s.od index sub
    | _ =>
      if 0x8100 ≤ index ∧ index < 0x8208 then sget s.visor zeroD (odKey index sub)
      else if 0x8400 ≤ index ∧ index < 0x8448 then packBits 64 (s.coreAt (index % 0x100)).digests
      else s.od index sub

/-- A read: error code, length and value (R483). -/
def State.odRead (s : State) (by_ : Requester) (index sub : Nat) : Nat × Nat × Nat :=
  let g := s.odGate by_ index sub false
  match entryOf index sub with
  | none => (g, 0, 0)
  | some e =>
    if g ≠ odOk then (g, 0, 0)
    else if e.acc = .wo then (odWriteOnly, 0, 0)
    else (odOk, e.ty.bytes, s.odValue index sub % 256 ^ e.ty.bytes)

/-! ### Checks of a write (R483) -/

/-- Whether v lies between two bounds. -/
def inR (lo hi v : Int) : Bool := decide (lo ≤ v ∧ v ≤ hi)

/-- The 2-bit states of n banks, none held. -/
def banksOk (n v : Nat) : Bool := (List.range n).all (fun b => decide (bits v (2 * b + 1) (2 * b) ≠ 3))

/-- Sample rate of an FS_SEL in Hz. -/
def fsHz (sel : Nat) : Nat := 51200000 * 2 ^ sel

/-- The fields of a far-reach configuration in range (R421). -/
def frCfgOk (v : Nat) : Bool :=
  bits v 31 28 == 0 && decide (bits v 27 25 ≤ 4) &&
    decide ((sbits v 23 1).natAbs * 100 + 1000000 ≤ fsHz (bits v 27 25) / 2)

/-- The fields of a tunnel entry in range (table "Tunnel entry"). -/
def tunCfgOk (v : Nat) : Bool :=
  bits v 248 1 == 0 && bits v 348 297 % 2 ^ 20 == 0 && inR 4 1024 (bits v 296 281) && inR 20 65535 (bits v 280 265) &&
    inR 1280 9000 (bits v 264 249)

/-- Values of a route-table byte (R423). -/
def routeByteOk (b : Nat) : Bool := decide (b ≤ 3) || inR 8 15 b || b == 0xFE || b == 0xFF

/-- TIME_SOURCE in range (R466). -/
def timeSourceOk (v : Nat) : Bool :=
  bits v 6 5 == 0 && decide (bits v 4 3 ≠ 3) && (bits v 4 3 != 2 || decide (bits v 2 0 ≤ 3)) &&
    (if bit v 7 then inR 44 63 (bits v 15 8) else inR 24 43 (bits v 15 8))

/-- Longest window bound of cell c: four slots, in microseconds (R372). -/
def State.windowMax (s : State) (c : Nat) : Nat := if cfgMu (s.od 0x5000 (c + 1)) = 3 then 500 else 2000

/-- Whether a value lies in its entry's range, is no held value and sets no HELD field. -/
def State.odInRange (s : State) (index sub v : Nat) : Bool :=
  match index with
  | 0x1100 => match sub with
    | 1 => inR 1 127 v
    | 2 => v == 2 || v == 4 || v == 5 || v == 8
    | 5 => inR 0 2 v
    | _ => inR 0 3 v
  | 0x1110 => match sub with
    | 1 => inR 0 4094 v
    | 2 => inR 0 7 v
    | 6 => inR 0 2 v
    | _ => true
  | 0x2100 => if sub = 1 then inR 150 300 v else inR 5 38 v
  | 0x2110 => inR 800 1600 v && v % 25 == 0
  | 0x2300 => inR 85 110 (sext 16 v)
  | 0x2400 => if sub = 1 then inR 0 3 v else true
  | 0x3100 => inR 0 15 v
  | 0x3110 => inR 0 15 v
  | 0x3120 => bits v 15 3 == 0
  | 0x3140 => (List.range 16).all (fun i =>
      let e := bits v (64 * i + 63) (64 * i)
      e % 8 == 0 && bits e 63 52 == 0)
  | 0x3200 => bits v 15 10 == 0 && banksOk 4 v
  | 0x3210 => bits v 31 18 == 0 && banksOk 8 v
  | 0x3220 => bits v 15 10 == 0 && banksOk 4 v
  | 0x4020 => bits v 31 24 == 0 && bits v 12 7 == 0 && inR 0 96 (bits v 23 16) && inR 0 64 (bits v 6 0) &&
      (if sub = 1 then bits v 14 13 == 3 else bits v 14 13 != 3)
  | 0x4030 => inR 0 16 v
  | 0x4040 => inR 0 15 v || v == 0xFF
  | 0x4180 => bits v 7 4 == 0 && !(sub == 1 && bit v 2)
  | 0x5000 => bits v 31 28 == 0 && bits v 2 1 == 0 && (cfgMu v == 1 || cfgMu v == 3)
  | 0x5008 => (List.range 64).all (fun a => bits v (32 * a + 15) (32 * a + 13) == 0 && bits v (32 * a + 6) (32 * a) == 0)
  | 0x5010 => decide (bits v 31 16 ≤ s.windowMax ((sub - 1) / 6))
  | 0x5018 => inR 1 32 v
  | 0x5020 => inR 2 15 v
  | 0x5800 => match sub with
    | 1 => frCfgOk v
    | 2 => inR (-160) (-20) (sext 16 v)
    | 3 => inR 1 255 v
    | 5 => v % 64 == 0
    | 6 => inR 0 16384 v
    | 8 => inR 2 1000 v
    | 9 => inR 0 1000 v
    | _ => true
  | 0x5810 => (List.range 8).all (fun i =>
      let n := bits v (16 * i + 15) (16 * i)
      decide (n < 4096) || n == 0xFFFF)
  | 0x6000 => inR 0 4095 v
  | 0x6002 => bits v 15 8 == 0 && decide (bits v 3 2 ≠ 0)
  | 0x6010 => (List.range 4096).all (fun i => routeByteOk (bits v (8 * i + 7) (8 * i)))
  | 0x6020 => tunCfgOk v
  | 0x6100 => match sub with
    | 2 => inR 0x13FD70A3E 0x14028F5C2 v
    | 4 => inR 0 999999999 (bits v 47 16)
    | 6 => timeSourceOk v
    | 8 => bits v 30 24 == 0 && inR 1 500000 (bits v 23 0)
    | 10 => inR (-10239999999) 10239999999 (sext 64 v)
    | 11 => inR 16 10000 v
    | _ => true
  | 0x6110 => bits v 63 58 == 0
  | 0x7030 => match sub with
    | 3 => v % 4096 == 0
    | 4 => inR 1 16777216 v
    | 5 => inR 1 4 v
    | 6 => inR 10 86400 v
    | _ => true
  | 0x8300 => if sub ≤ 32 then bits v 63 49 == 0 else !bit v 9
  | 0x9100 => inR s.journalOldest (s.journalCount - 1 : Nat) v
  | _ =>
    if 0x8100 ≤ index ∧ index < 0x8148 then
      (if sub ≤ 8 then bits v 63 49 == 0 else !bit v 9 && decide (bits v 8 0 < 128))
    else if 0x8200 ≤ index ∧ index < 0x8208 then
      (if sub ≤ 16 then bits v 63 49 == 0 else !bit v 9 && decide (bits v 8 0 < 256))
    else true

/-- Cores in service on the device (R12). -/
def State.coresInService (s : State) : Nat :=
  64 - ((List.range 8).map (fun c => (s.safety.retired.filter (fun p => p / 9 == c)).length - 1)).sum

/-- A field summed over the partition configurations, with that of partition k as in v. -/
def State.cfgSum (s : State) (k v hi lo : Nat) : Nat :=
  ((List.range 16).map (fun j => bits (if j = k then v else s.od 0x4020 (j + 1)) hi lo)).sum

/-- Whether a configuration lies in the table "Supported cell configurations" (R361). -/
def cellSupported (v : Nat) : Bool :=
  let n := bits v 13 5
  let a := bits v 20 14
  let l := bits v 24 21
  if cfgMu v = 1 then inR 1 273 n && inR 1 64 a && inR 1 8 l
  else cfgMu v == 3 && inR 1 264 n && inR 1 8 a && inR 1 4 l

/-- The configurations of the cells that a write would leave enabled. -/
def State.enabledWith (s : State) (c v : Nat) : List (Nat × Nat) :=
  ((List.range 3).map (fun i => (i, if i = c then v else s.od 0x5000 (i + 1)))).filter (fun e => bit e.2 0)

/-- Resource elements per second of a cell (R392). -/
def rePerSec (v : Nat) : Nat := bits v 13 5 * 168 * (if cfgMu v = 3 then 8000 else 2000)

/-- The capacity rule of R392: matrix rate and LLR rate. -/
def State.capacityOk (s : State) (l : List (Nat × Nat)) : Bool :=
  let rate := (l.map (fun e => rePerSec e.2 * Config.macsPerRe e.1)).sum
  let llr := (l.map (fun e => rePerSec e.2 * bits e.2 24 21 * 8)).sum
  let n := s.ncores 0 + s.od 0x4030 1
  decide (rate * Config.receiverPasses * 100 ≤ n * 85 * 32768 * (s.od 0x2110 1 * 1000000)) &&
    decide (llr ≤ 54000000000)

/-- Whether a write may enable or change a cell (R361, R363, R392). -/
def State.cellWriteOk (s : State) (c v : Nat) : Bool :=
  let old := s.od 0x5000 (c + 1)
  let l := s.enabledWith c v
  (if bit old 0 then old / 2 == v / 2 else true) &&
    (if bit v 0 ∧ ¬ bit old 0 then
      cellSupported v && decide ((l.filter (fun e => cfgMu e.2 == 3)).length ≤ 2) && s.capacityOk l
     else true)

/-- Whether a cell or the far-reach link is enabled (R463). -/
def State.radioActive (s : State) : Bool :=
  (List.range 3).any (fun c => bit (s.od 0x5000 (c + 1)) 0) || s.frOn

/-- The timebase with the steps and sets not yet applied taken into account, in units of 2^-16 ns (R463). -/
def State.projected (s : State) : Int :=
  s.time.pend.foldl (fun (t : Int) a => match a with
    | .inc _ => t
    | .step d => t + d
    | .set v => (time16 v : Int)) ((s.time.now / 2 ^ 16 : Nat) : Int)

/-- Jobs of partition k that are started or suspended (R513). -/
def State.hasJobs (s : State) (k : Nat) : Bool := s.jobs.any (fun j => j.part == k && j.st != .waiting)

/-- Whether an address lies in partition 0's HBM segments. -/
def State.inP0Hbm (s : State) (a : Nat) : Bool := decide (a < 96 * 2 ^ 30) && sget s.segOwner zeroD (a / 2 ^ 30) == 1

/-- A safety-partition bitmap that R513 allows. -/
def State.safetyWriteOk (s : State) (v : Nat) : Bool :=
  !bit v 0 && (List.range 16).all (fun k =>
    (!bit v k || s.ncores k % 2 == 0) && (bit v k == s.isSafety k || !s.hasJobs k))

/-- Whether the entry's chapter lets a write in range through. -/
def State.odConsistent (s : State) (by_ : Requester) (index sub v : Nat) : Bool :=
  match index with
  | 0x3200 => !s.safety.retired.contains (sub - 1)
  | 0x4020 =>
    let k := sub - 1
    decide (s.cfgSum k v 6 0 ≤ s.coresInService) && decide (s.cfgSum k v 23 16 ≤ 96) &&
      !(s.isSafety k && bits v 6 0 % 2 == 1)
  | 0x4040 => v != 0
  | 0x4180 => !(bit v 1 && !bit (s.od 0x4020 sub) 15)
  | 0x5000 => s.cellWriteOk (sub - 1) v
  | 0x5010 => v == 0 || decide (bits v 15 0 < bits v 31 16)
  | 0x5800 =>
    if sub = 1 then !(s.frOn && decide (bits v 27 25 ≠ bits (s.od 0x5800 1) 27 25 ∨ bits v 23 1 ≠ bits (s.od 0x5800 1) 23 1))
    else if sub = 5 then s.inP0Hbm v
    else true
  | 0x6020 => !bit v 0 || (s.inP0Hbm (bits v 348 297) && s.inP0Hbm (bits v 348 297 + bits v 296 281 * 2 ^ 20 - 1))
  | 0x6100 =>
    let servo := by_ == .crown || s.srcKind == 0
    match sub with
    | 2 => servo
    | 3 => servo && decide (0 ≤ s.projected + sext 64 v) && !(s.radioActive && decide (65536000 < (sext 64 v).natAbs))
    | 4 => servo && !s.radioActive
    | 10 => v == s.od 0x6100 10 || !(List.range 3).any (fun c => bit (s.od 0x5000 (c + 1)) 0)
    | _ => true
  | 0x7000 => s.safetyWriteOk v
  | 0x7030 =>
    if sub = 5 then
      (match v with
       | 2 => s.od 0x7030 2 == 4
       | 3 => s.safety.activeSlot != s.safety.bootDefault
       | 4 => s.safety.activeSlot != s.safety.bootDefault
       | _ => true)
    else true
  | _ => true

/-- The answer to a write (R483): every write is REFUSED while power fails (R536). An entry's default is in range
(log 80). -/
def State.odWriteErr (s : State) (by_ : Requester) (index sub len v : Nat) : Nat :=
  if s.power.powerFail then odRefused
  else if s.odGate by_ index sub true ≠ odOk then s.odGate by_ index sub true
  else
    match entryOf index sub with
    | none => odNoSub
    | some e =>
      if e.acc = .ro ∨ e.acc = .const then odReadOnly
      else if len ≠ e.ty.bytes then odLength
      else if e.ty = .bool ∧ 1 < v then odRange
      else if v ≠ e.dflt ∧ ¬ s.odInRange index sub v then odRange
      else if ¬ s.odConsistent by_ index sub v then odRefused
      else odOk

/-! ### What an accepted write does -/

/-- Signal core control (R332, R359); a core of a lost quad starts no more (R533). -/
def State.sigControl (s : State) (g : SigId) (v : Nat) : State :=
  let entry := BitVec.ofNat 16 (bits v 31 16)
  if bit v 0 then
    if (s.sig g).running ∨ s.power.quadLost.contains (g.val / 8) then s
    else s.setSig g { Sig.reset with
      entry := entry, pc := BitVec.ofNat 32 (4 * entry.toNat), run := true, running := true }
  else (s.sigStop g).setSig g { (s.sigStop g).sig g with entry := entry }

/-- The state that a 2-bit code asks for (table "Bank state fields"). -/
def bankAsked (v i : Nat) : BankSt :=
  match bits v (2 * i + 1) (2 * i) with
  | 0 => .on
  | 1 => .retain
  | _ => .off

/-- The states asked of n banks from b0 on (R192): the accesses that wait at a bank now are earlier than the change. -/
def State.askBanks (s : State) (b0 n v : Nat) : State :=
  let changed := fun (x : Stalled) => (List.range n).any (fun i => x.at_ (b0 + i) && bankAsked v i != (s.bank (b0 + i)).req)
  (List.range n).foldl (fun st i => st.setBank (b0 + i) { st.bank (b0 + i) with req := bankAsked v i })
    { s with stalled := s.stalled.map (fun x => if changed x then { x with late := false } else x) }

/-- A new training of a link begins (R422, R454). -/
def State.trainLink (s : State) (l : LinkId) : State :=
  let x := s.link l
  s.setLink l { LinkSt.reset with training := true, good := x.good, passes := x.passes, txq := x.txq }

/-- Every enabled link and tunnel trains anew (R422). -/
def State.trainAll (s : State) : State :=
  let s1 := (List.finRange 4).foldl (fun st l => if bit (st.linkCfg l) 0 then st.trainLink l else st) s
  (List.finRange 8).foldl (fun st t => if bit (st.tunCfg t) 0 then st.setTun t { TunSt.reset with txq := (st.tun t).txq } else st)
    s1

/-- A link's configuration in force: enabled, disabled, or its lanes changed (R435). -/
def State.linkWritten (s : State) (l : LinkId) (old : Nat) : State :=
  let cfg := s.linkCfg l
  if ¬ bit cfg 0 then (if bit old 0 then s.linkDown l else s)
  else if ¬ bit old 0 then s.trainLink l
  else s.relane l

/-- A cell enabled starts later (CELL_START); one disabled stops after the slots in flight (R363). -/
def State.cellWritten (s : State) (c : CellId) (v : Nat) : State :=
  let x := s.cell c
  if bit v 0 then s.setCell c { x with stopping := false }
  else if x.running then
    s.setCell c (if x.slots.isEmpty then { x with running := false } else { x with stopping := true })
  else s

/-- The far-reach link enabled or disabled (R421): transmissions that wait are answered DISABLED. -/
def State.frWritten (s : State) (old v : Nat) : State :=
  if bit v 0 then
    (if bit old 0 then s else { s with fr := { s.fr with rxEn := true } })
  else
    let s1 := { s with fr := { s.fr with
      txEn := false, rxEn := false, gain := 0, rx := [], txBusy := false, windows := [], deferred := [], jesdUp := false } }
    s.fr.deferred.foldl (fun st x => st.txStatus x.1 x.2 3 0) s1

/-- A firmware command (R539): INSTALL begins, HANDOVER and REVERT are asked for, CONFIRM ends the trial. -/
def State.firmware (s : State) (v : Nat) : State :=
  match v with
  | 1 => s.setOd 0x7030 2 2
  | 2 => { s with safety := { s.safety with reqHandover := true, reqRevert := false } }
  | 3 => ({ s with safety := { s.safety with bootDefault := s.safety.activeSlot } }).setOd 0x7030 2 0
  | 4 => { s with safety := { s.safety with reqHandover := true, reqRevert := true } }
  | _ => s

/-- A Visor counter written: COUNT replaced, OVF cleared where 1 is written (R511). -/
def counterWrite (old v : Nat) : Nat := v % 2 ^ 48 + (if bit old 48 ∧ ¬ bit v 48 then 2 ^ 48 else 0)

/-- Whether a Visor sub-index is a counter's value. -/
def isCounter (index sub : Nat) : Bool :=
  if index = 0x8300 then decide (sub ≤ 32) else if index < 0x8200 then decide (sub ≤ 8) else decide (sub ≤ 16)

/-- Whether an index is a Visor group. -/
def isVisor (index : Nat) : Bool :=
  index == 0x8300 || decide (0x8100 ≤ index ∧ index < 0x8148) || decide (0x8200 ≤ index ∧ index < 0x8208)

/-- The state after an accepted write. -/
def State.odApply (s : State) (index sub v : Nat) : State :=
  let s1 := s.setOd index sub v
  match index with
  | 0x1100 => if sub ≤ 2 then s.holdCan.setOd index sub v else s1
  | 0x2400 => if sub = 2 then (if v = 1 then { s with power := { s.power with alertLow := false } } else s) else s1
  | 0x3100 => s.modCoreAt (sub - 1) (fun c => { c with flags := c.flags.w1c v })
  | 0x3110 => if h : sub - 1 < 32 then s.setSig ⟨sub - 1, h⟩ { s.sig ⟨sub - 1, h⟩ with flags := (s.sig ⟨sub - 1, h⟩).flags.w1c v } else s
  | 0x3120 => if h : sub - 1 < 32 then s.sigControl ⟨sub - 1, h⟩ v else s
  | 0x3200 => s1.askBanks (4 * (sub - 1)) 4 v
  | 0x3210 => s1.askBanks (288 + 8 * (sub - 1)) 8 v
  | 0x3220 => s1.askBanks (352 + 4 * (sub - 1)) 4 v
  | 0x4020 => s1.applyPartition (sub - 1)
  | 0x4180 => s.setOd index sub (v % 8)
  | 0x5000 => if h : sub - 1 < 3 then s1.cellWritten ⟨sub - 1, h⟩ v else s1
  | 0x5800 => if sub = 1 then s1.frWritten (s.od 0x5800 1) v else s1
  | 0x6000 => s1.trainAll
  | 0x6002 => if h : sub - 1 < 4 then s1.linkWritten ⟨sub - 1, h⟩ (s.od 0x6002 sub) else s1
  | 0x6020 =>
    if h : sub - 1 < 8 then
      s1.setTun ⟨sub - 1, h⟩ (if bit v 0 then s.tun ⟨sub - 1, h⟩ else TunSt.reset)
    else s1
  | 0x6100 =>
    match sub with
    | 2 => { s1 with time := { s1.time with pend := s1.time.pend ++ [.inc v] } }
    | 3 => { s with time := { s.time with pend := s.time.pend ++ [.step (sext 64 v)] } }
    | 4 => { s with time := { s.time with pend := s.time.pend ++ [.set v] } }
    | _ => s1
  | 0x7030 => if sub = 5 then s.firmware v else s1
  | _ =>
    if isVisor index then
      let k := odKey index sub
      { s with visor := sput s.visor zeroD k (if isCounter index sub then counterWrite (sget s.visor zeroD k) v else v) }
    else s1

/-! ### Replies and the service -/

/-- The bytes of an access frame's reply as a MGMT payload: the frame of R488 (log 85). -/
def framePayload (f : AccFrame) : Nat :=
  f.cmd % 256 + f.arg % 256 * 2 ^ 8 + f.index % 65536 * 2 ^ 16 + f.sub % 256 * 2 ^ 32 + f.len % 65536 * 2 ^ 40 +
    f.data % 256 ^ f.dlen * 2 ^ 64

/-- A mailbox of a function, or Crown's window. -/
def State.mailbox (s : State) (f : Option FuncId) : Mailbox :=
  match f with
  | some n => sget s.host.mail (fun _ => Mailbox.reset) n.val
  | none => s.host.window

/-- The state with a mailbox replaced. -/
def State.setMailbox (s : State) (f : Option FuncId) (m : Mailbox) : State :=
  match f with
  | some n => { s with host := { s.host with mail := sput s.host.mail (fun _ => Mailbox.reset) n.val m } }
  | none => { s with host := { s.host with window := m } }

/-- The result of an access sent where it belongs. -/
def State.reply (s : State) (to_ : ReplyTo) (index sub err len value : Nat) : State :=
  match to_ with
  | .direct b => s.emit (.odReply b index sub err len value)
  | .mail f =>
    let m := s.mailbox f
    if m.busy then
      s.setMailbox f { m with
        busy := false, done := true, err := err, rlen := len
        data := if len = 0 then m.data else setBits m.data (8 * len - 1) 0 value }
    else s
  | .frame path cmd req => s.emit (.accFrame (outPath path) req ⟨cmd % 128 + 128, err, index, sub, len, len, value⟩)
  | .mgmt hdr cmd =>
    let n := if len ≤ 1016 then len else 0
    s.post ⟨mkHdr 3 0x22 (hSrc hdr) s.nodeId 0 (hTag hdr) ((n + 15) / 8) 0,
      framePayload ⟨cmd % 128 + 128, err, index, sub, len, n, value⟩⟩

/-- A write served: checked, in force, and acknowledged, an RWP entry's once its persisted copy is complete (R485). -/
def State.odWrite (s : State) (by_ : Requester) (to_ : ReplyTo) (index sub len v : Nat) : State :=
  let e := s.odWriteErr by_ index sub len v
  if e ≠ odOk then s.reply to_ index sub e 0 0
  else
    let s1 := s.odApply index sub v
    if (entryOf index sub).any (fun x => x.acc == .rwp) then
      { s1 with host := { s1.host with persists := s1.host.persists ++ [⟨to_, index, sub, s.od index sub, v⟩] } }
    else s1.reply to_ index sub odOk 0 0

end Sys2Proof.Machine
end

