-- ==== Sys2Proof/Machine/Access.lean ====
section
/-! DEFINITION. The ways to the dictionary: mailboxes, CAN and in-band frames, MGMT messages, and the rows that are writes
of one entry (R484, R485, R487 to R492, R576). -/

namespace Sys2Proof.Machine

/-! ### One access -/

/-- The requester that a path stands for (R482). -/
def pathRequester : Path → Requester
  | .can b _ => .can b
  | .inband src => .inband src

/-- The requester that a mailbox stands for (R492, R576). -/
def mailRequester : Option FuncId → Requester
  | none => .crown
  | some f => if h : f.val - 1 < 16 then (if f.val = 0 then .pf else .vf ⟨f.val - 1, h⟩) else .pf

/-- Who makes an access. -/
def accessBy : OdAccess → Requester
  | .write b _ _ _ _ _ => b
  | .mail f _ _ => mailRequester f
  | .frame p _ _ => pathRequester p
  | .mgmt _ n _ => .mgmt n

/-- A mailbox command performed (R492). -/
def State.mailAccess (s : State) (f : Option FuncId) (cmd data : Nat) : State :=
  let by_ := mailRequester f
  let index := bits cmd 23 8
  let sub := bits cmd 7 0
  if bit cmd 62 then
    let len := bits cmd 61 49
    s.odWrite by_ (.mail f) index sub len (data % 256 ^ len)
  else
    let r := s.odRead by_ index sub
    s.reply (.mail f) index sub r.1 r.2.1 r.2.2

/-- Data bytes of an expedited value and of a segment on a path (R488, R491). -/
def maxValue : Path → Nat
  | .can _ _ => 56
  | .inband _ => 1024
def maxSegment : Path → Nat
  | .can _ _ => 62
  | .inband _ => 1024

/-- The open transfer of a path (R489). -/
def State.xferOf (s : State) (p : Path) : Option Xfer := s.host.xfers.find? (fun x => x.path == p)

/-- The state with a path's transfer replaced or ended. -/
def State.setXfer (s : State) (p : Path) (x : Option Xfer) : State :=
  State.freeCan { s with host := { s.host with xfers := s.host.xfers.filter (fun y => y.path != p) ++ x.toList } }

/-- A response without data to a frame. -/
def State.answer (s : State) (p : Path) (req : Nat) (f : AccFrame) (err : Nat) : State :=
  s.reply (.frame p f.cmd req) f.index f.sub err 0 0

/-- The segments of a block from number `seq` on, n of them at most, and the number after the last (R489). -/
def State.sendBlock (s : State) (p : Path) (req : Nat) (x : Xfer) (seq : Nat) : Nat → Nat × State
  | 0 => (seq, s)
  | n + 1 =>
    let z := maxSegment p
    if x.len ≤ seq * z then (seq, s)
    else
      let k := min z (x.len - seq * z)
      (s.emit (.accFrame (outPath p) req ⟨4, seq % 256, x.index, x.sub, x.len, k, x.data / 256 ^ (seq * z) % 256 ^ k⟩)).sendBlock
        p req x (seq + 1) n

/-- A segment of an open write: taken where its SEQ is the expected one, acknowledged at the end of a block with the next
SEQ expected; the last one performs the write (R489; log 87). -/
def State.takeSegment (s : State) (p : Path) (req : Nat) (x : Xfer) (f : AccFrame) : State :=
  let got := min (x.seq * maxSegment p) x.len
  let k := min (min f.dlen (maxSegment p)) (x.len - got)
  if f.arg ≠ x.seq % 256 ∨ k ≠ min (maxSegment p) (x.len - got) then (s.setXfer p none).answer p req f odProtocol
  else
    let data := x.data + f.data % 256 ^ k * 256 ^ got
    if x.len ≤ got + k then
      (s.setXfer p none).odWrite (pathRequester p) (.frame p 4 req) x.index x.sub x.len data
    else
      let s1 := s.setXfer p (some { x with seq := x.seq + 1, data := data })
      if (x.seq + 1) % 8 = 0 then
        s1.emit (.accFrame (outPath p) req ⟨0x84, odOk, x.index, x.sub, x.len, 1, (x.seq + 1) % 256⟩)
      else s1

/-- An access frame without an open transfer (R488, R489). -/
def State.openFrame (s : State) (p : Path) (req : Nat) (f : AccFrame) : State :=
  let by_ := pathRequester p
  match f.cmd with
  | 1 =>
    let r := s.odRead by_ f.index f.sub
    if r.1 ≠ odOk then s.answer p req f r.1
    else if r.2.1 ≤ maxValue p then s.reply (.frame p 1 req) f.index f.sub odOk r.2.1 r.2.2
    else
      (s.setXfer p (some ⟨p, req, false, f.index, f.sub, r.2.1, 0, r.2.2⟩)).emit
        (.accFrame (outPath p) req ⟨0x81, odOk, f.index, f.sub, r.2.1, 0, 0⟩)
  | 2 =>
    if maxValue p < f.len then s.answer p req f odLength
    else if f.dlen < f.len then s.answer p req f odProtocol
    else s.odWrite by_ (.frame p 2 req) f.index f.sub f.len (f.data % 256 ^ f.len)
  | 3 =>
    if f.len = 0 ∨ 4096 < f.len then s.answer p req f odLength
    else (s.setXfer p (some ⟨p, req, true, f.index, f.sub, f.len, 0, 0⟩)).answer p req f odOk
  | 6 => s
  | _ => s.answer p req f odProtocol

/-- An access frame (R489): while a transfer is open, its own frames and ABORT pass, any other request answers BUSY. -/
def State.frameAccess (s : State) (p : Path) (req : Nat) (f : AccFrame) : State :=
  match s.xferOf p with
  | none => s.openFrame p req f
  | some x =>
    if f.cmd = 6 then s.setXfer p none
    else if x.isWrite ∧ f.cmd = 4 then s.takeSegment p req x f
    else if ¬ x.isWrite ∧ f.cmd = 5 then
      let r := s.sendBlock p req x x.seq 8
      r.2.setXfer p (if x.len ≤ r.1 * maxSegment p then none else some { x with seq := r.1 })
    else s.answer p req f odBusy

/-- A MGMT request (R428, R482): a read or a write of one value. -/
def State.mgmtAccess (s : State) (hdr : Word128) (node : Nat) (f : AccFrame) : State :=
  let by_ : Requester := .mgmt node
  match f.cmd with
  | 1 =>
    let r := s.odRead by_ f.index f.sub
    s.reply (.mgmt hdr 1) f.index f.sub r.1 r.2.1 r.2.2
  | 2 =>
    if f.dlen < f.len then s.reply (.mgmt hdr 2) f.index f.sub odProtocol 0 0
    else s.odWrite by_ (.mgmt hdr 2) f.index f.sub f.len (f.data % 256 ^ f.len)
  | c => if c < 128 then s.reply (.mgmt hdr c) f.index f.sub odProtocol 0 0 else s

/-- An access performed. -/
def State.perform (s : State) (a : OdAccess) : State :=
  match a with
  | .write b t i sub len v => s.odWrite b t i sub len v
  | .mail f cmd data => s.mailAccess f cmd.toNat data
  | .frame p req f => s.frameAccess p req f
  | .mgmt hdr n f => s.mgmtAccess hdr n f

/-- Whether a transport is up at all: a CAN bus that is enabled, in-band management with its VLAN set (R487, R491). -/
def State.transportUp (s : State) (by_ : Requester) : Bool :=
  match by_ with
  | .can b => bit (s.od 0x1100 3) b.val
  | .inband _ => decide (s.od 0x1110 1 ≠ 0)
  | _ => true

/-- An access as it arrives: not answered before CROWN, held while Crown restarts or hands over (R535, R539, R554;
log 84), else performed at its place in the order of arrival (R484). -/
def State.access (s : State) (a : OdAccess) : State :=
  let by_ := accessBy a
  if ¬ s.answers by_ ∨ ¬ s.transportUp by_ then s
  else if s.safety.crown ≠ .running then { s with host := { s.host with waiting := s.host.waiting ++ [a] } }
  else s.perform a

/-- A write of one entry by a requester, at the entry's length. -/
def State.write (s : State) (by_ : Requester) (index sub v : Nat) : State :=
  let len := match entryOf index sub with
    | some e => e.ty.bytes
    | none => 0
  s.access (.write by_ (.direct by_) index sub len (v % 256 ^ len))

/-! ### CAN and in-band frames -/

/-- Whether a frame on a path is a request to this node: on CAN, an FD frame under 0x400 + N at the rate in force; classical
frames, remote frames and identifiers of 29 bits are ignored (R487). -/
def State.hears (s : State) : Path → Bool
  | .can _ h => h == s.canHead 0x400
  | .inband _ => true

/-- A frame of command `cmd` on a path; a frame of another command is no such event (log 7). -/
def State.frameRow (s : State) (cmd : Nat) (p : Path) (f : AccFrame) : State :=
  if f.cmd = cmd ∧ s.hears p then s.access (.frame p 0 f) else s

/-- CAN_READ (R488). -/
def execCanRead (path : Path) (f : AccFrame) (s : State) : Host.Outcome State Fault Refusal := .next (s.frameRow 1 path f)
/-- CAN_WRITE (R488). -/
def execCanWrite (path : Path) (f : AccFrame) (s : State) : Host.Outcome State Fault Refusal := .next (s.frameRow 2 path f)
/-- WRITE_START (R489). -/
def execWriteStart (path : Path) (f : AccFrame) (s : State) : Host.Outcome State Fault Refusal := .next (s.frameRow 3 path f)
/-- SEGMENT (R489). -/
def execSegment (path : Path) (f : AccFrame) (s : State) : Host.Outcome State Fault Refusal := .next (s.frameRow 4 path f)
/-- NEXT (R489). -/
def execNextBlock (path : Path) (f : AccFrame) (s : State) : Host.Outcome State Fault Refusal := .next (s.frameRow 5 path f)
/-- ABORT (R489). -/
def execAbortTransfer (path : Path) (f : AccFrame) (s : State) : Host.Outcome State Fault Refusal := .next (s.frameRow 6 path f)

/-- TRANSFER_TIMEOUT (R490): the open transfer ends with an ABORT that carries TIMEOUT. -/
def execTransferTimeout (path : Path) (s : State) : Host.Outcome State Fault Refusal :=
  .next (match s.xferOf path with
    | none => s
    | some x => (s.setXfer path none).emit (.accFrame (outPath path) x.req ⟨6, odTimeout, x.index, x.sub, x.len, 0, 0⟩))

/-- Whether an in-band datagram is accepted (R491). -/
def State.datagramOk (s : State) (d : Datagram) : Bool :=
  let allow := s.od 0x1110 3
  decide (s.od 0x1110 1 ≠ 0) && d.vlan == s.od 0x1110 1 && d.port.val == s.od 0x1110 2 &&
    d.secured && d.sa == s.od 0x1110 4 && d.dstIp == s.od 0x1110 7 &&
    (List.range 8).any (fun i =>
      let a := bits allow (128 * i + 127) (128 * i)
      decide (a ≠ 0) && a == d.srcIp)

/-- IN_BAND_DATAGRAM (R491): checked, and its frame performed; any other datagram to that port is dropped and counted. -/
def execInBandDatagram (d : Datagram) (s : State) : Host.Outcome State Fault Refusal :=
  .next (if ¬ s.datagramOk d ∨ d.version ≠ 1 ∨ d.kind ≠ 0 then s.countDev 0x051
    else s.access (.frame (.inband d.srcIp) d.reqId d.frame))

/-- MGMT (R428, R482): a request from another node's Crown; its answer ends here. -/
def execMgmt (m : Msg) (f : AccFrame) (s : State) : Host.Outcome State Fault Refusal :=
  .next (if hType m.hdr ≠ 0x22 ∨ hDst m.hdr ≠ s.nodeId then s
    else s.take m (fun s1 => s1.access (.mgmt m.hdr (hSrc m.hdr) f)))

/-! ### Mailboxes (R492, R576) -/

/-- A command written to a mailbox with GO set: ignored while BUSY. Crown's window was written by MEM_WRITE, so there the
command waiting in it is performed. -/
def State.mailRow (s : State) (f : Option FuncId) (write : Bool) (cmd : BitVec 64) (data : Nat) : State :=
  let m := s.mailbox f
  match f with
  | none => if m.busy ∧ bit m.cmd 62 = write then s.access (.mail none (BitVec.ofNat 64 m.cmd) m.data) else s
  | some _ =>
    if m.busy ∨ ¬ s.host.pcieUp ∨ bit cmd.toNat 63 = false ∨ bit cmd.toNat 62 ≠ write then s
    else
      let m1 := { m with
        cmd := cmdHeld cmd.toNat, busy := true, done := false, data := if write then data % 256 ^ 4096 else m.data }
      (s.setMailbox f m1).access (.mail f cmd m1.data)

/-- OD_READ (R492). -/
def execOdRead (f : Option FuncId) (cmd : BitVec 64) (s : State) : Host.Outcome State Fault Refusal :=
  .next (s.mailRow f false cmd 0)

/-- OD_WRITE (R492). -/
def execOdWrite (f : Option FuncId) (cmd : BitVec 64) (data : Nat) (s : State) : Host.Outcome State Fault Refusal :=
  .next (s.mailRow f true cmd data)

/-- DICTIONARY_WRITE (R484). -/
def execDictionaryWrite (by_ : Requester) (index sub len v : Nat) (s : State) : Host.Outcome State Fault Refusal :=
  .next (s.access (.write by_ (.direct by_) index sub len v))

/-- A write acknowledged that leaves a cell enabled which does not run: from here its 10 ms count (R363). -/
def State.cellAcked (s : State) (index sub : Nat) : State :=
  if h : index = 0x5000 ∧ sub - 1 < 3 then
    let c : CellId := ⟨sub - 1, h.2⟩
    if bit (s.cellCfg c) 0 ∧ ¬ (s.cell c).running then s.setCell c { s.cell c with enabledAt := some s.time.now } else s
  else s

/-- PERSIST_COMPLETE (R485, R538): the new persisted copy of the oldest write is whole, and the write is acknowledged. -/
def execPersistComplete (s : State) : Host.Outcome State Fault Refusal :=
  .next (match s.host.persists with
    | [] => s
    | x :: rest =>
      let s1 := { s with
        dictP := sput s.dictP odDef (odKey x.index x.sub) x.value
        host := { s.host with persists := rest } }
      ((s1.cellAcked x.index x.sub).emit (.flash (odKey x.index x.sub) x.value)).reply x.to_ x.index x.sub odOk 0 0)

/-! ### Writes of one entry -/

/-- BANK_STATE_WRITE (R194, R195): 0x3200, 0x3210 or 0x3220. -/
def execBankStateWrite (by_ : Requester) (index : Fin 3) (unit v : Nat) (s : State) : Host.Outcome State Fault Refusal :=
  .next (s.write by_ (0x3200 + 0x10 * index.val) (unit + 1) v)
/-- PARTITION_CONFIG_WRITE (R293 to R295). -/
def execPartitionConfigWrite (by_ : Requester) (k : PartId) (v : Nat) (s : State) : Host.Outcome State Fault Refusal :=
  .next (s.write by_ 0x4020 (k.val + 1) v)
/-- TIMING_LOCK_WRITE (R287). -/
def execTimingLockWrite (by_ : Requester) (k : PartId) (v : Nat) (s : State) : Host.Outcome State Fault Refusal :=
  .next (s.write by_ 0x4180 (k.val + 1) v)
/-- SIGNAL_CORE_RUN (R332, R359): RUN = 1 with ENTRY. -/
def execSignalCoreRun (by_ : Requester) (g : SigId) (entry : BitVec 16) (s : State) : Host.Outcome State Fault Refusal :=
  .next (s.write by_ 0x3120 (g.val + 1) (entry.toNat * 2 ^ 16 + 1))
/-- SIGNAL_CORE_STOP (R359): RUN = 0. -/
def execSignalCoreStop (by_ : Requester) (g : SigId) (entry : BitVec 16) (s : State) : Host.Outcome State Fault Refusal :=
  .next (s.write by_ 0x3120 (g.val + 1) (entry.toNat * 2 ^ 16))
/-- POST_BASE_WRITE (R360). -/
def execPostBaseWrite (by_ : Requester) (g : SigId) (v : BitVec 1024) (s : State) : Host.Outcome State Fault Refusal :=
  .next (s.write by_ 0x3140 (g.val + 1) v.toNat)
/-- CELL_CONFIG_WRITE (R362, R363). -/
def execCellConfigWrite (by_ : Requester) (c : CellId) (v : Nat) (s : State) : Host.Outcome State Fault Refusal :=
  .next (s.write by_ 0x5000 (c.val + 1) v)
/-- FAR_REACH_CONFIG_WRITE (R421): an entry of 0x5800 or 0x5810. -/
def execFarReachConfigWrite (by_ : Requester) (index sub v : Nat) (s : State) : Host.Outcome State Fault Refusal :=
  .next (if index = 0x5800 ∨ index = 0x5810 then s.write by_ index sub v else s)
/-- NODE_ID_WRITE (R422). -/
def execNodeIdWrite (by_ : Requester) (v : Nat) (s : State) : Host.Outcome State Fault Refusal :=
  .next (s.write by_ 0x6000 1 v)
/-- ROUTE_TABLE_WRITE (R423). -/
def execRouteTableWrite (by_ : Requester) (v : Nat) (s : State) : Host.Outcome State Fault Refusal :=
  .next (s.write by_ 0x6010 1 v)
/-- LINK_CONFIG_WRITE (table "Link configuration"). -/
def execLinkConfigWrite (by_ : Requester) (l : LinkId) (v : Nat) (s : State) : Host.Outcome State Fault Refusal :=
  .next (s.write by_ 0x6002 (l.val + 1) v)
/-- TUNNEL_CONFIG_WRITE (R437). -/
def execTunnelConfigWrite (by_ : Requester) (t : TunnelId) (v : Nat) (s : State) : Host.Outcome State Fault Refusal :=
  .next (s.write by_ 0x6020 (t.val + 1) v)
/-- TB_INC_WRITE (R461). -/
def execTbIncWrite (by_ : Requester) (v : Nat) (s : State) : Host.Outcome State Fault Refusal :=
  .next (s.write by_ 0x6100 2 v)
/-- TB_STEP (R462, R463). -/
def execTbStep (by_ : Requester) (v : Nat) (s : State) : Host.Outcome State Fault Refusal := .next (s.write by_ 0x6100 3 v)
/-- TB_SET (R462, R463). -/
def execTbSet (by_ : Requester) (v : Nat) (s : State) : Host.Outcome State Fault Refusal := .next (s.write by_ 0x6100 4 v)
/-- TIME_SOURCE_WRITE (R466). -/
def execTimeSourceWrite (by_ : Requester) (v : Nat) (s : State) : Host.Outcome State Fault Refusal :=
  .next (s.write by_ 0x6100 6 v)
/-- FRAME_OFFSET_WRITE (R467). -/
def execFrameOffsetWrite (by_ : Requester) (v : Nat) (s : State) : Host.Outcome State Fault Refusal :=
  .next (s.write by_ 0x6100 0x0A v)
/-- PORT_LATENCY_WRITE (R470). -/
def execPortLatencyWrite (by_ : Requester) (q : PortId) (v : Nat) (s : State) : Host.Outcome State Fault Refusal :=
  .next (s.write by_ 0x6110 (q.val + 1) v)
/-- VISOR_COUNT_WRITE (R511): a counter's value. -/
def execVisorCountWrite (by_ : Requester) (index sub v : Nat) (s : State) : Host.Outcome State Fault Refusal :=
  .next (if isVisor index ∧ isCounter index sub then s.write by_ index sub v else s)
/-- VISOR_SELECT_WRITE (R510): a counter's select. -/
def execVisorSelectWrite (by_ : Requester) (index sub v : Nat) (s : State) : Host.Outcome State Fault Refusal :=
  .next (if isVisor index ∧ ¬ isCounter index sub then s.write by_ index sub v else s)
/-- VISOR_HOLD_WRITE (R510). -/
def execVisorHoldWrite (by_ : Requester) (v : Nat) (s : State) : Host.Outcome State Fault Refusal :=
  .next (s.write by_ 0x8000 1 v)
/-- SAFETY_PARTITION_WRITE (R513). -/
def execSafetyPartitionWrite (by_ : Requester) (v : Nat) (s : State) : Host.Outcome State Fault Refusal :=
  .next (s.write by_ 0x7000 1 v)
/-- INSTALL (R539). -/
def execInstall (by_ : Requester) (s : State) : Host.Outcome State Fault Refusal := .next (s.write by_ 0x7030 5 1)
/-- HANDOVER (R539). -/
def execHandover (by_ : Requester) (s : State) : Host.Outcome State Fault Refusal := .next (s.write by_ 0x7030 5 2)
/-- CONFIRM (R539). -/
def execConfirm (by_ : Requester) (s : State) : Host.Outcome State Fault Refusal := .next (s.write by_ 0x7030 5 3)
/-- REVERT (R539). -/
def execRevert (by_ : Requester) (s : State) : Host.Outcome State Fault Refusal := .next (s.write by_ 0x7030 5 4)
/-- ALERT_RELEASE (R569). -/
def execAlertRelease (by_ : Requester) (v : Nat) (s : State) : Host.Outcome State Fault Refusal :=
  .next (s.write by_ 0x2400 2 v)

end Sys2Proof.Machine
end

