-- ==== Sys2Proof/Machine/HostRows.lean ====
section
/-! DEFINITION. The host's side: job submission, ring registers, notices leaving, the journal, BAR2 and function resets
(R497, R500 to R509, R537). -/

namespace Sys2Proof.Machine

/-! ### Ring registers (R500 to R502) -/

/-- Whether a function has a ring at a BAR0 offset (table "BAR0 map"). -/
def hasRing (f off : Nat) : Bool :=
  off == 0x2000 ||
    (decide (0x2100 ≤ off ∧ off < 0x2500) && off % 0x20 == 0 && (f == 0 || decide (off < 0x2140))) ||
    (f == 0 && decide (0x2800 ≤ off ∧ off < 0x28A0) && off % 0x20 == 0)

/-- Whether the host produces a ring's entries: job rings, FR_TX, PKT_TX and PKT_RX (table "Ring kinds"). -/
def hostProduced (off : Nat) : Bool :=
  (decide (0x2100 ≤ off ∧ off < 0x2500) && off % 0x40 == 0) || off == 0x2820 || off == 0x2860 || off == 0x2880

/-- The queue set whose completion ring stands at an offset of a function. -/
def complQset (f off : Nat) : Option Nat :=
  if decide (0x2100 ≤ off ∧ off < 0x2500) && off % 0x40 == 0x20 then
    some (if f = 0 then off / 0x40 - 0x84 else f + 15)
  else none

/-- Room made in a ring: completions held for it go out. -/
def State.ringOpened (s : State) (f off : Nat) : State :=
  match complQset f off with
  | some q => s.flushHeld q (s.heldFor q).length
  | none => s

/-- A CFG value taken: HELD fields are ignored (R8), a LOG2N or VEC out of range leaves its field as it is (log 89). -/
def Ring.config (r : Ring) (f v : Nat) : Ring :=
  let log2n := bits v 4 0
  let vec := bits v 13 8
  { r with
    enable := bit v 31
    mod_ := bits v 23 16
    vec := if vec < (if f = 0 then 64 else 8) then vec else r.vec
    log2n := if 4 ≤ log2n ∧ log2n ≤ 16 then log2n else r.log2n }

/-- A ring disabled: its unconsumed entries are discarded, PROD and CONS are 0 (R502). -/
def Ring.disabled (r : Ring) : Ring := { r with enable := false, prod := 0, cons := 0, open_ := false, due := false }

/-- RING_CFG_WRITE (R501, R502): BASE at +0x00 or CFG at +0x08 of a register block; ignored while ENABLE is 1, but for a
write of ENABLE = 0. -/
def execRingCfgWrite (f : FuncId) (off v : Nat) (s : State) : Host.Outcome State Fault Refusal :=
  let blk := off - off % 0x20
  let r := s.ring f.val blk
  .next (if ¬ hasRing f.val blk ∨ ¬ s.host.pcieUp then s
    else if off % 0x20 = 0 then
      (if r.enable then s else s.setRing f.val blk { r with base := v % 2 ^ 64 / 4096 * 4096 })
    else if off % 0x20 = 8 then
      (if bit v 31 then
        (if r.enable then s else (s.setRing f.val blk (r.config f.val v)).ringOpened f.val blk)
       else s.setRing f.val blk (if r.enable then (r.config f.val v).disabled else r.config f.val v))
    else s)

/-- Whether a new index of the host is one that R502 lets pass: not backwards, PROD - CONS at most 2^LOG2N. -/
def Ring.indexOk (r : Ring) (old new prod cons : Nat) : Bool :=
  decide ((new + 2 ^ 32 - old) % 2 ^ 32 < 2 ^ 31) && decide ((prod + 2 ^ 32 - cons) % 2 ^ 32 ≤ 2 ^ r.log2n)

/-- A host index that R502 does not let pass. -/
def State.ringErr (s : State) (off : Nat) : State := s.warn 0x0151 none 0 0 off

/-- RING_CONS_WRITE (R502): the host's index of a ring that the device produces. -/
def execRingConsWrite (f : FuncId) (off : Nat) (cons : BitVec 32) (s : State) : Host.Outcome State Fault Refusal :=
  let r := s.ring f.val off
  .next (if ¬ hasRing f.val off ∨ hostProduced off ∨ ¬ r.enable ∨ ¬ s.host.pcieUp then s
    else if ¬ r.indexOk r.cons cons.toNat r.prod cons.toNat then s.ringErr off
    else (s.setRing f.val off { r with cons := cons.toNat }).ringOpened f.val off)

/-- PKT_TX_PROD (R502): entries posted into FR_TX, PKT_TX or PKT_RX. -/
def execPktTxProd (f : FuncId) (ring : Fin 5) (prod : BitVec 32) (s : State) : Host.Outcome State Fault Refusal :=
  let off := p0Ring ring.val
  let r := s.ring f.val off
  .next (if f.val ≠ 0 ∨ ¬ hostProduced off ∨ ¬ r.enable ∨ ¬ s.host.pcieUp then s
    else if ¬ r.indexOk r.prod prod.toNat prod.toNat r.cons then s.ringErr off
    else s.setRing 0 off { r with prod := prod.toNat })

/-! ### Job submission (R504 to R506) -/

/-- Whether n bytes from an address lie in a partition's HBM segments, or, in REDUCED, in canton 0 memory banks assigned to
it (R506, R555). -/
def State.ownsRange (s : State) (k a n : Nat) : Bool :=
  let last := a + (n - 1)
  if a < 96 * 2 ^ 30 then
    decide (last < 96 * 2 ^ 30) &&
      (List.range (last / 2 ^ 30 - a / 2 ^ 30 + 1)).all (fun i => sget s.segOwner zeroD (a / 2 ^ 30 + i) == k + 1)
  else
    s.power.level == 2 && decide (cantonBase 0 ≤ a ∧ last < cantonBase 1) &&
      (List.range (last % 2 ^ 36 / 2 ^ 20 - a % 2 ^ 36 / 2 ^ 20 + 1)).all (fun i =>
        sget s.bankOwner zeroD (a % 2 ^ 36 / 2 ^ 20 + i) == k + 1)

/-- A task entry as it lies in the task table. -/
def taskOf (w : Nat) : Task :=
  ⟨bits w 127 76, bits w 75 64, bits w 63 48, bits w 47 32, none, none, [], false⟩

/-- The task table of a descriptor. -/
def State.taskTable (s : State) (d : Nat) : List Nat :=
  (List.range (bits d 137 131)).map (fun t => s.rd (bits d 255 204 + 16 * t) 16)

/-- Why a descriptor is refused, 0 where it is not: the lowest code (R506; log 90). -/
def State.refusal (s : State) (k d : Nat) : Nat :=
  let n := bits d 137 131
  let a := bits d 255 204
  let al := bits d 123 120
  let head := bits d 3 0 ≠ 1 ∨ bits d 119 4 ≠ 0 ∨ bits d 130 129 = 3 ∨ n = 0 ∨ 64 < n ∨ al = 0 ∨ 2 < al
  let tableOk := a % 16 = 0 ∧ s.ownsRange k a (16 * n) = true
  let ts := s.taskTable d
  if head then 1
  else if tableOk ∧ ts.any (fun w => decide (bits w 31 0 ≠ 0)) then 1
  else if 16 ≤ k ∨ s.ncores k < n then 3
  else if ¬ tableOk then 4
  else if ts.any (fun w =>
      decide (bits w 75 64 ≠ 0) && (decide (bits w 127 76 % 4096 ≠ 0) ||
        !s.ownsRange k (bits w 127 76) (4096 * bits w 75 64))) then 4
  else if ts.any (fun w =>
      decide (1024 < bits w 75 64 ∨ bits w 47 32 = 0 ∨ 0x400000 < 64 * (bits w 63 48 + bits w 47 32))) then 5
  else 0

/-- One descriptor read from a job ring: a job that waits to start, or a completion REFUSED (R504, R506). -/
def State.submit (s : State) (q handle d : Nat) : State :=
  let c := s.refusal (s.qsetPart q) d
  if c ≠ 0 then s.complete q (bits d 319 256) handle c stRefused 0xFF
  else
    { s with jobs := s.jobs ++
        [⟨handle, q, s.qsetPart q, d, .waiting, bits d 128 127, 1, (s.taskTable d).map taskOf, [], 0, 0xFF, false, false, 0⟩] }

/-- JOB_RING_PROD (R502, R504 to R506): the descriptors up to PROD are read in ring order. -/
def execJobRingProd (f : FuncId) (set : Fin 16) (prod : BitVec 32) (descs : List (BitVec 512)) (s : State) :
    Host.Outcome State Fault Refusal :=
  let off := 0x2100 + 0x40 * set.val
  let q := if f.val = 0 then set.val else f.val + 15
  let r := s.ring f.val off
  let n := (prod.toNat + 2 ^ 32 - r.prod) % 2 ^ 32
  .next (if ¬ hasRing f.val off ∨ ¬ r.enable ∨ ¬ s.host.pcieUp then s
    else if ¬ r.indexOk r.prod prod.toNat prod.toNat r.cons then s.ringErr off
    else
      let s1 := s.setRing f.val off { r with prod := prod.toNat, cons := prod.toNat }
      (List.range n).foldl (fun st i =>
        st.submit q (q * 65536 + (r.prod + i) % 2 ^ 32 % 2 ^ r.log2n) (descs.getD i 0#512).toNat) s1)

/-! ### Notices and the journal (R496 to R498, R537) -/

/-- The state with a channel replaced. -/
def State.setChan (s : State) (ch : Fin 19) (c : Channel) : State :=
  { s with host := { s.host with chans := s.host.chans.set ch.val c } }

/-- A place open in a channel's queue: NOTICE_LOST takes it, with the next SEQ, where notices were dropped (R497; log 81). -/
def State.tellLost (s : State) (ch : Fin 19) : State :=
  let c := s.host.chans[ch.val]
  if c.recent = 0 then s
  else
    let seq := (c.seq + 1) % 2 ^ 16
    let n := noticeBits s.stamp seq ⟨1, 0x0150, none, 0, 0, 0, 0, c.recent⟩
    let s1 := s.setChan ch { c with seq := seq, queue := c.queue ++ [n], recent := 0 }
    { s1 with
      host := { s1.host with journalNew := s1.host.journalNew ++ [n] }
      power := { s1.power with
        alertLow := s1.power.alertLow || (ch.val == 0 && decide (s.od 0x2400 1 ≤ 1)) } }

/-- A notice sent on a channel, none where its transport has no room: a function's notice ring, the CAN buses, the in-band
destination (R495, R498). -/
def State.sendNotice (s : State) (ch : Fin 19) (n : Nat) : Option State :=
  if ch.val ≤ 16 then s.ringPut ch.val 0x2000 32 n false
  else if ch.val = 17 then
    (if Nat.land (s.od 0x1100 4) (s.od 0x1100 3) % 4 ≠ 0 ∧ s.power.level ≠ 0 then
      some (((List.finRange 2).filter (fun b => bit (Nat.land (s.od 0x1100 4) (s.od 0x1100 3)) b.val)).foldl
        (fun st b => st.emit (.canNotice b (s.canHead 0x100) n)) s)
     else none)
  else if s.od 0x1110 1 ≠ 0 ∧ s.od 0x1110 5 ≠ 0 ∧ s.power.level ≠ 0 then some (s.emit (.notice 18 n))
  else none

/-- NOTICE_SEND (R496, R497): the oldest waiting notice leaves. -/
def execNoticeSend (ch : Fin 19) (s : State) : Host.Outcome State Fault Refusal :=
  let c := s.host.chans[ch.val]
  .next (match c.queue with
    | [] => s
    | n :: rest =>
      match s.sendNotice ch n with
      | none => s
      | some s1 => (s1.setChan ch { c with queue := rest }).tellLost ch)

/-- The records not yet in flash appended to the journal. -/
def State.appendJournal (s : State) : State :=
  s.host.journalNew.foldl (fun st r => st.emit (.flash 0x10000000 r))
    { s with host := { s.host with journal := s.host.journal ++ s.host.journalNew, journalNew := [] } }

/-- JOURNAL_APPEND (R537). -/
def execJournalAppend (s : State) : Host.Outcome State Fault Refusal := .next s.appendJournal

/-! ### BAR2 (R500) -/

/-- The node-local HBM address behind an offset of a function's BAR2. -/
def State.bar2Addr (s : State) (f off : Nat) : Option Nat :=
  let a := if f = 0 then (if off < 96 * 2 ^ 30 then some off else none)
    else
      let k := s.qsetPart (f + 15)
      if 16 ≤ k then none
      else ((s.segsOf k)[off / 2 ^ 30]?).map (fun g => g * 2 ^ 30 + off % 2 ^ 30)
  match a with
  | some x => if s.segBacked (x / 2 ^ 30) then some x else none
  | none => none

/-- n bytes read through BAR2, a byte that maps nothing as all ones. -/
def State.bar2Read (s : State) (f off : Nat) : Nat → Nat
  | 0 => 0
  | n + 1 =>
    (match s.bar2Addr f off with
     | some a => (s.byte a).toNat
     | none => 0xFF) + 256 * s.bar2Read f (off + 1) n

/-- n bytes written through BAR2. -/
def State.bar2Write (s : State) (f off v : Nat) : Nat → State
  | 0 => s
  | n + 1 =>
    (match s.bar2Addr f off with
     | some a => s.wr a 1 (v % 256)
     | none => s).bar2Write f (off + 1) (v / 256) n

/-- BAR2_ACCESS (R500): a read that maps no byte gives all ones; a write that maps none is dropped and counted. A read of
an uncorrectable word gives a free value (log 91). -/
def execBar2Access (f : FuncId) (write : Bool) (off len data : Nat) (s : State) : Host.Outcome State Fault Refusal :=
  let mapped := (List.range len).any (fun i => (s.bar2Addr f.val (off + i)).isSome)
  .next (if ¬ s.host.pcieUp then s
    else if write then
      (if mapped then s.bar2Write f.val off data len else s.countDev 0x052)
    else if (List.range len).any (fun i => match s.bar2Addr f.val (off + i) with
        | some a => s.poisoned a 1
        | none => false) then
      s.takeFree.2.emit (.barData (s.takeFree.1 % 256 ^ len))
    else s.emit (.barData (s.bar2Read f.val off len)))

/-! ### Function resets (R508, R509) -/

/-- What a reset of function f does: its rings and its mailbox are disabled, its jobs stop at their next tile boundary and
are released without a completion. -/
def State.resetFunction (s : State) (f : Nat) : State :=
  let off := fun (e : Nat × Ring) => if e.1 / 65536 = f then (e.1, e.2.disabled) else e
  let s1 := { s with
    host := { s.host with
      rings := (s.host.rings.map off).filter (fun (e : Nat × Ring) => e.2 != Ring.reset)
      mail := s.host.mail.filter (fun (e : Nat × Mailbox) => e.1 != f)
      waiting := s.host.waiting.filter (fun a => match a with
        | .mail (some g) _ _ => g.val != f
        | _ => true) } }
  s1.dropJobs f

/-- What a reset of the physical function, or PERST#, does. -/
def State.resetAllFunctions (s : State) : State :=
  let s1 := (List.range 17).foldl State.resetFunction s
  { s1 with host := { s1.host with rings := [], mail := [], msixMask := [], msixPending := [] } }

/-- FUNCTION_LEVEL_RESET (R508). -/
def execFunctionLevelReset (f : FuncId) (s : State) : Host.Outcome State Fault Refusal :=
  .next (if f.val = 0 then s.resetAllFunctions else s.resetFunction f.val)

/-- PERST (R508, R549): every function reset; the link retrains, where the endpoint is past BOOT. -/
def execPerst (s : State) : Host.Outcome State Fault Refusal :=
  let s1 := s.resetAllFunctions
  .next { s1 with host := { s1.host with pcieUp := decide (s.power.level ≠ 0) } }

/-- PCIE_LINK_DOWN (R509). -/
def execPcieLinkDown (s : State) : Host.Outcome State Fault Refusal :=
  .next { s with host := { s.host with pcieUp := false } }

end Sys2Proof.Machine
end

