-- ==== Sys2Proof/Machine/Mitten.lean ====
section
/-! DEFINITION. Mitten pairs: comparison of tiles, votes and retries (R516 to R527, R534). -/

namespace Sys2Proof.Machine

/-! ### The tile of a pair -/

/-- A core at the start of a tile, as the undo log and the tile digest see it (R517, R522). -/
def Core.newTile (c : Core) : Core :=
  { c with
    tileDigest := 0
    actNo := 0
    reads := []
    replayAcq := []
    held := []
    undo := []
    undoRows := []
    undoBytes := 0
    retiredTile := false
    tileFault := none }

/-- Whether a core of a pair is lost with its canton (R534). -/
def State.coreLost (s : State) (p : Nat) : Bool := !s.safety.railOk.getD (p / 9) true

/-- Whether a core's part of the tile is at its end: retired, or stopped by a fault. -/
def Core.tileOver (c : Core) : Bool := c.retiredTile || c.mode == .faulted

/-- A core's digest, none where a fault spoils its tile (R521). -/
def Core.goodDigest (c : Core) : Option Nat :=
  if c.retiredTile ∧ c.tileFault = none ∧ c.mode ≠ .faulted then some c.tileDigest else none

/-- Whether both cores took the same command fault at the same command (R521). -/
def sameFault (a b : Core) : Bool :=
  a.mode == .faulted && b.mode == .faulted && a.frec.code == b.frec.code && a.frec.offset == b.frec.offset &&
    decide (a.frec.code ≠ 0x27 ∧ a.frec.code ≠ 0x43)

/-! ### External actions performed (R518, R520) -/

/-- One held action of core p performed. The old count that a SEM.ADD returns goes to the scratchpads of both cores
(R519). -/
def State.act (s : State) (p other : Nat) (a : HeldAct) : State :=
  match a with
  | .lite l => s.modCoreAt p (fun c => { c with lites := c.lites ++ [l] })
  | .add n d ret =>
    let old := s.semCount n
    let s1 := s.semAdd n d
    (match ret with
     | some off => (s1.wr (spBase p + off) 8 old).wr (spBase other + off) 8 old
     | none => s1)
  | .note sev u pay => s.noteNotice p sev u pay
  | .dma e d => s.submitDma e d p
  | .halt => s

/-- Whether a held action of core p can be performed: a full DMA queue and 16 outstanding LITEs hold it back (R217, R228). -/
def State.actRoom (s : State) (p : Nat) (a : HeldAct) : Bool :=
  match a with
  | .lite _ => decide ((s.coreAt p).lites.length < 16)
  | .dma e _ => decide ((s.dmaQ e).length < dmaDepth e)
  | _ => true

/-- Held actions of core p performed in decode order as far as there is room: the state and the actions still held. -/
def State.actList (s : State) (p other : Nat) : List HeldAct → State × List HeldAct
  | [] => (s, [])
  | a :: t => if s.actRoom p a then (s.act p other a).actList p other t else (s, a :: t)

/-- The held actions of core p performed, those that find no room kept for the next comparison. -/
def State.actAll (s : State) (p other : Nat) : State :=
  let r := s.actList p other (s.coreAt p).held
  r.1.modCoreAt p (fun c => { c with held := r.2 })

/-- A core of a pair past its comparison: it decodes on, or stands at the boundary that the device needs; its HALT is
complete at the leader and over at the follower. -/
def State.goOn (s : State) (p : Nat) (leads : Bool) : State :=
  let s1 := s.modCoreAt p Core.newTile
  let c := s1.coreAt p
  match c.mode with
  | .halting => if leads then s1 else s1.modCoreAt p (fun c => { c with mode := .halted })
  | .boundary =>
    if c.needs.isEmpty ∧ c.deferred.isEmpty then s1.modCoreAt p (fun c => { c with mode := .running })
    else if leads then (s1.readSaveMap p).latch p 0 2
    else s1.readSaveMap p
  | _ => s1

/-- A tile whose actions are performed: the pair x and y starts its next tile (R520). -/
def State.confirmTile (s : State) (leader x y : Nat) : State :=
  let s1 := (s.goOn x true).goOn y false
  s1.modPair leader (fun q => { q with
    leader := x, follower := y, spare := none, retry := false, start := s1.coreAt x, acqd := [], tileReads := [] })

/-- A pair's job faulted with a notice code as its CODE; its cores stop and perform nothing (R523, R525, R541). -/
def State.failPair (s : State) (q : Pair) (code : Nat) : State :=
  let stop := fun (c : Core) => { c.newTile with mode := .faulted }
  let s1 := (s.modCoreAt q.leader stop).modCoreAt q.follower stop
  (s1.faultJob q.leader).latch q.leader code 1

/-- PAYLOAD of the notices about a pair (table "Safety notice codes"). -/
def pairPayload (l f : Nat) : Nat := l * 256 + f
def votePayload (w l sp : Nat) : Nat := w * 65536 + l * 256 + sp

/-! ### Votes (R524 to R526) -/

/-- The ready spare of a canton: passed its latest self-test, idle (R524). -/
def State.readySpare (s : State) (c : Nat) : Option Nat :=
  match s.safety.spare.getD c none with
  | some i =>
    if s.safety.spareSt.getD c .none = .ready ∧ (s.coreAt (9 * c + i)).job = none ∧
        s.safety.railOk.getD c false then some (9 * c + i) else none
  | none => none

/-- The spare of a vote: of the lowest-numbered canton that holds neither core. -/
def State.voteSpare (s : State) (q : Pair) : Option Nat :=
  ((List.range 8).filter (fun c => decide (c ≠ q.leader / 9 ∧ c ≠ q.follower / 9))).findSome? s.readySpare

/-- A canton's spare state replaced. -/
def State.setSpareSt (s : State) (c : Nat) (x : SpareSt) : State :=
  { s with safety := { s.safety with spareSt := s.safety.spareSt.set c x } }

/-- Bytes of a core's scratchpad with its undo log applied, by offset (R522). -/
def undoCells (cells : SMap Byte) (log : List (Nat × Nat)) : SMap Byte :=
  log.foldl (fun m e => writeMem m e.1 64 e.2) cells

/-- The registers with which a tile is run again: those of its start, what it acquired and read of semaphores kept
(R519). -/
def Pair.again (q : Pair) : Core :=
  { q.start.newTile with mode := .running, replayAcq := q.acqd, reads := q.tileReads, fetched := [], needs := [] }

/-- A vote: the spare is cleared, takes the live state of core `from_` (the follower's; the survivor's where a core is
lost) as it was before the tile, and runs the tile (R524, R534). -/
def State.openVote (s : State) (q : Pair) (from_ sp : Nat) : State :=
  match s.jobOf q.job with
  | none => s
  | some j =>
    let s0 := s.readSaveMap from_
    let s1 := ((s0.setSpareSt (sp / 9) .lent).clearCore sp).modPair q.leader (fun q => { q with spare := some sp })
    let sv := s0.savedOf from_ j
    let saved : Saved := { sv with core := q.again, cells := undoCells sv.cells (s.coreAt from_).undo, dmas := [] }
    let s2 := s1.restoreTask sp j saved [⟨[(from_, sp)], [], []⟩]
    s2.modCoreAt sp (fun c => { c with job := some j.handle })

/-- Core p rolled back by its undo log to the start of the tile, to run it once more (R526). -/
def State.rollBack (s : State) (q : Pair) (p : Nat) : State :=
  let c := s.coreAt p
  let s1 := c.undo.foldl (fun st e => st.wr (spBase p + e.1) 64 e.2) s
  s1.modCoreAt p (fun c => { q.again with lites := c.lites, liteFaults := c.liteFaults, needs := c.needs })

/-- A comparison that failed (R521, R523, R524, R526). -/
def State.mismatch (s : State) (q : Pair) : State :=
  let part := s.coreOwner q.leader
  let s1 := s.warn 0x0160 part 1 q.leader (pairPayload q.leader q.follower)
  if 0x80000 < (s.coreAt q.leader).undoBytes ∨ 0x80000 < (s.coreAt q.follower).undoBytes then
    (s1.faultNotice 0x0164 part 1 q.leader (pairPayload q.leader q.follower)).failPair q 0x0164
  else
    match s.voteSpare q with
    | some sp => s1.openVote q q.follower sp
    | none => ((s1.rollBack q q.leader).rollBack q q.follower).modPair q.leader (fun q => { q with retry := true })

/-- A vote that no digest wins: the job faults (R525). -/
def State.noVote (s : State) (q : Pair) (sp : Nat) : State :=
  let s1 := (s.faultNotice 0x0162 (s.coreOwner q.leader) 1 q.leader (votePayload q.leader q.follower sp)).failPair q 0x0162
  s1.incOd 0x7000 3

/-- MITTEN_COMPARE (R519 to R521, R526, R534): both cores of a pair have the tile behind them. A pair with a lost core
votes with its survivor once that has; where no spare is ready it waits. -/
def execMittenCompare (p : CoreId) (s : State) : Host.Outcome State Fault Refusal :=
  .next (match s.pairOf p.val with
    | none => s
    | some q =>
      let l := s.coreAt q.leader
      let f := s.coreAt q.follower
      if q.spare.isSome ∨ (s.jobOf q.job).any (fun j => j.st == .faulted) then s
      else if s.coreLost q.leader ∨ s.coreLost q.follower then
        let x := if s.coreLost q.leader then q.follower else q.leader
        if ¬ (s.coreAt x).tileOver ∨ s.coreLost x then s
        else match s.voteSpare q with
          | some sp => s.openVote q x sp
          | none => s
      else if ¬ l.tileOver ∨ ¬ f.tileOver then s
      else if sameFault l f then
        ((s.raise ⟨2, l.frec.code, s.coreOwner q.leader, 1, q.leader, 0x3300, q.leader + 1, l.frec.detail⟩).faultJob
          q.leader).latch q.leader l.frec.code 1
      else if l.goodDigest.isSome ∧ l.goodDigest = f.goodDigest then
        let s0 := s.actAll q.leader q.follower
        let s1 := s0.confirmTile q.leader q.leader q.follower
        if ¬ (s0.coreAt q.leader).held.isEmpty then s0
        else if q.retry then
          (s1.warn 0x0163 (s.coreOwner q.leader) 1 q.leader (pairPayload q.leader q.follower)).incOd 0x7000 4
        else s1
      else if q.retry then s.noVote q 0
      else s.mismatch q)

/-- The logical core of core y now sits on core x (R525). -/
def State.takeOver (s : State) (y x : Nat) : State :=
  match s.coreHome y with
  | some (k, l) => (s.setMapByte k l x).bumpRole y
  | none => s

/-- Core y, the loser of a vote, goes to self-test; the spare stands in for it (R525, R529). -/
def State.sendToTest (s : State) (y standIn : Nat) : State :=
  let s1 := (s.dropWaiters y).modCoreAt y (fun _ => { Core.reset with mode := .selfTest })
  { s1 with safety := { s1.safety with testing := s1.safety.testing ++ [⟨y, standIn, true, none⟩] } }

/-- The job of a pair led by core x from now on: the other tasks know its new place (R301, R525). -/
def State.leadFrom (s : State) (q : Pair) (x : Nat) : State :=
  if x = q.leader then s
  else
    match s.jobOf q.job with
    | none => s
    | some _ =>
      let mv : Move := ⟨[(q.leader, x)], [], []⟩
      let others := (s.coresOf q.job).filter (fun c => c != q.leader && c != q.follower)
      (others.foldl (fun st c => st.rewriteCore c mv) s).modJob q.job (fun j => { j with
        moves := j.moves ++ [mv]
        tasks := j.tasks.map (fun t => if t.core = some q.leader then { t with core := some x } else t) })

/-- A vote won by core x, its actions performed: the spare takes the logical core of y and joins x as its follower (R525, R534). -/
def State.voteWon (s : State) (q : Pair) (sp x y : Nat) : State :=
  let s1 := (s.takeOver y sp).leadFrom q x
  let s2 := s1.confirmTile q.leader x sp
  let s3 := if s.coreLost y then s2 else s2.sendToTest y sp
  (s3.info 0x0161 (s.coreOwner q.leader) 1 x (votePayload x y sp)).incOd 0x7000 2

/-- VOTE_RERUN_DONE (R524, R525, R534): the spare has run the tile; three digests decide. -/
def execVoteRerunDone (p : CoreId) (s : State) : Host.Outcome State Fault Refusal :=
  .next (match s.safety.pairs.find? (fun q => q.spare == some p.val) with
    | none => s
    | some q =>
      let c := s.core p
      if ¬ c.tileOver then s
      else
        let good := fun (x : Nat) =>
          !s.coreLost x && c.goodDigest.isSome && decide ((s.coreAt x).goodDigest = c.goodDigest)
        let win := fun (x y : Nat) =>
          let s0 := s.actAll x p.val
          if (s0.coreAt x).held.isEmpty then s0.voteWon q p.val x y else s0
        if good q.leader ∧ ¬ good q.follower then win q.leader q.follower
        else if good q.follower ∧ ¬ good q.leader then win q.follower q.leader
        else
          (((s.noVote q p.val).clearCore p.val).setSpareSt (p.val / 9) .ready).modPair q.leader
            (fun q => { q with spare := none }))

end Sys2Proof.Machine
end

