-- ==== Sys2Proof/Machine/Gauntlet.lean ====
section
/-! DEFINITION. Gauntlet self-test, fault reactions, Crown restart, power loss and firmware (R528 to R541). -/

namespace Sys2Proof.Machine

/-! ### Gauntlet (R529 to R531) -/

/-- Whether Gauntlet runs: full service, Crown running (R529, R535). -/
def State.gauntletOn (s : State) : Bool := (s.power.level == 4 || s.power.level == 5) && s.safety.crown == .running

/-- The in-service core of a canton that follows the last one tested, in ascending physical order (R529). -/
def State.nextTested (s : State) (c : Nat) : Option Nat :=
  let from_ := match s.safety.lastTested.getD c none with
    | some p => p % 9 + 1
    | none => 0
  ((List.range 9).map (fun i => 9 * c + (from_ + i) % 9)).find? s.inService

/-- A core that the device needs at its next tile boundary for a swap. -/
def State.needSwap (s : State) (p : Nat) : State :=
  s.modCoreAt p (fun c => if c.job.isNone ∨ c.needs.contains .gauntlet then c else { c with needs := c.needs ++ [.gauntlet] })

/-- GAUNTLET_ROTATION (R529, R530): the next core of the canton is due; a rotation still outstanding is skipped and
counted. -/
def execGauntletRotation (c : CantonId) (s : State) : Host.Outcome State Fault Refusal :=
  .next (if ¬ s.gauntletOn then s
    else
      let s1 := if (s.safety.swapDue.getD c.val none).isSome then
          { s with safety := { s.safety with skipped := s.safety.skipped + 1 } } else s
      match s1.nextTested c.val with
      | none => s1
      | some p =>
        ({ s1 with safety := { s1.safety with swapDue := s1.safety.swapDue.set c.val (some p) } }).needSwap p)

/-- Whether canton d holds a core paired with p, or a core of another replica of the set of p's job (R530). -/
def State.relatedIn (s : State) (p d : Nat) : Bool :=
  (match s.pairOf p with
   | some q => q.leader / 9 == d || q.follower / 9 == d
   | none => false) ||
  (match (s.coreAt p).job.bind s.jobOf with
   | none => false
   | some j =>
     let r := bits j.desc 171 156
     decide (r ≠ 0) && s.jobs.any (fun x => x.handle != j.handle && bits x.desc 171 156 == r &&
       (s.coresOf x.handle).any (fun y => y / 9 == d)))

/-- The spare for a swap of core p: its own canton's; where that canton has a retired core, the ready spare of the next
canton that R530 allows. The second part says that it is lent. -/
def State.swapSpare (s : State) (p : Nat) : Option (Nat × Bool) :=
  let c := p / 9
  if s.safety.retired.any (fun r => r / 9 == c) then
    ((((List.range 7).map (fun i => (c + 1 + i) % 8)).filter (fun d => !s.relatedIn p d)).findSome? s.readySpare).map
      (fun sp => (sp, true))
  else (s.readySpare c).map (fun sp => (sp, false))

/-- Whether a matrix stage of a slot has work queued: the stage before it is complete, and it is not, in a slot that no
fallback serves. DEDUCED (log 158). -/
def SlotRec.matrixBusy (r : SlotRec) : Bool :=
  r.declared.isNone && r.path == 0 && [1, 2, 3].any (fun k => r.took.contains (k - 1) && !r.took.contains k)

/-- Whether core p can be swapped now: idle, or at a retired tile boundary; a core of partition 0 only while no stage of a slot
has work queued (R530). -/
def State.swappable (s : State) (p : Nat) : Bool :=
  (s.coreAt p).job.isNone ||
    (s.atBoundary p && (s.coreOwner p != some 0 || s.radio.cells.toList.all (fun c => !c.slots.any (·.matrixBusy))))

/-- Core p swapped with spare sp: the logical core moves with its state, p enters self-test, its contents are lost (R301,
R529). -/
def State.swap (s : State) (p sp : Nat) (lent : Bool) : State :=
  let c := p / 9
  let part := s.coreOwner p
  let gap := (s.coreAt p).job.isSome && (part.map s.lockActive).getD false
  let s1 := (s.moveCore p sp).modCoreAt p (fun _ => { Core.reset with mode := .selfTest })
  let s2 := s1.countCanton c 0x40 part
  let s3 := if gap then s2.countCanton c 0x41 part else s2
  let sf := s3.safety
  { s3 with safety := { sf with
      spare := if lent then sf.spare else sf.spare.set c (some (p % 9))
      spareSt := if lent then sf.spareSt.set (sp / 9) .lent else sf.spareSt.set c .inTest
      testing := sf.testing ++ [⟨p, sp, lent, none⟩]
      lastTested := sf.lastTested.set c (some p)
      swapDue := if sf.swapDue.getD c none = some p then sf.swapDue.set c none else sf.swapDue
      testDue := sf.testDue.filter (fun x => x != p) } }

/-- GAUNTLET_SWAP (R525, R528 to R530): a tested core that passed takes its logical core back from a lent stand-in; else the
core due for its rotation, or for having failed a tile, is swapped at its boundary. -/
def execGauntletSwap (c : CantonId) (s : State) : Host.Outcome State Fault Refusal :=
  .next (match s.safety.testing.find? (fun t => t.core / 9 == c.val && t.passed == some true) with
    | some t => s.endStandIn t.standIn t.core t.lent
    | none =>
      match (s.safety.swapDue.getD c.val none).orElse (fun _ => s.safety.testDue.find? (fun p => p / 9 == c.val)) with
      | none => s
      | some p =>
        if ¬ s.inService p then
          { s with safety := { s.safety with
              swapDue := s.safety.swapDue.set c.val none, testDue := s.safety.testDue.filter (fun x => x != p) } }
        else
          match s.swapSpare p with
          | none => s.needSwap p
          | some (sp, lent) => if s.swappable p then s.swap p sp lent else s.needSwap p)

/-- GAUNTLET_STALLED (R530): no spare could be borrowed for 2.25 s. -/
def execGauntletStalled (c : CantonId) (s : State) : Host.Outcome State Fault Refusal :=
  .next (s.warn 0x0166 none 3 c.val c.val)

/-- Banks held OFF, those of a retired core among them (R195, R531); what waits at them is answered (R13, R189). -/
def State.banksOff (s : State) (b0 n : Nat) : State :=
  (List.range n).foldl (fun st i =>
    ((st.loseBank (b0 + i)).setBank (b0 + i) { Bank.reset with st := .off, req := .off, cleared := true }).release
      (b0 + i)) s

/-- A core retired (R12, R531): CORE_RETIRED, 0x7000.05; a canton's first retirement consumes its spare. -/
def State.retireCore (s : State) (p part : Nat) : State :=
  let c := p / 9
  let s1 := (s.banksOff (4 * p) 4).modCoreAt p (fun _ => Core.reset)
  let s2 := { s1 with safety := { s1.safety with
      retired := s1.safety.retired ++ [p]
      spare := s1.safety.spare.set c none
      spareSt := s1.safety.spareSt.set c .none } }
  (s2.faultNotice 0x0165 none 1 p (p * 256 + part)).incOd 0x7000 5

/-- SELF_TEST_COMPLETE (R529 to R531): a core that passes is its canton's ready spare, unless a retirement has consumed that
meanwhile (R12), or waits for its logical core to come
back; one that fails is retired. Its memory holds zeros. -/
def execSelfTestComplete (p : CoreId) (failedPart : Nat) (s : State) : Host.Outcome State Fault Refusal :=
  .next (match s.safety.testing.find? (fun t => t.core == p.val && t.passed == none) with
    | none => s
    | some t =>
      let mark := fun (st : State) (o : Option Bool) =>
        { st with safety := { st.safety with
            testing := if t.lent then st.safety.testing.map (fun x => if x.core = p.val then { x with passed := o } else x)
              else st.safety.testing.filter (fun x => x.core != p.val) } }
      let s1 := s.clearCore p.val
      if failedPart = 0 then
        let s2 := mark s1 (some true)
        if s2.safety.spare.getD (p.val / 9) none = some (p.val % 9) then s2.setSpareSt (p.val / 9) .ready else s2
      else (mark s1 (some false)).retireCore p.val failedPart)

/-! ### Domains lost (R533, R534) -/

/-- The service level changed, with its notice (R554). -/
def State.setLevel (s : State) (v : Nat) : State :=
  if s.power.level = v then s
  else ({ s with power := { s.power with level := v } }).info 0x0152 none 0 0 v

/-- A domain lost: full service becomes DEGRADED (table "Service levels"). -/
def State.degrade (s : State) : State :=
  let s1 := { s with power := { s.power with lostDomain := true } }
  if s.power.level = 4 then s1.setLevel 5 else s1

/-- The logical core of a lost core is without one. -/
def State.takeAway (s : State) (p : Nat) : State :=
  match s.coreHome p with
  | some (k, l) => (s.setMapByte k l 0xFF).bumpRole p
  | none => s

/-- A lost core's registers and waiters are gone; it still counts as its task's core until the entry is taken. -/
def State.haltLost (s : State) (p : Nat) : State :=
  (s.dropWaiters p).modCoreAt p (fun c => { Core.reset with mode := .faulted, job := c.job, task := c.task })

/-- A core lost with its canton: its job faults with CANTON_LOST, by way of its latch; a core of a pair leaves its tile to the survivor (R533, R534, R541; log 93). -/
def State.loseCore (s : State) (p : Nat) : State :=
  let c := s.coreAt p
  if s.inPair p then s.haltLost p
  else
    match c.job with
    | none => (s.modCoreAt p (fun _ => Core.reset)).takeAway p
    | some _ =>
      ((((s.faultJob p).latch p 0x0167 1)).haltLost p).takeAway p

/-- The state of a canton rail lost: its cores and its memory are gone, its spare (whose position stands, R12) serves no swap;
a logical core lent away on one of them is without a physical core (R293); free cores take what they can. -/
def State.loseCanton (s : State) (c : Nat) : State :=
  let s1 := (List.range 9).foldl (fun st i => st.loseCore (9 * c + i)) s
  let lent := s1.loans.filter (fun l => l.core / 9 == c && l.ready)
  let s2 := lent.foldl (fun st l => st.setMapByte l.lender l.logical 0xFF) { s1 with
    loans := s1.loans.filter (fun l => l.core / 9 != c)
    safety := { s1.safety with
      railOk := s1.safety.railOk.set c false
      spareSt := s1.safety.spareSt.set c .none
      swapDue := s1.safety.swapDue.set c none
      testDue := s1.safety.testDue.filter (fun p => p / 9 != c)
      testing := s1.safety.testing.filter (fun t => t.core / 9 != c) } }
  (((s2.banksOff (36 * c) 36).banksOff (288 + 8 * c) 8).growAll.faultNotice 0x0167 none 3 c c).degrade

/-- CANTON_LOST (R533, R534). -/
def execCantonLost (c : CantonId) (s : State) : Host.Outcome State Fault Refusal :=
  .next (if s.safety.railOk.getD c.val false then s.loseCanton c.val else s)

/-- The state of an HBM stack lost: its segments answer UNMAPPED; HARQ combining restarts (R533). -/
def State.loseStack (s : State) (stack : Nat) : State :=
  if s.power.hbmLost.contains stack then s
  else
    ({ s with
      power := { s.power with hbmLost := s.power.hbmLost ++ [stack] }
      radio := { s.radio with harqUndo := [] } }).degrade

/-- HBM_STACK_LOST (R533). -/
def execHbmStackLost (stack : Fin 4) (s : State) : Host.Outcome State Fault Refusal := .next (s.loseStack stack.val)

/-- SIGNAL_QUAD_LOST (R533): the eight signal cores of the quad stop; their local memory is lost. -/
def State.loseQuad (s : State) (q : Nat) : State :=
  let s1 := (List.finRange 32).foldl (fun st g =>
    if g.val / 8 = q then (st.sigStop g).setSig g { (st.sigStop g).sig g with running := false, posts := [] } else st) s
  (({ s1 with power := { s1.power with quadLost := s1.power.quadLost ++ [q] } }).banksOff (352 + 32 * q) 32).degrade

/-- SIGNAL_QUAD_LOST. -/
def execSignalQuadLost (quad : Fin 4) (s : State) : Host.Outcome State Fault Refusal :=
  .next (if s.power.quadLost.contains quad.val then s else s.loseQuad quad.val)

/-- The block that a checker guards, lost (R532): a link, an HBM stack, the canton or the quad of a bank. The other rows
guard no block of R533 (log 94). -/
def State.guardedLost (s : State) (row unit : Nat) : State :=
  match row with
  | 0 => if h : unit < 4 then s.linkDown ⟨unit, h⟩ else s
  | 1 => s.loseStack (unit % 4)
  | 2 =>
    if unit < 64 then (if s.safety.railOk.getD (unit / 8) false then s.loseCanton (unit / 8) else s)
    else if s.power.quadLost.contains ((unit - 64) / 32 % 4) then s else s.loseQuad ((unit - 64) / 32 % 4)
  | _ => s

/-- CHECKER_TEST (R532): a checker that fires has passed; one that does not is reported, and its block is treated as
failed. -/
def execCheckerTest (row : Fin 6) (unit : Nat) (fired : Bool) (s : State) : Host.Outcome State Fault Refusal :=
  .next (if fired then s
    else (s.faultNotice 0x0168 none 0 0 ((row.val + 1) * 2 ^ 16 + unit % 2 ^ 16)).guardedLost row.val unit)

/-- RAIL_FAULT (R559): a regulator's report. -/
def execRailFault (r : Fin 19) (status : BitVec 16) (s : State) : Host.Outcome State Fault Refusal :=
  .next (s.faultNotice 0x0174 none 0xB r.val (r.val * 2 ^ 16 + status.toNat))

/-! ### Crown (R535) -/

/-- CROWN_RESTART (R535, R540): the management cores reset; an image on trial gives way to the old one. -/
def execCrownRestart (within1s : Bool) (s : State) : Host.Outcome State Fault Refusal :=
  let trial := s.safety.activeSlot ≠ s.safety.bootDefault
  let s1 := { s with safety := { s.safety with
      crown := .restarting
      crownFault := s.safety.crownFault || within1s
      reqHandover := false
      activeSlot := s.safety.bootDefault
      version := if trial then s.safety.oldVersion else s.safety.version
      minors := if trial then s.safety.oldMinors else s.safety.minors } }
  let s2 := if trial then s1.setOd 0x7030 2 0 else s1
  .next (if within1s then s2.faultNotice 0x016A none 0 0 0 else s2)

/-- CROWN_STATE_RESTORED (R535): service resumes; what waited is served in its order. -/
def execCrownStateRestored (s : State) : Host.Outcome State Fault Refusal :=
  .next (if s.safety.crown = .running then s
    else
      let s1 := ({ s with
        safety := { s.safety with crown := .running }
        host := { s.host with waiting := [] } }).warn 0x0169 none 0 0 0
      s.host.waiting.foldl State.perform s1)

/-! ### Power loss (R536) -/

/-- Persisted writes in progress abandoned: their older copies stand, the values go back, the writes answer PERSIST (R536,
R538; log 88). -/
def State.abandonPersists (s : State) : State :=
  let s1 := s.host.persists.reverse.foldl (fun st x =>
    (st.setOd x.index x.sub x.old).reply x.to_ x.index x.sub odPersist 0 0) s
  { s1 with host := { s1.host with persists := [] } }

/-- PWR_FAIL (R536): writes are refused, no job is admitted, the journal's open page goes to flash. -/
def execPwrFail (s : State) : Host.Outcome State Fault Refusal :=
  .next (if s.power.powerFail ∨ s.power.level = 0 then s
    else
      let s1 := ({ s with power := { s.power with powerFail := true } }).abandonPersists
      let newest := s1.host.journal.length + s1.host.journalNew.length - 1
      let s2 := s1.faultNotice 0x016D none 0 0 newest
      s2.appendJournal)

/-- PWR_FAIL_RELEASE (R536). -/
def execPwrFailRelease (s : State) : Host.Outcome State Fault Refusal :=
  .next { s with power := { s.power with powerFail := false } }

/-! ### Firmware (R539, R540) -/

/-- Whether n bytes from an address can be read by Crown. -/
def State.crownReads (s : State) (a n : Nat) : Bool :=
  (List.range ((n + 4095) / 4096)).all (fun i => s.accessCode .crown (a + 4096 * i) (min 4096 (n - 4096 * i)) .read == 0)

/-- INSTALL_DONE (R539, R553): a staged image that verifies is written to the inactive slot, in RECOVERY to slot A,
which is then booted. -/
def execInstallDone (s : State) : Host.Outcome State Fault Refusal :=
  let a := s.od 0x7030 3
  let n := s.od 0x7030 4
  .next (if s.od 0x7030 2 ≠ 2 then s
    else if s.crownReads a n ∧ Config.imageVerifies (s.rd a n) then
      if s.power.level = 6 then
        (({ s with
          safety := { s.safety with
            activeSlot := 0, bootDefault := 0, version := Config.imageVersion (s.rd a n)
            minors := minorsOf (Config.imageVersion (s.rd a n)) }
          power := { s.power with verified := true, otherSlot := false } }).setOd 0x7030 2 0).setLevel 0
      else
      ({ s with safety := { s.safety with nextVersion := Config.imageVersion (s.rd a n) } }).setOd 0x7030 2 4
    else s.setOd 0x7030 2 3)

/-- Whether a list of protocol minors raises one of another. -/
def raises (new old : List Nat) : Bool := (List.range 2).any (fun i => decide (nth old i < nth new i))

/-- FW_HANDOVER (R539, R540): the new image, or on REVERT the old one, adopts the frozen state. A new image is on trial.
One that raises a protocol minor retrains every link and tunnel (R457). -/
def execFwHandover (s : State) : Host.Outcome State Fault Refusal :=
  .next (if ¬ s.safety.reqHandover ∨ s.safety.crown ≠ .running then s
    else
      let sf := s.safety
      let s1 := { s with safety := { sf with
          reqHandover := false
          activeSlot := 1 - sf.activeSlot
          version := if sf.reqRevert then sf.oldVersion else sf.nextVersion
          oldVersion := sf.version
          minors := if sf.reqRevert then sf.oldMinors else minorsOf sf.nextVersion
          oldMinors := sf.minors } }
      let s2 := (s1.setOd 0x7030 2 (if sf.reqRevert then 0 else 1)).info 0x016B none 0 0 s1.safety.version
      if raises s1.safety.minors sf.minors then s2.retrainAll else s2)

/-- FW_REVERT (R540): the new image does not resume and is abandoned. -/
def execFwRevert (s : State) : Host.Outcome State Fault Refusal :=
  .next (if ¬ s.safety.reqHandover then s
    else
      (({ s with safety := { s.safety with reqHandover := false } }).setOd 0x7030 2 (if s.safety.reqRevert then 1 else 0)).warn
        0x016C none 0 0 (if s.safety.reqRevert then s.safety.oldVersion else s.safety.nextVersion))

/-- TRIAL_EXPIRY (R540): the image on trial is confirmed. -/
def execTrialExpiry (s : State) : Host.Outcome State Fault Refusal :=
  .next (if s.safety.activeSlot = s.safety.bootDefault then s
    else ({ s with safety := { s.safety with bootDefault := s.safety.activeSlot } }).setOd 0x7030 2 0)

end Sys2Proof.Machine
end

