-- ==== Sys2Proof/Machine/Power.lean ====
section
/-! DEFINITION. Resets, bring-up, the power governor, thermal limits, HBM refresh and the TAP (R288, R290, R542 to R559,
R568, R569). -/

namespace Sys2Proof.Machine

/-! ### Resets (R548 to R551) -/

/-- The sparse map with the listed entries put in. -/
def sputAll (m : SMap Nat) (d : Nat → Nat) (l : List (Nat × Nat)) : SMap Nat := l.foldl (fun x e => sput x d e.1 e.2) m

/-- Whether an image on trial runs (R540). -/
def State.onTrial (s : State) : Bool := s.safety.activeSlot != s.safety.bootDefault

/-- The device after PORST# (R549): everything as at reset, but for the trip flag and stamp, what the boot flash holds
(persisted entries, the journal, the firmware slots) and the straps given. An image on trial gives way to the old one (R540).
The boot records the cause, and the stamp of a trip (R558). -/
def State.afterPorst (s : State) (straps : Nat) : State :=
  let s1 : State := { State.reset with
    pending := s.pending
    out := s.out
    free := s.free
    dict := s.dictP
    dictP := s.dictP
    host := { State.reset.host with journal := s.host.journal }
    safety := { State.reset.safety with
      activeSlot := s.safety.bootDefault
      bootDefault := s.safety.bootDefault
      version := if s.onTrial then s.safety.oldVersion else s.safety.version
      oldVersion := s.safety.oldVersion
      nextVersion := s.safety.nextVersion
      minors := if s.onTrial then s.safety.oldMinors else s.safety.minors
      oldMinors := s.safety.oldMinors }
    power := { State.reset.power with
      tripped := s.power.tripped
      tripTime := s.power.tripTime
      cause := if s.power.tripped then 3 else 1
      straps := straps } }
  if s.power.tripped then s1.setOd 0x2300 3 (toTime96 s.power.tripTime) else s1

/-- PORST (R549, R551): reset, and the straps sampled at the release. -/
def execPorst (straps : BitVec 4) (s : State) : Host.Outcome State Fault Refusal := .next (s.afterPorst straps.toNat)

/-- PWR_GOOD_FALL (R549): acts as PORST#; the straps keep their value, since PORST# does not rise (R551). -/
def execPwrGoodFall (s : State) : Host.Outcome State Fault Refusal := .next (s.afterPorst s.power.straps)

/-- Entries that WARMRST# leaves: those that count since PORST#, and TB_INC (R10, R460). -/
def keptOnWarm (k : Nat) : Bool :=
  k == odKey 0x6100 2 ||
    (match entryOf (k / 256) (k % 256) with
     | some e => e.acc == .ro
     | none => false)

/-- The banks that Crown holds OFF over a warm reset: those of retired cores and of lost cantons and quads (R195, R533). -/
def State.holdBanksOff (s : State) : State :=
  let s1 := s.safety.retired.foldl (fun st p => st.banksOff (4 * p) 4) s
  let lost := (List.range 8).filter (fun c => !s.safety.railOk.getD c false &&
    ((s.safety.spare.getD c none).isSome || s.safety.retired.any (fun p => p / 9 == c)))
  let s2 := lost.foldl (fun st c => (st.banksOff (36 * c) 36).banksOff (288 + 8 * c) 8) s1
  s.power.quadLost.foldl (fun st q => st.banksOff (352 + 32 * q) 32) s2

/-- WARMRST (R549, R550): everything but the timebase and TB_INC, HBM's contents, the persisted entries and the straps;
bring-up goes on from CROWN. A persisted write in progress leaves its older copy. Nothing while a trip holds, which only
PORST# leaves, or while nothing is booted yet. -/
def execWarmrst (s : State) : Host.Outcome State Fault Refusal :=
  .next (if s.power.stopped ∨ s.power.level = 0 ∨ s.power.level = 6 then s
    else
      let h := State.reset.host
      let s1 : State := { State.reset with
        pending := s.pending
        out := s.out
        free := s.free
        mem := sclear s.mem (fun a => decide (96 * 2 ^ 30 ≤ a))
        ecc := sclear s.ecc (fun a => decide (96 * 2 ^ 30 ≤ a))
        dict := sputAll s.dictP odDef (s.dict.filter (fun e => keptOnWarm e.1))
        dictP := s.dictP
        time := { s.time with pend := [], portUp := State.reset.time.portUp, offsets := [] }
        host := { h with
          journal := s.host.journal
          pcieUp := true
          chans := Vector.ofFn (fun i : Fin 19 => { s.host.chans[i.val] with queue := [] }) }
        tap := s.tap
        safety := { State.reset.safety with
          spare := s.safety.spare
          spareSt := s.safety.spareSt.map (fun x => if x = .none then x else .ready)
          retired := s.safety.retired
          railOk := s.safety.railOk
          lastTested := s.safety.lastTested
          crownFault := s.safety.crownFault
          activeSlot := s.safety.bootDefault
          bootDefault := s.safety.bootDefault
          version := if s.onTrial then s.safety.oldVersion else s.safety.version
          oldVersion := s.safety.oldVersion
          nextVersion := s.safety.nextVersion
          minors := if s.onTrial then s.safety.oldMinors else s.safety.minors
          oldMinors := s.safety.oldMinors }
        power := { State.reset.power with
          level := s.power.level
          cause := 2
          otherSlot := s.power.otherSlot
          verified := true
          straps := s.power.straps
          lostDomain := s.power.lostDomain
          hbmLost := s.power.hbmLost
          quadLost := s.power.quadLost } }
      s1.holdBanksOff.setLevel 1)

/-! ### Bring-up (R552 to R555) -/

/-- BOOT_VERIFY (R553): the slot of the newer confirmed generation, then the other one, then RECOVERY. Whether a slot's
image verifies is a free value. -/
def execBootVerify (s : State) : Host.Outcome State Fault Refusal :=
  .next (if s.power.level ≠ 0 ∨ s.power.verified ∨ s.power.stopped then s
    else
      let recover := fun (st : State) => ({ st with host := { st.host with pcieUp := true } }).setLevel 6
      if s.power.straps % 4 = 2 then recover s
      else
        let f := s.takeFree
        if f.1 % 2 = 0 then { f.2 with power := { f.2.power with verified := true } }
        else
          let g := f.2.takeFree
          if g.1 % 2 = 0 then
            let v := g.2.takeFree
            { v.2 with
              power := { v.2.power with verified := true, otherSlot := true }
              safety := { v.2.safety with
                activeSlot := 1 - s.safety.activeSlot
                version := v.1 % 2 ^ 32
                minors := minorsOf (v.1 % 2 ^ 32) } }
          else recover g.2)

/-- Partitions get what their configuration asks for of cores and HBM that have come up (R297, R303). -/
def State.fitAll (s : State) : State := (List.range 16).foldl (fun st k => st.applyPartition k) s

/-- The target of core p's partition (0x2110), 1,600 where none owns it. -/
def State.targetOf (s : State) (p : Nat) : Nat :=
  match s.coreOwner p with
  | some k => s.od 0x2110 (k + 1)
  | none => 1600

/-- The frequency that core p is to run at: in REDUCED and EXTENDING 0.8 GHz (R555), else the lower of its partition's target
and the governor's limit (R546). -/
def State.wantFreq (s : State) (p : Nat) : Nat :=
  if s.power.level = 2 ∨ s.power.level = 3 then 800 else min (s.targetOf p) (nth s.power.limit p)

/-- The set voltage of canton c for its fastest core's frequency, in mV (R545). -/
def railFor (c f : Nat) : Nat := max 550 (min 850 ((Config.cantonVoltage c f + 4) / 5 * 5))

/-- The canton rail set for its fastest core; adaptive from FULL on (R545, R554). -/
def State.setRail (s : State) (c : Nat) : State :=
  let f := ((List.range 9).map (fun i => nth s.power.freq (9 * c + i))).foldl max 0
  { s with power := { s.power with
      railMv := s.power.railMv.set c (if s.power.level = 4 ∨ s.power.level = 5 then railFor c f else 750) } }

/-- Idle cores in service brought to their frequency. -/
def State.startClocks (s : State) : State :=
  let s1 := { s with power := { s.power with
      freq := (List.range 72).map (fun p =>
        if s.inService p ∧ (s.coreAt p).job.isNone then s.wantFreq p else nth s.power.freq p) } }
  (List.range 8).foldl (fun st c => st.setRail c) s1

/-- What Crown raises on reaching CROWN: a trip with its stamp, whose flag it then clears (R558); a slot that failed
(R553); a held strap (R552). -/
def State.crownUp (s : State) : State :=
  let s1 := if s.power.tripped then
      let t := toTime96 s.power.tripTime
      let s0 := s.faultNotice 0x0172 none 0 0 (bits t 79 48 * 2 ^ 32 + bits t 47 16)
      { s0 with power := { s0.power with tripped := false } }
    else s
  let s2 := if s.power.otherSlot then s1.warn 0x0175 none 0 0 (1 - s.safety.activeSlot) else s1
  if s.power.straps % 4 = 3 then s2.warn 0x0176 none 0 0 s.power.straps else s2

/-- A failed domain passes a later test: rails, stacks, quads and code engines serve again. -/
def State.domainsBack (s : State) : State :=
  { s with
    power := { s.power with lostDomain := false, hbmLost := [], quadLost := [] }
    radio := { s.radio with engLost := false }
    safety := { s.safety with
      railOk := List.replicate 8 true
      spareSt := (List.range 8).map (fun c =>
        if !s.safety.railOk.getD c true ∧ (s.safety.spare.getD c none).isSome then .ready
        else s.safety.spareSt.getD c .none) } }

/-- Canton c brought up for the first time since reset: its rail is within limits, and its core at position 8 is its ready spare
(R12, R554; log 151). One that has been up keeps what it has. -/
def State.cantonStart (s : State) (c : Nat) : State :=
  if s.safety.railOk.getD c false ∨ (s.safety.spare.getD c none).isSome ∨ s.safety.retired.any (fun p => p / 9 == c) then s
  else { s with safety := { s.safety with
      railOk := s.safety.railOk.set c true
      spare := s.safety.spare.set c (some 8)
      spareSt := s.safety.spareSt.set c .ready } }

/-- Every canton brought up. -/
def State.cantonsStart (s : State) : State := (List.range 8).foldl State.cantonStart s

/-- SERVICE_LEVEL (R554): the next level of the table "Service levels", or DEGRADED and back. `ok` says that every domain of
this stage passed. -/
def execServiceLevel (ok : Bool) (s : State) : Host.Outcome State Fault Refusal :=
  let s1 := if ok then s else { s with power := { s.power with lostDomain := true } }
  .next (if s.power.stopped then s
    else
      match s.power.level with
      | 0 =>
        if s.power.verified then
          (({ s with host := { s.host with pcieUp := true } }).setLevel 1).crownUp
        else s
      | 1 => ((s1.setLevel (if bit s.power.straps 3 then 2 else 3)).cantonStart 0).fitAll.startClocks
      | 2 => (s1.setLevel 3).fitAll
      | 3 => ((s1.setLevel (if s1.power.lostDomain then 5 else 4)).cantonsStart).fitAll.startClocks
      | 5 => if ok then (s.domainsBack.setLevel 4).fitAll.startClocks else s
      | _ => s)

/-! ### The power governor (R545 to R547) -/

/-- Whether partition k has PIN_CLK (R286). -/
def State.pinned (s : State) (k : Nat) : Bool := bit (s.od 0x4180 (k + 1)) 0

/-- The place of core p's partition in the order in which a canton lowers its cores (R547): tenants without PIN_CLK by
PCEIL, pinned partitions, safety partitions, partition 0. Cores of no partition are not lowered. -/
def State.lowerClass (s : State) (p : Nat) : Option Nat :=
  (s.coreOwner p).map (fun k =>
    if k = 0 then 6 else if s.isSafety k then 5 else if s.pinned k then 4 else s.ceilOf p)

/-- The limits with those of the cores in l changed by f. -/
def State.relimit (s : State) (l : List Nat) (f : Nat → Nat) : State :=
  { s with power := { s.power with
      limit := (List.range 72).map (fun p => if l.contains p then f (nth s.power.limit p) else nth s.power.limit p) } }

/-- The cores of canton c that may still move, `up` or down, of the class that goes first. -/
def State.moving (s : State) (c : Nat) (up : Bool) : List Nat :=
  let open_ := ((List.range 9).map (9 * c + ·)).filter (fun p =>
    (s.lowerClass p).isSome && (if up then decide (nth s.power.limit p < 1600) else decide (800 < nth s.power.limit p)))
  let cls := open_.map (fun p => (s.lowerClass p).getD 0)
  let first := if up then cls.foldl max 0 else cls.foldl min 7
  open_.filter (fun p => s.lowerClass p == some first)

/-- Canton c lowered by 100 MHz, not below 800 MHz (R547). -/
def State.lowerCanton (s : State) (c : Nat) : State := s.relimit (s.moving c false) (fun x => max 800 (x - 100))

/-- Canton c raised by 25 MHz, in the reverse order. -/
def State.raiseCanton (s : State) (c : Nat) : State := s.relimit (s.moving c true) (fun x => min 1600 (x + 25))

/-- Canton c's cap in W x 10^n, less 10 % for each of its n throttle steps (R557), and 10^n. -/
def State.capOf (s : State) (c : Nat) : Nat × Nat :=
  let n := nth s.power.capSteps c
  (s.od 0x2100 (c + 2) * 9 ^ n, 10 ^ n)

/-- Whether canton c, at w mW, exceeds `percent` of its cap. -/
def State.overCap (s : State) (c w percent : Nat) : Bool :=
  decide ((s.capOf c).1 * 1000 * percent < w * (s.capOf c).2 * 100)

/-- The canton above its share of the package cap by the widest margin: its share is an eighth (log 106). -/
def State.widest (s : State) (cantons : List Nat) : Option Nat :=
  let above := (List.range 8).filter (fun c => decide (s.od 0x2100 1 * 1000 < 8 * nth cantons c))
  above.foldl (fun (m : Option Nat) c => match m with
    | none => some c
    | some x => if nth cantons x < nth cantons c then some c else some x) none

/-- Whether every power is at least 5 % below every applicable threshold (R547). -/
def State.powerCalm (s : State) (pkg10us pkg100ms : Nat) (cantons : List Nat) : Bool :=
  decide (100 * pkg10us ≤ 95 * 340000) && decide (100 * pkg100ms ≤ 95 * (s.od 0x2100 1 * 1000)) &&
    (List.range 8).all (fun c => !s.overCap c (nth cantons c) 95)

/-- TIMING_BREAK for partition k (R290). -/
def State.timingBreak (s : State) (k : Nat) : State := (s.countDev 0x002 (some k)).warn 0x0107 (some k) 0 0 0

/-- Pinned partitions whose cores' frequency differs from what it was under `old` counted (R290, R547). -/
def State.noteBreaks (s old : State) : State :=
  let ks := (List.range 16).filter (fun k => s.pinned k && (List.range 72).any (fun p =>
    s.coreOwner p == some k && s.wantFreq p != old.wantFreq p))
  ks.foldl (fun st k => st.timingBreak k) s

/-- GOVERNOR_TICK (R547): the three comparisons in order; after 1 ms (100 ticks) of calm, limits rise by 25 MHz. Powers are in
mW: the package's over 10 us and over 100 ms, each canton's over 100 us. -/
def execGovernorTick (pkg10us pkg100ms : Nat) (canton100us : List Nat) (s : State) : Host.Outcome State Fault Refusal :=
  .next (if s.power.level ≠ 4 ∧ s.power.level ≠ 5 ∨ s.power.stopped then s
    else
      let calm := s.powerCalm pkg10us pkg100ms canton100us
      let n := if calm then s.power.calm + 1 else 0
      let s1 := ({ s with power := { s.power with calm := n } }).setOd 0x2100 10 (pkg100ms / 1000 % 65536)
      let s2 := if 340000 < pkg10us then
          s1.relimit ((List.range 72).filter (fun p => match s1.coreOwner p with | some k => k != 0 | none => false))
            (fun x => min x 800)
        else s1
      let s3 := if s.od 0x2100 1 * 1000 < pkg100ms then
          (match s2.widest canton100us with
           | some c => s2.lowerCanton c
           | none => s2)
        else s2
      let s4 := ((List.range 8).filter (fun c => s.overCap c (nth canton100us c) 100)).foldl
        (fun st c => st.lowerCanton c) s3
      let s5 := if 100 ≤ n then (List.range 8).foldl (fun st c => st.raiseCanton c) s4 else s4
      s5.noteBreaks s1)

/-- Core p at a new frequency, its canton rail with it (R545, R546). -/
def State.setFreq (s : State) (p f : Nat) : State :=
  ({ s with power := { s.power with freq := s.power.freq.set p f } }).setRail (p / 9)

/-- FREQUENCY_CHANGE (R546): at a tile boundary, or at once on a core without a task, the core takes the frequency it is to
run at; until then the device needs the core at its next boundary. -/
def execFrequencyChange (p : CoreId) (s : State) : Host.Outcome State Fault Refusal :=
  let c := s.core p
  let f := s.wantFreq p.val
  .next (if s.power.stopped ∨ ¬ s.inService p.val ∨ (nth s.power.freq p.val = f ∧ ¬ c.needs.contains .frequency) then s
    else if c.job.isNone ∨ c.stopped then
      (s.setFreq p.val f).modCoreAt p.val (Core.needDone .frequency)
    else s.setCore p (if c.needs.contains .frequency then c else { c with needs := c.needs ++ [.frequency] }))

/-- POWER_CAP (R547): a limit has held partition k below its target for more than 1 s. -/
def execPowerCap (k : PartId) (s : State) : Host.Outcome State Fault Refusal :=
  .next (if (List.range 72).any (fun p => s.coreOwner p == some k.val && decide (nth s.power.limit p < s.targetOf p)) then
    s.warn 0x0173 (some k.val) 0 0 k.val
  else s)

/-! ### Thermal limits (R556 to R558) -/

/-- The canton with the hottest reading: readings 0 to 7 are the cantons', 8 to 11 the quads', 12 Crown's. -/
def hottestCanton (l : List Int) : Nat :=
  (List.range 8).foldl (fun m c => if l.getD m (-8192) < l.getD c (-8192) then c else m) 0

/-- The hottest of all readings, in 0.125 degrees C. -/
def hottest (l : List Int) : Int := l.foldl max (l.headD 0)

/-- PAYLOAD of THERMAL_HIGH and THERMAL_OK: canton, reading in degrees C. -/
def thermalPayload (c : Nat) (r : Int) : Nat := c * 256 + enc 8 (r / 8)

/-- The throttle threshold in 0.125 degrees C (0x2300.01). -/
def State.threshold (s : State) : Int := sext 16 (s.od 0x2300 1) * 8

/-- THERMAL_READ (R556, R557): the hottest reading is stored; above the threshold its canton is throttled and THERMAL_HIGH is
raised once; 5 degrees below it the caps are restored and THERMAL_OK is raised. -/
def execThermalRead (readings : List Int) (s : State) : Host.Outcome State Fault Refusal :=
  let r := hottest readings
  let c := hottestCanton readings
  .next (if s.power.stopped then s
    else
      let s1 := s.setOd 0x2300 2 (enc 16 r)
      if s.threshold < r then
        let s2 := { s1 with power := { s1.power with throttled := true, hotCanton := c } }
        if s.power.throttled then s2 else s2.warn 0x0170 none 0 0 (thermalPayload c r)
      else if s.power.throttled ∧ r ≤ s.threshold - 40 then
        ({ s1 with power := { s1.power with throttled := false, capSteps := List.replicate 8 0 } }).info 0x0171 none 0 0
          (thermalPayload c r)
      else s1)

/-- THERMAL_THROTTLE_STEP (R557): while the hottest reading exceeds the threshold, that canton's cap falls by 10 %. -/
def execThermalThrottleStep (s : State) : Host.Outcome State Fault Refusal :=
  .next (if s.power.throttled ∧ s.threshold < sext 16 (s.od 0x2300 2) ∧ ¬ s.power.stopped then
    { s with power := { s.power with
        capSteps := s.power.capSteps.set s.power.hotCanton (nth s.power.capSteps s.power.hotCanton + 1) } }
  else s)

/-- THERMAL_TRIP (R558): the flag and its stamp are set, FR_TXEN falls, every clock outside the always-on domain stops. Nothing
more while a trip holds. -/
def execThermalTrip (s : State) : Host.Outcome State Fault Refusal :=
  .next (if s.power.stopped then s
    else { s with
      power := { s.power with tripped := true, tripTime := s.time.now, stopped := true }
      fr := { s.fr with txEn := false } })

/-- Whether FAULT# is driven low (R568). -/
def State.faultPin (s : State) : Bool := s.power.tripped || s.safety.crownFault || s.power.level == 6

/-- The outputs that R565 and R566 tell apart. -/
inductive Output where
  | xspi | tdo | canTx (b : Fin 2) | frGain | frTxEn | frRxEn | ppsOut | alert | fault
  /-- every other output of the package -/
  | other
deriving DecidableEq, Repr

/-- Whether an output is driven; otherwise it is at high impedance (R565, R566): XSPI from BOOT, TDO while the TAP shifts,
the others from CROWN, and in RECOVERY, where FAULT# is low and CAN answers (R553, R568; log 134). -/
def State.drives (s : State) : Output → Bool
  | .xspi => true
  | .tdo => s.tap.tdo.isSome
  | .canTx _ | .frGain | .frTxEn | .frRxEn | .ppsOut | .alert | .fault | .other => s.power.level != 0

/-- Whether CAN_TX of a bus is held recessive because the bus is not enabled (R565). -/
def State.canRecessive (s : State) (b : Fin 2) : Bool := s.drives (.canTx b) && !bit (s.od 0x1100 3) b.val

/-! ### HBM refresh (R288, R290) -/

/-- A frequency that the governor gives the cores of partition k where a refresh can be postponed no further: the spec states
none, so it is free among the steps of 25 MHz from 800 to 1,600 MHz (R290; log 152). -/
def State.breakFreq (s : State) (k : Nat) : State :=
  let f := s.takeFree
  (f.2.relimit ((List.range 72).filter (fun p => s.coreOwner p == some k)) (fun _ => 800 + 25 * (f.1 % 33))).timingBreak k

/-- HBM_REFRESH (R286, R288 to R290): the stack of a partition with REFRESH_ALIGN postpones up to 8 refreshes, the device needs
its cores at their boundaries meanwhile, and the postponed ones are issued once every core is there, a gap that is counted.
One that can be postponed no further is issued, and breaks the timing of a pinned partition. -/
def execHbmRefresh (stack : Fin 4) (s : State) : Host.Outcome State Fault Refusal :=
  let owed := nth s.power.refreshOwed stack.val
  let put := fun (st : State) (n : Nat) =>
    { st with power := { st.power with refreshOwed := st.power.refreshOwed.set stack.val n } }
  .next (match (List.range 16).find? (fun k => s.refreshAlign k &&
      (s.segsOf k).any (fun g => sget s.segStack zeroD g == stack.val + 1)) with
    | none => put s 0
    | some k =>
      if s.allAtBoundary k then
        ((if owed = 0 then put s 0 else (put s 0).countGap k (s.cantonsOf k)).needPart k .refresh false)
      else if owed < 8 then ((put s (owed + 1)).countDev 0x004 (some k)).needPart k .refresh true
      else if s.pinned k then s.breakFreq k
      else s)

/-! ### The TAP (R569) -/

/-- The TAP controller's next state (IEEE 1149.1). -/
def TapSt.next : TapSt → Bool → TapSt
  | .reset, tms => if tms then .reset else .idle
  | .idle, tms => if tms then .selDr else .idle
  | .selDr, tms => if tms then .selIr else .capDr
  | .capDr, tms => if tms then .ex1Dr else .shDr
  | .shDr, tms => if tms then .ex1Dr else .shDr
  | .ex1Dr, tms => if tms then .updDr else .pauseDr
  | .pauseDr, tms => if tms then .ex2Dr else .pauseDr
  | .ex2Dr, tms => if tms then .updDr else .shDr
  | .updDr, tms => if tms then .selDr else .idle
  | .selIr, tms => if tms then .reset else .capIr
  | .capIr, tms => if tms then .ex1Ir else .shIr
  | .shIr, tms => if tms then .ex1Ir else .shIr
  | .ex1Ir, tms => if tms then .updIr else .pauseIr
  | .pauseIr, tms => if tms then .ex2Ir else .pauseIr
  | .ex2Ir, tms => if tms then .updIr else .shIr
  | .updIr, tms => if tms then .selDr else .idle

/-- IDCODE: 0x7200 in bits [27:12], bit 0 one (IEEE 1149.1), the rest open (log 25). -/
def idcode : Nat := 0x7200 * 2 ^ 12 + bits Config.idcodeOther.toNat 31 28 * 2 ^ 28 + bits Config.idcodeOther.toNat 11 1 * 2 + 1

/-- Length of the data register that an instruction selects. -/
def TapInstr.length : TapInstr → Nat
  | .bypass => 1
  | .idcode => 32
  | _ => Config.tapBsrLen

/-- The instruction that a code names; any other acts as BYPASS (R569). -/
def tapInstr (code : Nat) : TapInstr :=
  if code = Config.tapIdcode then .idcode
  else if code = Config.tapSample then .sample
  else if code = Config.tapExtest then .extest
  else .bypass

/-- A register of n bits shifted one place towards TDO, TDI in at the top. -/
def shiftIn (n v : Nat) (tdi : Bool) : Nat := if n = 0 then 0 else v % 2 ^ n / 2 + b2n tdi * 2 ^ (n - 1)

/-- TAP (R569): one cycle of TCK. On the rising edge the controller's state captures or shifts and TMS moves it on; on the
falling edge the new state updates, and TDO is driven while it shifts. A pin's level in the boundary register is free. -/
def execTap (tms tdi : Bool) (s : State) : Host.Outcome State Fault Refusal :=
  let t := s.tap
  let f := s.takeFree
  let pins : Bool := t.st = .capDr ∧ (t.ir = .sample ∨ t.ir = .extest)
  let s1 := if pins then f.2 else s
  let dr := match t.st with
    | .capDr => (match t.ir with
      | .bypass => 0
      | .idcode => idcode
      | _ => f.1 % 2 ^ Config.tapBsrLen)
    | .shDr => shiftIn t.ir.length t.dr tdi
    | _ => t.dr
  let ir := match t.st with
    | .capIr => 1
    | .shIr => shiftIn Config.tapIrLen t.irShift tdi
    | _ => t.irShift
  let st := t.st.next tms
  .next { s1 with tap :=
    { st := st
      ir := (match st with
        | .updIr => tapInstr ir
        | .reset => .idcode
        | _ => t.ir)
      irShift := ir
      dr := dr
      latch := (if st = .updDr ∧ (t.ir = .sample ∨ t.ir = .extest) then dr else t.latch)
      tdo := (match st with
        | .shDr => some (bit dr 0)
        | .shIr => some (bit ir 0)
        | _ => none) } }

end Sys2Proof.Machine
end

