-- ==== Sys2Proof/Machine/VectorRows.lean ====
section
/-! DEFINITION. The steps of the vector engine: decoding VOP, SETVL and DIGEST (R132, R143, R253 to R257). -/

namespace Sys2Proof.Machine

/-- A present descriptor field of a VOP, advanced: none where it is absent; `bad` where it lies outside the
scratchpad (R246). -/
structure FieldOff where
  off : Option Nat
  bad : Bool
deriving DecidableEq, Repr

/-- A field of bit 15 and a descriptor slot. -/
def vopField (c : Core) (adv : Bool) (f : Nat) : FieldOff :=
  if bit f 15 then
    match c.effOffset adv (128 * (f % 32768)) with
    | some o => ⟨some o, false⟩
    | none => ⟨none, true⟩
  else ⟨none, false⟩

/-- An address of a VOP extension: bit 31 present, its offset in the low 22 bits. -/
def extAddr (f : Nat) : Option Nat := if bit f 31 then some (f % 0x400000) else none

/-- Whether a field's presence breaks the table "VOP operands" in the way that CMD_FIELD names (R253). -/
def surplus (use : Nat) (present : Bool) : Bool := use == 0 && present

/-- The extension of a VOP: its 256 bits, 0 where it has none. -/
def vopExt (s : State) (p : CoreId) (e : FieldOff) : Nat :=
  match e.off with
  | some o => s.rd (spBase p.val + o) 32
  | none => 0

/-- CMD_FIELD of a VOP (R243, R253, R255): the field map's OPF is a format code, 0x0 for SUMG and for a grid-word D. -/
def vopFieldBad (cmd ext : Nat) (gwD : Bool) : Bool :=
  let sub := bits cmd 119 112
  let sm := bits cmd 105 104
  let u := usesOf sub (if sub = 0x61 then sm else 0)
  bits cmd 102 96 != 0 || bits ext 255 144 != 0 || bits ext 142 134 != 0 || bits ext 114 112 != 0 ||
    bits ext 94 86 != 0 || bits ext 66 64 != 0 || bits ext 62 54 != 0 || bits ext 34 32 != 0 || bits ext 30 22 != 0 ||
    decide (0xC ≤ bits cmd 111 108) || (gwD && bits cmd 111 108 != 0) ||
    (subKnown sub &&
      ((sub == 0x40 && bits cmd 111 108 != 0) || (sub != 0x40 && bit cmd 106) || (if sub = 0x61 then sm == 3 else sm != 0) ||
        Nat.land (bits cmd 95 64) (2 ^ 32 - 1 - immBits sub gwD) != 0 ||
        surplus u.a (bit cmd 63) || surplus u.b (bit cmd 47) || surplus u.d (bit cmd 31) || surplus u.c (bit ext 111) ||
        surplus u.x (bit ext 63) || surplus u.s (bit ext 143) || surplus u.y (bit ext 95)))

/-- The VOP that a command names, its descriptors read (R196), with VL and step in force (R255). -/
def buildVop (s : State) (p : CoreId) (cmd ext off : Nat) (a b d c : Option Nat) : VopCmd :=
  let core := s.core p
  let get := fun (o : Option Nat) => o.map (fun x => s.rd (spBase p.val + x) 128)
  { cmd := cmd, off := off, sub := bits cmd 119 112, opf := bits cmd 111 108, maskZero := bit cmd 107,
    accum := bit cmd 106, smode := bits cmd 105 104, imm := bits cmd 95 64, a := get a, b := get b, c := get c,
    d := get d, m := extAddr (bits ext 31 0), x := extAddr (bits ext 63 32), y := extAddr (bits ext 95 64),
    s := extAddr (bits ext 143 112), vl := core.vl, step := core.step }

/-- The VOP as far as its descriptors can be read: an unreadable one breaks no rule that its bits would show. -/
def readableVop (s : State) (p : CoreId) (v : VopCmd) (a b d c : Option Nat) : VopCmd :=
  let keep := fun (o : Option Nat) (x : Option Nat) => match o with
    | some off => if s.readsOwn [(spBase p.val + off, 128)] then x else none
    | none => none
  { v with a := keep a v.a, b := keep b v.b, c := keep c v.c, d := keep d v.d }

/-- VOP decoded: its faults, or its place in the VECTOR queue, which then runs as far as it can (R143, R238, R240). -/
def decodeVop (p : CoreId) (off : Nat) (s : State) (cmd : Nat) : DecR :=
  let c := s.core p
  let adv := bit cmd 103
  if decide (8 ≤ c.qVector.length) then .stall
  else
    let fa := vopField c adv (bits cmd 63 48)
    let fb := vopField c adv (bits cmd 47 32)
    let fd := vopField c adv (bits cmd 31 16)
    let fe := vopField c adv (bits cmd 15 0)
    let ext := vopExt s p fe
    let fc := vopField c false (bits ext 111 96)
    let v := buildVop s p cmd ext off fa.off fb.off fd.off fc.off
    let gwD := match v.d with | some d => (parseDesc d).gw | none => false
    let range := fa.bad || fb.bad || fd.bad || fe.bad
    let at_ := fun (f : FieldOff) (n : Nat) => match f.off with
      | some o => [(spBase p.val + o, n)]
      | none => []
    let pre := [(vopFieldBad cmd ext gwD, 0x02), (range, 0x03)]
    let vr := readableVop s p v fa.off fb.off fd.off fc.off
    let known := (!subKnown v.sub, 0x30) ::
      (if range || !s.readsOwn (at_ fe 32) then []
       else [(vopFormatBad vr, 0x31), (vopAbsent v || vopSizeBad vr, 0x32)])
    s.seqRead (at_ fe 32 ++ at_ fa 128 ++ at_ fb 128 ++ at_ fc 128 ++ at_ fd 128) (pre ++ known) (fun s =>
      orFault (pre ++ (if range then [] else vopCauses p.val c.alevel v))
        (.ok ((s.setCore p (c.push 4 (.vop v))).pump p)))

/-- A VOP row: the decode of a command of sub-opcode `sub`; another command is not its step. -/
def State.vopRow (s : State) (p : CoreId) (sub : Nat) : State :=
  s.decodeCmd p 0x10 (fun s1 cmd =>
    if bits cmd 119 112 = sub then decodeVop p (s.core p).pos s1 cmd else .stall)

/-- A SCATTER row: the decode of a SCATTER of mode `mode`. The store row takes the held mode too, which faults. -/
def State.scatterRow (s : State) (p : CoreId) (modes : List Nat) : State :=
  s.decodeCmd p 0x10 (fun s1 cmd =>
    if bits cmd 119 112 = 0x61 ∧ modes.contains (bits cmd 105 104) then decodeVop p (s.core p).pos s1 cmd else .stall)

/-- VOP ADD (R144). -/
def execVopAdd (p : CoreId) (s : State) : Host.Outcome State Fault Refusal := .next (s.vopRow p 0x00)

/-- VOP SUB (R144). -/
def execVopSub (p : CoreId) (s : State) : Host.Outcome State Fault Refusal := .next (s.vopRow p 0x01)

/-- VOP MUL (R144). -/
def execVopMul (p : CoreId) (s : State) : Host.Outcome State Fault Refusal := .next (s.vopRow p 0x02)

/-- VOP FMA (R144). -/
def execVopFma (p : CoreId) (s : State) : Host.Outcome State Fault Refusal := .next (s.vopRow p 0x03)

/-- VOP MAX (R53, R144). -/
def execVopMax (p : CoreId) (s : State) : Host.Outcome State Fault Refusal := .next (s.vopRow p 0x04)

/-- VOP MIN (R53, R144). -/
def execVopMin (p : CoreId) (s : State) : Host.Outcome State Fault Refusal := .next (s.vopRow p 0x05)

/-- VOP ABS (R144). -/
def execVopAbs (p : CoreId) (s : State) : Host.Outcome State Fault Refusal := .next (s.vopRow p 0x06)

/-- VOP NEG (R144). -/
def execVopNeg (p : CoreId) (s : State) : Host.Outcome State Fault Refusal := .next (s.vopRow p 0x07)

/-- VOP AND (R143). -/
def execVopAnd (p : CoreId) (s : State) : Host.Outcome State Fault Refusal := .next (s.vopRow p 0x08)

/-- VOP OR (R143). -/
def execVopOr (p : CoreId) (s : State) : Host.Outcome State Fault Refusal := .next (s.vopRow p 0x09)

/-- VOP XOR (R143). -/
def execVopXor (p : CoreId) (s : State) : Host.Outcome State Fault Refusal := .next (s.vopRow p 0x0A)

/-- VOP SHR (R144, R255). -/
def execVopShr (p : CoreId) (s : State) : Host.Outcome State Fault Refusal := .next (s.vopRow p 0x0B)

/-- VOP CMPEQ (R145). -/
def execVopCmpeq (p : CoreId) (s : State) : Host.Outcome State Fault Refusal := .next (s.vopRow p 0x10)

/-- VOP CMPNE (R145). -/
def execVopCmpne (p : CoreId) (s : State) : Host.Outcome State Fault Refusal := .next (s.vopRow p 0x11)

/-- VOP CMPLT (R145). -/
def execVopCmplt (p : CoreId) (s : State) : Host.Outcome State Fault Refusal := .next (s.vopRow p 0x12)

/-- VOP CMPLE (R145). -/
def execVopCmple (p : CoreId) (s : State) : Host.Outcome State Fault Refusal := .next (s.vopRow p 0x13)

/-- VOP CMPGT (R145). -/
def execVopCmpgt (p : CoreId) (s : State) : Host.Outcome State Fault Refusal := .next (s.vopRow p 0x14)

/-- VOP CMPGE (R145). -/
def execVopCmpge (p : CoreId) (s : State) : Host.Outcome State Fault Refusal := .next (s.vopRow p 0x15)

/-- VOP SEL (R145). -/
def execVopSel (p : CoreId) (s : State) : Host.Outcome State Fault Refusal := .next (s.vopRow p 0x16)

/-- VOP CVT (R146, R147). -/
def execVopCvt (p : CoreId) (s : State) : Host.Outcome State Fault Refusal := .next (s.vopRow p 0x20)

/-- VOP CVTQ (R146, R147). -/
def execVopCvtq (p : CoreId) (s : State) : Host.Outcome State Fault Refusal := .next (s.vopRow p 0x21)

/-- VOP CSPLIT (R148). -/
def execVopCsplit (p : CoreId) (s : State) : Host.Outcome State Fault Refusal := .next (s.vopRow p 0x22)

/-- VOP CJOIN (R148). -/
def execVopCjoin (p : CoreId) (s : State) : Host.Outcome State Fault Refusal := .next (s.vopRow p 0x23)

/-- VOP EXP2 (R155 to R159). -/
def execVopExp2 (p : CoreId) (s : State) : Host.Outcome State Fault Refusal := .next (s.vopRow p 0x30)

/-- VOP LOG2. -/
def execVopLog2 (p : CoreId) (s : State) : Host.Outcome State Fault Refusal := .next (s.vopRow p 0x31)

/-- VOP RCP. -/
def execVopRcp (p : CoreId) (s : State) : Host.Outcome State Fault Refusal := .next (s.vopRow p 0x32)

/-- VOP RSQRT. -/
def execVopRsqrt (p : CoreId) (s : State) : Host.Outcome State Fault Refusal := .next (s.vopRow p 0x33)

/-- VOP SIGMOID. -/
def execVopSigmoid (p : CoreId) (s : State) : Host.Outcome State Fault Refusal := .next (s.vopRow p 0x34)

/-- VOP TANH. -/
def execVopTanh (p : CoreId) (s : State) : Host.Outcome State Fault Refusal := .next (s.vopRow p 0x35)

/-- VOP GELU. -/
def execVopGelu (p : CoreId) (s : State) : Host.Outcome State Fault Refusal := .next (s.vopRow p 0x36)

/-- VOP SMEXP. -/
def execVopSmexp (p : CoreId) (s : State) : Host.Outcome State Fault Refusal := .next (s.vopRow p 0x37)

/-- VOP SUMG (R149). -/
def execVopSumg (p : CoreId) (s : State) : Host.Outcome State Fault Refusal := .next (s.vopRow p 0x40)

/-- VOP RMAX (R150). -/
def execVopRmax (p : CoreId) (s : State) : Host.Outcome State Fault Refusal := .next (s.vopRow p 0x41)

/-- VOP RMIN (R150). -/
def execVopRmin (p : CoreId) (s : State) : Host.Outcome State Fault Refusal := .next (s.vopRow p 0x42)

/-- VOP ARGMAX (R151, R152). -/
def execVopArgmax (p : CoreId) (s : State) : Host.Outcome State Fault Refusal := .next (s.vopRow p 0x43)

/-- VOP ARGMIN (R151, R152). -/
def execVopArgmin (p : CoreId) (s : State) : Host.Outcome State Fault Refusal := .next (s.vopRow p 0x44)

/-- VOP TOPK (R151, R152). -/
def execVopTopk (p : CoreId) (s : State) : Host.Outcome State Fault Refusal := .next (s.vopRow p 0x45)

/-- VOP TOPKM (R153). -/
def execVopTopkm (p : CoreId) (s : State) : Host.Outcome State Fault Refusal := .next (s.vopRow p 0x46)

/-- VOP RNDU (R154, R278). -/
def execVopRndu (p : CoreId) (s : State) : Host.Outcome State Fault Refusal := .next (s.vopRow p 0x50)

/-- VOP RNDF (R154, R278). -/
def execVopRndf (p : CoreId) (s : State) : Host.Outcome State Fault Refusal := .next (s.vopRow p 0x51)

/-- VOP GATHER (R213, R214). -/
def execVopGather (p : CoreId) (s : State) : Host.Outcome State Fault Refusal := .next (s.vopRow p 0x60)

/-- VOP SCATTER, store mode (R215, R216). -/
def execVopScatterStore (p : CoreId) (s : State) : Host.Outcome State Fault Refusal := .next (s.scatterRow p [0, 3])

/-- VOP SCATTER, grid-add mode (R215). -/
def execVopScatterGridAdd (p : CoreId) (s : State) : Host.Outcome State Fault Refusal := .next (s.scatterRow p [1])

/-- VOP SCATTER, max mode (R215). -/
def execVopScatterMax (p : CoreId) (s : State) : Host.Outcome State Fault Refusal := .next (s.scatterRow p [2])

/-- A VOP of a held sub-opcode (R143): VOP_SUBOP, or a lower code that applies (R91). -/
def execVopSubop (p : CoreId) (s : State) : Host.Outcome State Fault Refusal :=
  .next (s.decodeCmd p 0x10 (fun s1 cmd =>
    if subKnown (bits cmd 119 112) then .stall else decodeVop p (s.core p).pos s1 cmd))

/-! ### SETVL (R132) -/

/-- SETVL decoded. -/
def decodeSetvl (p : CoreId) (s : State) (cmd : Nat) : DecR :=
  let v := bits cmd 119 107
  orFault [(bits cmd 106 0 != 0 || v == 0 || decide (4096 < v), 0x02)] (.ok (s.setCore p { s.core p with vl := v }))

/-- SETVL. -/
def execSetvl (p : CoreId) (s : State) : Host.Outcome State Fault Refusal :=
  .next (s.decodeCmd p 0x11 (decodeSetvl p))

/-! ### DIGEST (R256, R257) -/

/-- CMD_FIELD of a DIGEST. -/
def digestFieldBad (cmd : Nat) : Bool :=
  bits cmd 79 0 != 0 || decide (2 ≤ bits cmd 119 118) || (bits cmd 119 118 == 0 && bits cmd 98 80 != 0) ||
    (bits cmd 119 118 == 1 && bits cmd 113 99 != 0)

/-- DIGEST FOLD decoded, a held FORM with it. -/
def decodeFold (p : CoreId) (off : Nat) (s : State) (cmd : Nat) : DecR :=
  let c := s.core p
  if decide (8 ≤ c.qVector.length) then .stall
  else
    match c.effOffset (bit cmd 114) (128 * bits cmd 113 99) with
    | none => orFault [(digestFieldBad cmd, 0x02), (true, 0x03)] .stall
    | some o =>
      let d := s.rd (spBase p.val + o) 128
      s.seqRead [(spBase p.val + o, 128)] [(digestFieldBad cmd, 0x02)] (fun s =>
        orFault ([(digestFieldBad cmd, 0x02)] ++ (parseDesc d).causes p.val c.alevel false)
          (.ok ((s.setCore p (c.push 4 (.fold (bits cmd 117 115) d cmd off))).pump p)))

/-- DIGEST, FORM FOLD. A held FORM faults here. -/
def execDigestFold (p : CoreId) (s : State) : Host.Outcome State Fault Refusal :=
  .next (s.decodeCmd p 0x50 (fun s1 cmd =>
    if bits cmd 119 118 = 1 then .stall else decodeFold p (s.core p).pos s1 cmd))

/-- DIGEST STORE decoded. -/
def decodeStore (p : CoreId) (off : Nat) (s : State) (cmd : Nat) : DecR :=
  let c := s.core p
  if decide (8 ≤ c.qVector.length) then .stall
  else
    match c.effOffset (bit cmd 114) (8 * bits cmd 98 80) with
    | none => orFault [(digestFieldBad cmd, 0x02), (true, 0x03)] .stall
    | some o =>
      orFault [(digestFieldBad cmd, 0x02)]
        (.ok ((s.setCore p (c.push 4 (.store (bits cmd 117 115) o cmd off))).pump p))

/-- DIGEST, FORM STORE. -/
def execDigestStore (p : CoreId) (s : State) : Host.Outcome State Fault Refusal :=
  .next (s.decodeCmd p 0x50 (fun s1 cmd => if bits cmd 119 118 = 1 then decodeStore p (s.core p).pos s1 cmd else .stall))

end Sys2Proof.Machine
end

