-- ==== Sys2Proof/Machine/Dispatch.lean ====
section
/-! DEFINITION. Which meaning each command has: one arm per row of the command table. -/

namespace Sys2Proof.Machine

/-- The effect of a command on everything but the queue. -/
def exec (i : Instr) (s : State) : Host.Outcome State Fault Refusal :=
  match i with
  | .wload p => Sys2Proof.Machine.execWload p s
  | .wloadQueuedStart p => Sys2Proof.Machine.execWloadQueuedStart p s
  | .shadowComplete p => Sys2Proof.Machine.execShadowComplete p s
  | .mpass p => Sys2Proof.Machine.execMpass p s
  | .feederFill p ix => Sys2Proof.Machine.execFeederFill p ix s
  | .rowIssue p => Sys2Proof.Machine.execRowIssue p s
  | .swap p => Sys2Proof.Machine.execSwap p s
  | .contributionLand p errs => Sys2Proof.Machine.execContributionLand p errs s
  | .setg p => Sys2Proof.Machine.execSetg p s
  | .drain p => Sys2Proof.Machine.execDrain p s
  | .drainStart p => Sys2Proof.Machine.execDrainStart p s
  | .drainRowRead p errs => Sys2Proof.Machine.execDrainRowRead p errs s
  | .drainComplete p => Sys2Proof.Machine.execDrainComplete p s
  | .setvl p => Sys2Proof.Machine.execSetvl p s
  | .vopAdd p => Sys2Proof.Machine.execVopAdd p s
  | .vopSub p => Sys2Proof.Machine.execVopSub p s
  | .vopMul p => Sys2Proof.Machine.execVopMul p s
  | .vopFma p => Sys2Proof.Machine.execVopFma p s
  | .vopMax p => Sys2Proof.Machine.execVopMax p s
  | .vopMin p => Sys2Proof.Machine.execVopMin p s
  | .vopAbs p => Sys2Proof.Machine.execVopAbs p s
  | .vopNeg p => Sys2Proof.Machine.execVopNeg p s
  | .vopAnd p => Sys2Proof.Machine.execVopAnd p s
  | .vopOr p => Sys2Proof.Machine.execVopOr p s
  | .vopXor p => Sys2Proof.Machine.execVopXor p s
  | .vopShr p => Sys2Proof.Machine.execVopShr p s
  | .vopCmpeq p => Sys2Proof.Machine.execVopCmpeq p s
  | .vopCmpne p => Sys2Proof.Machine.execVopCmpne p s
  | .vopCmplt p => Sys2Proof.Machine.execVopCmplt p s
  | .vopCmple p => Sys2Proof.Machine.execVopCmple p s
  | .vopCmpgt p => Sys2Proof.Machine.execVopCmpgt p s
  | .vopCmpge p => Sys2Proof.Machine.execVopCmpge p s
  | .vopSel p => Sys2Proof.Machine.execVopSel p s
  | .vopCvt p => Sys2Proof.Machine.execVopCvt p s
  | .vopCvtq p => Sys2Proof.Machine.execVopCvtq p s
  | .vopCsplit p => Sys2Proof.Machine.execVopCsplit p s
  | .vopCjoin p => Sys2Proof.Machine.execVopCjoin p s
  | .vopExp2 p => Sys2Proof.Machine.execVopExp2 p s
  | .vopLog2 p => Sys2Proof.Machine.execVopLog2 p s
  | .vopRcp p => Sys2Proof.Machine.execVopRcp p s
  | .vopRsqrt p => Sys2Proof.Machine.execVopRsqrt p s
  | .vopSigmoid p => Sys2Proof.Machine.execVopSigmoid p s
  | .vopTanh p => Sys2Proof.Machine.execVopTanh p s
  | .vopGelu p => Sys2Proof.Machine.execVopGelu p s
  | .vopSmexp p => Sys2Proof.Machine.execVopSmexp p s
  | .vopSumg p => Sys2Proof.Machine.execVopSumg p s
  | .vopRmax p => Sys2Proof.Machine.execVopRmax p s
  | .vopRmin p => Sys2Proof.Machine.execVopRmin p s
  | .vopArgmax p => Sys2Proof.Machine.execVopArgmax p s
  | .vopArgmin p => Sys2Proof.Machine.execVopArgmin p s
  | .vopTopk p => Sys2Proof.Machine.execVopTopk p s
  | .vopTopkm p => Sys2Proof.Machine.execVopTopkm p s
  | .vopRndu p => Sys2Proof.Machine.execVopRndu p s
  | .vopRndf p => Sys2Proof.Machine.execVopRndf p s
  | .vopGather p => Sys2Proof.Machine.execVopGather p s
  | .vopScatterStore p => Sys2Proof.Machine.execVopScatterStore p s
  | .vopScatterGridAdd p => Sys2Proof.Machine.execVopScatterGridAdd p s
  | .vopScatterMax p => Sys2Proof.Machine.execVopScatterMax p s
  | .digestFold p => Sys2Proof.Machine.execDigestFold p s
  | .digestStore p => Sys2Proof.Machine.execDigestStore p s
  | .dma by_ => Sys2Proof.Machine.execDma by_ s
  | .lite p => Sys2Proof.Machine.execLite p s
  | .cuffWait p => Sys2Proof.Machine.execCuffWait p s
  | .cuffSignal p => Sys2Proof.Machine.execCuffSignal p s
  | .semAcq p => Sys2Proof.Machine.execSemAcq p s
  | .semRel p => Sys2Proof.Machine.execSemRel p s
  | .semAdd p => Sys2Proof.Machine.execSemAdd p s
  | .semRead p => Sys2Proof.Machine.execSemRead p s
  | .semGrant n => Sys2Proof.Machine.execSemGrant n s
  | .loopCmd p => Sys2Proof.Machine.execLoopCmd p s
  | .endloop p => Sys2Proof.Machine.execEndloop p s
  | .stepCmd p => Sys2Proof.Machine.execStepCmd p s
  | .tileEnd p => Sys2Proof.Machine.execTileEnd p s
  | .tileEndRetire p => Sys2Proof.Machine.execTileEndRetire p s
  | .note p => Sys2Proof.Machine.execNote p s
  | .halt p => Sys2Proof.Machine.execHalt p s
  | .haltComplete p => Sys2Proof.Machine.execHaltComplete p s
  | .faultedJobRelease handle => Sys2Proof.Machine.execFaultedJobRelease handle s
  | .sequencerFetch p => Sys2Proof.Machine.execSequencerFetch p s
  | .memRead r u => Sys2Proof.Machine.execMemRead r u s
  | .memWrite r others => Sys2Proof.Machine.execMemWrite r others s
  | .setWrite r => Sys2Proof.Machine.execSetWrite r s
  | .clrWrite r => Sys2Proof.Machine.execClrWrite r s
  | .eccWriteBack word => Sys2Proof.Machine.execEccWriteBack word s
  | .scrubRead bank u => Sys2Proof.Machine.execScrubRead bank u s
  | .scrubForcedRound bank u => Sys2Proof.Machine.execScrubForcedRound bank u s
  | .masterAged bank sub m => Sys2Proof.Machine.execMasterAged bank sub m s
  | .smallBankWait g addr => Sys2Proof.Machine.execSmallBankWait g addr s
  | .scrubStarved g b => Sys2Proof.Machine.execScrubStarved g b s
  | .bankWakeDone bank => Sys2Proof.Machine.execBankWakeDone bank s
  | .macroRetention bank m => Sys2Proof.Machine.execMacroRetention bank m s
  | .bankStateWrite by_ index unit v => Sys2Proof.Machine.execBankStateWrite by_ index unit v s
  | .bankStateChange bank => Sys2Proof.Machine.execBankStateChange bank s
  | .bankPowerUpDone bank => Sys2Proof.Machine.execBankPowerUpDone bank s
  | .dmaDescriptorStart e => Sys2Proof.Machine.execDmaDescriptorStart e s
  | .dmaCopy e => Sys2Proof.Machine.execDmaCopy e s
  | .dmaFill e => Sys2Proof.Machine.execDmaFill e s
  | .dmaGadd e => Sys2Proof.Machine.execDmaGadd e s
  | .dmaComplete e => Sys2Proof.Machine.execDmaComplete e s
  | .liteDelivery p => Sys2Proof.Machine.execLiteDelivery p s
  | .liteResponse p => Sys2Proof.Machine.execLiteResponse p s
  | .partitionConfigWrite by_ k v => Sys2Proof.Machine.execPartitionConfigWrite by_ k v s
  | .partitionCoreFreed k => Sys2Proof.Machine.execPartitionCoreFreed k s
  | .jobStart q => Sys2Proof.Machine.execJobStart q s
  | .timingLockWrite by_ k v => Sys2Proof.Machine.execTimingLockWrite by_ k v s
  | .stateSave p => Sys2Proof.Machine.execStateSave p s
  | .stateRestore p => Sys2Proof.Machine.execStateRestore p s
  | .borrowRequest => Sys2Proof.Machine.execBorrowRequest s
  | .borrowHandover p ns => Sys2Proof.Machine.execBorrowHandover p ns s
  | .borrowReturn p => Sys2Proof.Machine.execBorrowReturn p s
  | .coreReassign p => Sys2Proof.Machine.execCoreReassign p s
  | .arbitrationAged resource ticket => Sys2Proof.Machine.execArbitrationAged resource ticket s
  | .collectorTake => Sys2Proof.Machine.execCollectorTake s
  | .completionWrite => Sys2Proof.Machine.execCompletionWrite s
  | .signalCoreRun by_ g entry => Sys2Proof.Machine.execSignalCoreRun by_ g entry s
  | .signalCoreStop by_ g entry => Sys2Proof.Machine.execSignalCoreStop by_ g entry s
  | .signalCoreStopped g => Sys2Proof.Machine.execSignalCoreStopped g s
  | .postBaseWrite by_ g v => Sys2Proof.Machine.execPostBaseWrite by_ g v s
  | .vld g => Sys2Proof.Machine.execVld g s
  | .vst g => Sys2Proof.Machine.execVst g s
  | .vld2 g => Sys2Proof.Machine.execVld2 g s
  | .accsum g => Sys2Proof.Machine.execAccsum g s
  | .cmac g => Sys2Proof.Machine.execCmac g s
  | .cmacm g => Sys2Proof.Machine.execCmacm g s
  | .cdot3 g => Sys2Proof.Machine.execCdot3 g s
  | .rmac g => Sys2Proof.Machine.execRmac g s
  | .accclr g => Sys2Proof.Machine.execAccclr g s
  | .accst g => Sys2Proof.Machine.execAccst g s
  | .accsv g => Sys2Proof.Machine.execAccsv g s
  | .accrs g => Sys2Proof.Machine.execAccrs g s
  | .valuAdd g => Sys2Proof.Machine.execValuAdd g s
  | .valuSub g => Sys2Proof.Machine.execValuSub g s
  | .valuMin g => Sys2Proof.Machine.execValuMin g s
  | .valuMax g => Sys2Proof.Machine.execValuMax g s
  | .valuAbs g => Sys2Proof.Machine.execValuAbs g s
  | .valuNeg g => Sys2Proof.Machine.execValuNeg g s
  | .valuConj g => Sys2Proof.Machine.execValuConj g s
  | .valuMulj g => Sys2Proof.Machine.execValuMulj g s
  | .valuSwap g => Sys2Proof.Machine.execValuSwap g s
  | .valuShr g => Sys2Proof.Machine.execValuShr g s
  | .valuShl g => Sys2Proof.Machine.execValuShl g s
  | .valuAvg g => Sys2Proof.Machine.execValuAvg g s
  | .valuAnd g => Sys2Proof.Machine.execValuAnd g s
  | .valuOr g => Sys2Proof.Machine.execValuOr g s
  | .valuXor g => Sys2Proof.Machine.execValuXor g s
  | .valuBcast g => Sys2Proof.Machine.execValuBcast g s
  | .valuMov g => Sys2Proof.Machine.execValuMov g s
  | .aaluAdd g => Sys2Proof.Machine.execAaluAdd g s
  | .aaluSub g => Sys2Proof.Machine.execAaluSub g s
  | .aaluAnd g => Sys2Proof.Machine.execAaluAnd g s
  | .aaluOr g => Sys2Proof.Machine.execAaluOr g s
  | .aaluXor g => Sys2Proof.Machine.execAaluXor g s
  | .aaluShl g => Sys2Proof.Machine.execAaluShl g s
  | .aaluShr g => Sys2Proof.Machine.execAaluShr g s
  | .aaluSra g => Sys2Proof.Machine.execAaluSra g s
  | .aaluMin g => Sys2Proof.Machine.execAaluMin g s
  | .aaluMax g => Sys2Proof.Machine.execAaluMax g s
  | .aaluSlt g => Sys2Proof.Machine.execAaluSlt g s
  | .lds g => Sys2Proof.Machine.execLds g s
  | .sts g => Sys2Proof.Machine.execSts g s
  | .li g => Sys2Proof.Machine.execLi g s
  | .lih g => Sys2Proof.Machine.execLih g s
  | .mts g => Sys2Proof.Machine.execMts g s
  | .mfs g => Sys2Proof.Machine.execMfs g s
  | .br g => Sys2Proof.Machine.execBr g s
  | .brl g => Sys2Proof.Machine.execBrl g s
  | .jr g => Sys2Proof.Machine.execJr g s
  | .rep g => Sys2Proof.Machine.execRep g s
  | .waitCmd g => Sys2Proof.Machine.execWaitCmd g s
  | .rti g => Sys2Proof.Machine.execRti g s
  | .signalCoreHalt g => Sys2Proof.Machine.execSignalCoreHalt g s
  | .post x => Sys2Proof.Machine.execPost x s
  | .postResponse g => Sys2Proof.Machine.execPostResponse g s
  | .sacq g => Sys2Proof.Machine.execSacq g s
  | .srel g => Sys2Proof.Machine.execSrel g s
  | .interruptTaken g => Sys2Proof.Machine.execInterruptTaken g s
  | .timer g => Sys2Proof.Machine.execTimer g s
  | .crownMessage g => Sys2Proof.Machine.execCrownMessage g s
  | .cellConfigWrite by_ c v => Sys2Proof.Machine.execCellConfigWrite by_ c v s
  | .cellStart c => Sys2Proof.Machine.execCellStart c s
  | .slot => Sys2Proof.Machine.execSlot s
  | .symbol => Sys2Proof.Machine.execSymbol s
  | .uPlaneFrame f => Sys2Proof.Machine.execUPlaneFrame f s
  | .cPlaneFrame f => Sys2Proof.Machine.execCPlaneFrame f s
  | .windowTake c k => Sys2Proof.Machine.execWindowTake c k s
  | .window c k => Sys2Proof.Machine.execWindow c k s
  | .stageLate c k => Sys2Proof.Machine.execStageLate c k s
  | .fbLatest c => Sys2Proof.Machine.execFbLatest c s
  | .slotResultRecord c r => Sys2Proof.Machine.execSlotResultRecord c r s
  | .codeBlockDecode b => Sys2Proof.Machine.execCodeBlockDecode b s
  | .codeEngineRetired e => Sys2Proof.Machine.execCodeEngineRetired e s
  | .dlSymbolSend c frame slot symbol x width => Sys2Proof.Machine.execDlSymbolSend c frame slot symbol x width s
  | .dlLate c frame slot symbol => Sys2Proof.Machine.execDlLate c frame slot symbol s
  | .farReachConfigWrite by_ index sub v => Sys2Proof.Machine.execFarReachConfigWrite by_ index sub v s
  | .converter g first samples => Sys2Proof.Machine.execConverter g first samples s
  | .frameDetect m bw shifts start => Sys2Proof.Machine.execFrameDetect m bw shifts start s
  | .frameConfirm m bw shifts downs => Sys2Proof.Machine.execFrameConfirm m bw shifts downs s
  | .symbolDemod m bw energies clipped total => Sys2Proof.Machine.execSymbolDemod m bw energies clipped total s
  | .frLearnedLate m bw => Sys2Proof.Machine.execFrLearnedLate m bw s
  | .pilotTrack m bw freqEighths timeEighths => Sys2Proof.Machine.execPilotTrack m bw freqEighths timeEighths s
  | .frameEnd m bw => Sys2Proof.Machine.execFrameEnd m bw s
  | .frameTimeout m bw => Sys2Proof.Machine.execFrameTimeout m bw s
  | .agcUpdate powerQ => Sys2Proof.Machine.execAgcUpdate powerQ s
  | .noiseFloorUpdate samples meanQ => Sys2Proof.Machine.execNoiseFloorUpdate samples meanQ s
  | .frTransmit e => Sys2Proof.Machine.execFrTransmit e s
  | .nodeOccurrence ix => Sys2Proof.Machine.execNodeOccurrence ix s
  | .nodeHeard ix arrival => Sys2Proof.Machine.execNodeHeard ix arrival s
  | .occurrenceEnd ix => Sys2Proof.Machine.execOccurrenceEnd ix s
  | .beacon => Sys2Proof.Machine.execBeacon s
  | .joinFrame addr arrival => Sys2Proof.Machine.execJoinFrame addr arrival s
  | .combineRecord addr epoch r => Sys2Proof.Machine.execCombineRecord addr epoch r s
  | .combineWait addr epoch => Sys2Proof.Machine.execCombineWait addr epoch s
  | .frJesd lockLost crcErrors => Sys2Proof.Machine.execFrJesd lockLost crcErrors s
  | .sysrefEdge => Sys2Proof.Machine.execSysrefEdge s
  | .nodeIdWrite by_ v => Sys2Proof.Machine.execNodeIdWrite by_ v s
  | .routeTableWrite by_ v => Sys2Proof.Machine.execRouteTableWrite by_ v s
  | .messageForward m => Sys2Proof.Machine.execMessageForward m s
  | .fabricWrite m => Sys2Proof.Machine.execFabricWrite m s
  | .fabricRead m => Sys2Proof.Machine.execFabricRead m s
  | .fabricLite m => Sys2Proof.Machine.execFabricLite m s
  | .gadd m => Sys2Proof.Machine.execGadd m s
  | .claim m => Sys2Proof.Machine.execClaim m s
  | .rsp m => Sys2Proof.Machine.execRsp m s
  | .staleRole m r => Sys2Proof.Machine.execStaleRole m r s
  | .readData m => Sys2Proof.Machine.execReadData m s
  | .freeMsg m => Sys2Proof.Machine.execFreeMsg m s
  | .claimRetry p => Sys2Proof.Machine.execClaimRetry p s
  | .heartbeat m => Sys2Proof.Machine.execHeartbeat m s
  | .heartbeatSend node => Sys2Proof.Machine.execHeartbeatSend node s
  | .heartbeatTimeout node => Sys2Proof.Machine.execHeartbeatTimeout node s
  | .mgmt m f => Sys2Proof.Machine.execMgmt m f s
  | .lease m => Sys2Proof.Machine.execLease m s
  | .stepDone m => Sys2Proof.Machine.execStepDone m s
  | .commit m => Sys2Proof.Machine.execCommit m s
  | .fence m => Sys2Proof.Machine.execFence m s
  | .fenceRecovery run survivorHolds inputsSurvive => Sys2Proof.Machine.execFenceRecovery run survivorHolds inputsSurvive s
  | .flitReceive l f => Sys2Proof.Machine.execFlitReceive l f s
  | .linkCtl l ack nak credits => Sys2Proof.Machine.execLinkCtl l ack nak credits s
  | .linkCtlSend l => Sys2Proof.Machine.execLinkCtlSend l s
  | .laneDrop l lane => Sys2Proof.Machine.execLaneDrop l lane s
  | .retrainComplete l => Sys2Proof.Machine.execRetrainComplete l s
  | .laneTest l lane pass => Sys2Proof.Machine.execLaneTest l lane pass s
  | .linkTraining l t => Sys2Proof.Machine.execLinkTraining l t s
  | .linkConfigWrite by_ l v => Sys2Proof.Machine.execLinkConfigWrite by_ l v s
  | .tunnelConfigWrite by_ t v => Sys2Proof.Machine.execTunnelConfigWrite by_ t v s
  | .tunnelFrame t f => Sys2Proof.Machine.execTunnelFrame t f s
  | .tunnelRto t => Sys2Proof.Machine.execTunnelRto t s
  | .tunnelDown t => Sys2Proof.Machine.execTunnelDown t s
  | .timebaseTick => Sys2Proof.Machine.execTimebaseTick s
  | .tbIncWrite by_ v => Sys2Proof.Machine.execTbIncWrite by_ v s
  | .tbStep by_ v => Sys2Proof.Machine.execTbStep by_ v s
  | .tbSet by_ v => Sys2Proof.Machine.execTbSet by_ v s
  | .tbAdjustApply => Sys2Proof.Machine.execTbAdjustApply s
  | .scheduledInstant t => Sys2Proof.Machine.execScheduledInstant t s
  | .tbRefLost => Sys2Proof.Machine.execTbRefLost s
  | .tbRefOk => Sys2Proof.Machine.execTbRefOk s
  | .timeSourceWrite by_ v => Sys2Proof.Machine.execTimeSourceWrite by_ v s
  | .frameOffsetWrite by_ v => Sys2Proof.Machine.execFrameOffsetWrite by_ v s
  | .fieldPortFrame f => Sys2Proof.Machine.execFieldPortFrame f s
  | .portLinkUp q speed bypassed => Sys2Proof.Machine.execPortLinkUp q speed bypassed s
  | .portLatencyWrite by_ q v => Sys2Proof.Machine.execPortLatencyWrite by_ q v s
  | .pktTxSend t => Sys2Proof.Machine.execPktTxSend t s
  | .ppsInEdge sinceMs => Sys2Proof.Machine.execPpsInEdge sinceMs s
  | .ppsOutEnd => Sys2Proof.Machine.execPpsOutEnd s
  | .timeRequest l payload => Sys2Proof.Machine.execTimeRequest l payload s
  | .timeResponse l payload => Sys2Proof.Machine.execTimeResponse l payload s
  | .timeExchangeStart => Sys2Proof.Machine.execTimeExchangeStart s
  | .canRead path f => Sys2Proof.Machine.execCanRead path f s
  | .canWrite path f => Sys2Proof.Machine.execCanWrite path f s
  | .writeStart path f => Sys2Proof.Machine.execWriteStart path f s
  | .segment path f => Sys2Proof.Machine.execSegment path f s
  | .nextBlock path f => Sys2Proof.Machine.execNextBlock path f s
  | .abortTransfer path f => Sys2Proof.Machine.execAbortTransfer path f s
  | .transferTimeout path => Sys2Proof.Machine.execTransferTimeout path s
  | .inBandDatagram d => Sys2Proof.Machine.execInBandDatagram d s
  | .odRead f cmd => Sys2Proof.Machine.execOdRead f cmd s
  | .odWrite f cmd data => Sys2Proof.Machine.execOdWrite f cmd data s
  | .dictionaryWrite by_ index sub len v => Sys2Proof.Machine.execDictionaryWrite by_ index sub len v s
  | .persistComplete => Sys2Proof.Machine.execPersistComplete s
  | .noticeSend ch => Sys2Proof.Machine.execNoticeSend ch s
  | .journalAppend => Sys2Proof.Machine.execJournalAppend s
  | .ringCfgWrite f off v => Sys2Proof.Machine.execRingCfgWrite f off v s
  | .jobRingProd f set prod descs => Sys2Proof.Machine.execJobRingProd f set prod descs s
  | .ringConsWrite f off cons => Sys2Proof.Machine.execRingConsWrite f off cons s
  | .msiXMessage f off => Sys2Proof.Machine.execMsiXMessage f off s
  | .suspend f v => Sys2Proof.Machine.execSuspend f v s
  | .resume f v => Sys2Proof.Machine.execResume f v s
  | .release f v => Sys2Proof.Machine.execRelease f v s
  | .setprio f v => Sys2Proof.Machine.execSetprio f v s
  | .functionLevelReset f => Sys2Proof.Machine.execFunctionLevelReset f s
  | .perst => Sys2Proof.Machine.execPerst s
  | .bar2Access f write off len data => Sys2Proof.Machine.execBar2Access f write off len data s
  | .pktTxProd f ring prod => Sys2Proof.Machine.execPktTxProd f ring prod s
  | .visorCountWrite by_ index sub v => Sys2Proof.Machine.execVisorCountWrite by_ index sub v s
  | .visorSelectWrite by_ index sub v => Sys2Proof.Machine.execVisorSelectWrite by_ index sub v s
  | .visorHoldWrite by_ v => Sys2Proof.Machine.execVisorHoldWrite by_ v s
  | .safetyPartitionWrite by_ v => Sys2Proof.Machine.execSafetyPartitionWrite by_ v s
  | .mittenCompare p => Sys2Proof.Machine.execMittenCompare p s
  | .voteRerunDone p => Sys2Proof.Machine.execVoteRerunDone p s
  | .gauntletRotation c => Sys2Proof.Machine.execGauntletRotation c s
  | .gauntletSwap c => Sys2Proof.Machine.execGauntletSwap c s
  | .gauntletStalled c => Sys2Proof.Machine.execGauntletStalled c s
  | .selfTestComplete p failedPart => Sys2Proof.Machine.execSelfTestComplete p failedPart s
  | .checkerTest row unit fired => Sys2Proof.Machine.execCheckerTest row unit fired s
  | .cantonLost c => Sys2Proof.Machine.execCantonLost c s
  | .crownRestart within1s => Sys2Proof.Machine.execCrownRestart within1s s
  | .pwrFail => Sys2Proof.Machine.execPwrFail s
  | .pwrFailRelease => Sys2Proof.Machine.execPwrFailRelease s
  | .install by_ => Sys2Proof.Machine.execInstall by_ s
  | .installDone => Sys2Proof.Machine.execInstallDone s
  | .handover by_ => Sys2Proof.Machine.execHandover by_ s
  | .fwHandover => Sys2Proof.Machine.execFwHandover s
  | .fwRevert => Sys2Proof.Machine.execFwRevert s
  | .confirm by_ => Sys2Proof.Machine.execConfirm by_ s
  | .revert by_ => Sys2Proof.Machine.execRevert by_ s
  | .trialExpiry => Sys2Proof.Machine.execTrialExpiry s
  | .porst straps => Sys2Proof.Machine.execPorst straps s
  | .warmrst => Sys2Proof.Machine.execWarmrst s
  | .pwrGoodFall => Sys2Proof.Machine.execPwrGoodFall s
  | .bootVerify => Sys2Proof.Machine.execBootVerify s
  | .serviceLevel ok => Sys2Proof.Machine.execServiceLevel ok s
  | .governorTick pkg10us pkg100ms canton100us => Sys2Proof.Machine.execGovernorTick pkg10us pkg100ms canton100us s
  | .frequencyChange p => Sys2Proof.Machine.execFrequencyChange p s
  | .powerCap k => Sys2Proof.Machine.execPowerCap k s
  | .thermalRead readings => Sys2Proof.Machine.execThermalRead readings s
  | .thermalThrottleStep => Sys2Proof.Machine.execThermalThrottleStep s
  | .thermalTrip => Sys2Proof.Machine.execThermalTrip s
  | .alertRelease by_ v => Sys2Proof.Machine.execAlertRelease by_ v s
  | .semaphoreCrownWrite addr len data => Sys2Proof.Machine.execSemaphoreCrownWrite addr len data s
  | .hbmRefresh stack => Sys2Proof.Machine.execHbmRefresh stack s
  | .railFault r status => Sys2Proof.Machine.execRailFault r status s
  | .hbmStackLost stack => Sys2Proof.Machine.execHbmStackLost stack s
  | .signalQuadLost quad => Sys2Proof.Machine.execSignalQuadLost quad s
  | .portLinkDown q => Sys2Proof.Machine.execPortLinkDown q s
  | .pcieLinkDown => Sys2Proof.Machine.execPcieLinkDown s
  | .crownStateRestored => Sys2Proof.Machine.execCrownStateRestored s
  | .frTxTailEnd => Sys2Proof.Machine.execFrTxTailEnd s
  | .cmdOpcode p => Sys2Proof.Machine.execCmdOpcode p s
  | .vopSubop p => Sys2Proof.Machine.execVopSubop p s
  | .sigOpcode g => Sys2Proof.Machine.execSigOpcode g s
  | .tap tms tdi => Sys2Proof.Machine.execTap tms tdi s

end Sys2Proof.Machine
end

