-- ==== Sys2Proof/Safety.lean ====
section
/-! DEFINITION. What counts as a safe run: a run that no stop ends and whose states keep the canonical forms. -/

namespace Sys2Proof.Machine

/-- The state that a step answers, where it answers one. -/
def stepNext (s : State) : Option State :=
  match step s with
  | .next t => some t
  | _ => none

/-- The state after n steps, where none of them stops. -/
def runFor : Nat → State → Option State
  | 0, s => some s
  | n + 1, s => (stepNext s).bind (runFor n)

/-- A run from s never stops: after any number of steps there is a state. -/
def Unstopped (s : State) : Prop := ∀ n, (runFor n s).isSome

/-- Memory in canonical form: addresses strictly rising, no byte listed that reads as the default. -/
abbrev Memory.wf (m : SMap Byte) : Prop := swf m memDef

/-- The canonical forms of memory, of the dictionary's values in force, of their persisted copies, of the semaphores'
counts and of the banks' states. -/
abbrev State.canonical (s : State) : Prop :=
  Memory.wf s.mem ∧ swf s.dict odDef ∧ swf s.dictP odDef ∧ swf s.sems zeroD ∧ swf s.banks (fun _ => Bank.reset)

end Sys2Proof.Machine
end

