-- ==== Sys2Proof/Certificates/Slice0/Obligations.lean ====
section
/-! DEFINITION. The statements about the device, one definition each, from the numbered rules of spec/. A definition in
Sys2Proof.Claims states one part; an obligation states one or several parts of one family. -/

open Sys2Proof Sys2Proof.Machine

namespace Sys2Proof.Claims

open Sys2Proof.Machine

/-- The dictionary serves a requester now: the service level and the transport let it answer and Crown runs. -/
def serves (s : State) (by_ : Requester) : Prop :=
  s.answers by_ = true ∧ s.transportUp by_ = true ∧ s.safety.crown = .running

/-- Command c is the write of v to one entry by a requester: refused, it changes nothing and is answered with its code;
accepted, the entry's write is in force, an RWP entry's acknowledgement waits for its persisted copy, any other's comes at once
(R483 to R485). -/
def writesEntry (c : Instr) (by_ : Requester) (index sub v : Nat) : Prop :=
  ∀ (s : State) (e : EntryInfo), entryOf index sub = some e → serves s by_ →
    let w := v % 256 ^ e.ty.bytes
    let t := s.odApply index sub w
    let err := s.odWriteErr by_ index sub e.ty.bytes w
    (err ≠ odOk → exec c s = .next (s.emit (.odReply by_ index sub err 0 0))) ∧
    (err = odOk → e.acc = .rwp → exec c s = .next { t with
      host := { t.host with persists := t.host.persists ++ [⟨.direct by_, index, sub, s.od index sub, w⟩] } }) ∧
    (err = odOk → e.acc ≠ .rwp → exec c s = .next (t.emit (.odReply by_ index sub odOk 0 0)))

/-- Core p decodes next the command `cmd`, whose opcode is op (R234, R238). -/
def atHead (s : State) (p : CoreId) (op cmd : Nat) : Prop := s.nextCmd p = some cmd ∧ bits cmd 127 120 = op

/-- The state in which core p has just taken the command at the head of its stream. -/
def past (s : State) (p : CoreId) : State := s.setCore p (s.core p).decoded

/-- Semaphore n belongs to the partition that core p serves (R244). -/
def owns (s : State) (p : CoreId) (n : Nat) : Prop := s.semPart n = s.coreOwner p.val ∧ s.semPart n ≠ none

/-- The four queues of core p hold nothing. -/
def queuesEmpty (c : Core) : Prop := c.qLoader = [] ∧ c.qArray = [] ∧ c.qDrain = [] ∧ c.qVector = []

/-- Command c is an acquisition of k from semaphore n by core p, in queue eng, or by the sequencer where eng is 0: it waits in
its place; a full queue stalls decode (R235, R238 to R240). -/
def acquires (c : Instr) (s : State) (p : CoreId) (eng n k : Nat) : Prop :=
  let s1 := past s p
  (eng = 0 → (s1.core p).replayAcq.contains (0, n, k) = false → s1.asksFor p.val = true →
    exec c s = .next ((s1.setCore p { s1.core p with seqWait := .sem n k }).ask n k (.queue p.val 0))) ∧
  (eng ≠ 0 → (s1.core p).room eng (.acq n k false) = true →
    exec c s = .next ((s1.setCore p ((s1.core p).push eng (.acq n k false))).pump p)) ∧
  (eng ≠ 0 → (s1.core p).room eng (.acq n k false) = false → exec c s = .next s)

/-- Command c is a release of k to semaphore n by core p: at once by the sequencer, in its place in queue eng, and held until
the comparison by a core of a pair (R238, R240, R518). -/
def releases (c : Instr) (s : State) (p : CoreId) (cmd eng n k : Nat) : Prop :=
  let s1 := past s p
  (s1.inPair p.val = true → exec c s = .next (s1.holdAct p.val (halves cmd) (.add n k none))) ∧
  (s1.inPair p.val = false → eng = 0 → exec c s = .next (s1.semAdd n k)) ∧
  (s1.inPair p.val = false → eng ≠ 0 → (s1.core p).room eng (.rel n k) = true →
    exec c s = .next ((s1.setCore p ((s1.core p).push eng (.rel n k))).pump p)) ∧
  (s1.inPair p.val = false → eng ≠ 0 → (s1.core p).room eng (.rel n k) = false → exec c s = .next s)

end Sys2Proof.Claims

open Sys2Proof.Claims

/-! ### The machine as a whole -/

/-- One step runs the command at the front of the queue on the state with the queue's rest, whatever the command
(the block's contract: log 2). -/
def Sys2Proof.Claims.claimStepRunsFrontCommand : Prop :=
  ∀ (c : Instr) (rest : List Instr) (s : State),
    step { s with pending := c :: rest } = exec c { s with pending := rest }

/-- With no command waiting the block idles (the model's choice: log 2). -/
def Sys2Proof.Claims.claimEmptyQueueIdles : Prop :=
  ∀ s : State, s.pending = [] → step s = .next s

/-- A step runs the command at the front of the queue, or idles: the claims claimStepRunsFrontCommand, claimEmptyQueueIdles. -/
def Obligations.FrontCommandRunsOrIdle : Prop :=
  claimStepRunsFrontCommand ∧ claimEmptyQueueIdles

/-- What reset leaves, as far as the spec states it: banks ON, every semaphore and every timebase register at its reset,
TB_INC at its default, every notice channel's first SEQ still to come, ring blocks with LOG2N 4, entries at their default, the
service level BOOT, no canton with a spare, its rail or a core in service, partition maps empty, no partition owning a segment. -/
def Sys2Proof.Claims.claimResetLeavesSpecValues : Prop :=
  let s := State.reset
  (∀ b, (s.bank b).st = .on ∧ (s.bank b).req = .on) ∧
  s.time.now = 0 ∧ s.time.inc = 0x140000000 ∧
  (∀ index sub, s.od index sub = odDef (odKey index sub)) ∧
  (∀ ch : Fin 19, s.host.chans[ch.val].seq = 0 ∧ s.host.chans[ch.val].queue = []) ∧
  (∀ f off, (s.ring f off).log2n = 4 ∧ (s.ring f off).enable = false ∧ (s.ring f off).prod = 0 ∧ (s.ring f off).cons = 0) ∧
  s.power.level = 0 ∧
  (∀ g : SigId, s.sig g = Sig.reset) ∧
  (∀ c : CantonId, s.cantonStatus c.val = 0xFC) ∧
  s.pending = []

/-- Memory, the dictionary, the semaphores and the banks at reset are in canonical form. -/
def Sys2Proof.Claims.claimResetCanonical : Prop := State.reset.canonical

/-- Reset leaves the values the spec gives, in canonical form: the claims claimResetLeavesSpecValues, claimResetCanonical. -/
def Obligations.ResetLeavesSpecValues : Prop :=
  claimResetLeavesSpecValues ∧ claimResetCanonical

/-- Every step keeps memory and the dictionary in canonical form: addresses strictly rising, no byte listed that reads as the
default, and likewise the entries' values in force, their persisted copies, the semaphores and the banks. So equal memories are equal data after any run
from any such state. -/
def Obligations.StepKeepsCanonicalForms : Prop :=
  ∀ s t : State, s.canonical → step s = .next t → t.canonical

/-- The straps sampled at PORST# stay in force until the next PORST#: no other command changes them (R551). -/
def Sys2Proof.Claims.claimOnlyPorstChangesStraps : Prop :=
  ∀ (c : Instr) (s t : State), (∀ x, c ≠ .porst x) → exec c s = .next t → t.power.straps = s.power.straps

/-- Only PORST#, or a fall of PWR_GOOD that acts as PORST#, leaves a thermal trip: after any other command the clocks that the
trip stopped are still stopped, and its flag and stamp are held (R558). -/
def Sys2Proof.Claims.claimOnlyPorstLeavesTrip : Prop :=
  ∀ (c : Instr) (s t : State), s.power.stopped = true → (∀ x, c ≠ .porst x) → c ≠ .pwrGoodFall → exec c s = .next t →
    t.power.stopped = true ∧ t.power.tripped = s.power.tripped ∧ t.power.tripTime = s.power.tripTime

/-- The journal of the boot flash only grows: whatever the command, the records already in it keep their numbers and their
content, PORST# and power loss included (R537). -/
def Sys2Proof.Claims.claimJournalOnlyGrows : Prop :=
  ∀ (c : Instr) (s t : State), exec c s = .next t → s.host.journal <+: t.host.journal

/-- Only PORST# changes straps and leaves a trip; the journal only grows: the claims claimOnlyPorstChangesStraps, claimOnlyPorstLeavesTrip, claimJournalOnlyGrows. -/
def Obligations.OnlyResetsUndo : Prop :=
  claimOnlyPorstChangesStraps ∧ claimOnlyPorstLeavesTrip ∧ claimJournalOnlyGrows

/-! ### The array and the grid -/

/-- WLOAD, MPASS, SETG and DRAIN decoded (R238, R239, R246, R248 to R252): each without a fault that applies enters its queue, or
for SETG latches its exponents, and leaves the stream one command further. -/
def Sys2Proof.Claims.claimArrayCommandsDecoded : Prop :=
  ∀ (p : CoreId) (cmd : Nat) (s : State),
    let s1 := past s p
    let c := s1.core p
    let off := (s.core p).pos
    let b := spBase p.val
    (∀ doff, atHead s p 0x01 cmd → c.effOffset (bit cmd 36) (128 * bits cmd 114 100) = some doff →
      let tag := c.effTag (bit cmd 36) (bits cmd 119 117)
      let d := s1.rd (b + doff) 128
      let w : WloadCmd := ⟨c.ord, cmd, d, doff, tag, off⟩
      c.room 1 (.wload w) = true → (s1.ownCode true [(b + doff, 128)]).1 = 0 →
      leastCode (wloadCauses p.val c cmd tag (parseDesc d)) = 0 →
      exec (.wload p) s =
        .next (((s1.readAll [(b + doff, 128)]).setCore p ((c.push 1 (.wload w)).noteWload w)).startWload p)) ∧
    (∀ doff woff, atHead s p 0x02 cmd → c.effOffset (bit cmd 16) (128 * bits cmd 114 100) = some doff →
      c.effOffset (bit cmd 16 && bit cmd 115) (32 * bits cmd 99 83) = some woff →
      let tag := c.effTag (bit cmd 16) (bits cmd 119 117)
      let d := s1.rd (b + doff) 128
      let win := if bit cmd 115 then some (s1.rd (b + woff) 32) else none
      let l := (b + doff, 128) :: (if bit cmd 115 then [(b + woff, 32)] else [])
      let m : MPass :=
        { cmd := cmd, off := off, tag := tag, opens := bit cmd 116, win := win, desc := d, r0 := bits cmd 82 59,
          ak0 := bits cmd 58 35, rows := mRows cmd, grow := mGrow cmd, krows := sget c.wRows zeroD tag,
          g := c.setg, filled := [], issued := 0, landed := 0, tile := c.tileNo }
      c.qArray.length < 8 → (s1.ownCode true l).1 = 0 →
      leastCode (mpassCauses p.val c cmd tag (parseDesc d) (win.map parseWindow)) = 0 →
      exec (.mpass p) s = .next (((s1.readAll l).setCore p { c.push 2 (.mpass m) with
        lastM := some tag
        wPassed := c.wPassed || c.lastW == some tag
        wSince := [] }).pump p)) ∧
    (atHead s p 0x04 cmd → bits cmd 88 0 = 0 → bit cmd 119 = true → bits cmd 105 89 = 0 →
      exec (.setg p) s = .next (s1.setCore p { c with setg := List.replicate 64 (sbits cmd 118 107) })) ∧
    (∀ toff, atHead s p 0x04 cmd → bits cmd 88 0 = 0 → bit cmd 119 = false → bits cmd 118 107 = 0 →
      c.effOffset (bit cmd 106) (32 * bits cmd 105 89) = some toff → (s1.ownCode true [(b + toff, 128)]).1 = 0 →
      let vals := (List.range 64).map (fun j => sext 16 (s1.rd (b + toff + 2 * j) 2))
      ((∀ g ∈ vals, -2048 ≤ g ∧ g ≤ 2047) →
        exec (.setg p) s = .next ((s1.readAll [(b + toff, 128)]).setCore p { c with setg := vals })) ∧
      ((∃ g ∈ vals, g < -2048 ∨ 2047 < g) → exec (.setg p) s = .next (s.fault p.val 0x2A 0 cmd off))) ∧
    (∀ doff, atHead s p 0x03 cmd → c.effOffset (bit cmd 11) (128 * bits cmd 115 101) = some doff →
      let d := s1.rd (b + doff) 128
      let s2 := s1.readAll [(b + doff, 128)]
      let dc : Nat → DrainCmd := fun pb =>
        { cmd := cmd, off := off, dg := bit cmd 119, dslot := bits cmd 118 116, desc := d, pblk := pb,
          or0 := bits cmd 83 60, on0 := bits cmd 59 36, grow := bits cmd 35 27, rows := bits cmd 26 18 + 1,
          ncols := bits cmd 17 12 + 1, started := false, done := 0 }
      c.qDrain.length < 4 → (s1.ownCode true [(b + doff, 128)]).1 = 0 →
      ((parseDesc d).gw = true → leastCode (drainCauses p.val c cmd (parseDesc d) 0) = 0 →
        exec (.drain p) s = .next ((s2.setCore p (c.push 3 (.drain (dc 0)))).pump p)) ∧
      (∀ poff, (parseDesc d).gw = false → c.effOffset (bit cmd 11) (32 * bits cmd 100 84) = some poff →
        let pb := s2.rd (b + poff) 288
        (s2.ownCode true [(b + poff, 288)]).1 = 0 → leastCode (drainCauses p.val c cmd (parseDesc d) pb) = 0 →
        exec (.drain p) s =
          .next (((s2.readAll [(b + poff, 288)]).setCore p (c.push 3 (.drain (dc pb)))).pump p)))

/-- What the array's, feeders' and drain's events do (R58 to R64, R71 to R75, R81 to R87, R105 to R112, R119 to R127, R251): a
waiting WLOAD starts where the shadow is free; a load that ends fills the shadow; a feeder takes its next element; a row issues
from full feeders through the block of its tag; a swap makes the shadow active; a row pass lands in its grid row, checked by
residues; a drain starts once the passes before it have landed, writes its rows in order and leaves its queue. A core stopped
by a fault keeps its queues, feeders and blocks (R90, R268). -/
def Sys2Proof.Claims.claimArrayEventsAct : Prop :=
  ∀ (p : CoreId) (s : State),
    let c := s.core p
    (c.mode = .faulted →
      exec (.rowIssue p) s = .next s ∧ exec (.swap p) s = .next s ∧ exec (.drainStart p) s = .next s ∧
      (∀ errs, exec (.drainRowRead p errs) s = .next s) ∧ exec (.drainComplete p) s = .next s ∧
      (∀ i, exec (.feederFill p i) s = .next s)) ∧
    (∀ ord w rest, c.mode ≠ .faulted → c.qLoader = ⟨ord, .wload w⟩ :: rest → c.loading = none → c.shadow = none →
      exec (.wloadQueuedStart p) s = .next ((s.setCore p { c with qLoader := rest, loading := some w }).pump p)) ∧
    (∀ w, c.loading = some w → (s.ownCode true (wloadReads w)).1 = 0 → exec (.shadowComplete p) s =
      let s1 := (s.readAll (wloadReads w)).setCore p { c with loading := none }
      .next (((s1.setCore p { s1.core p with shadow := some (buildBlock s.mem w).1 }).addFlags p.val
        (buildBlock s.mem w).2).pump p)) ∧
    (∀ (i : Fin 512) ord m, c.mode ≠ .faulted → (c.feeder i.val).length < 16 → fillPass i.val c.qArray = some (ord, m) →
      let t := sget m.filled zeroD i.val
      (s.ownCode true (m.reads t i.val)).1 = 0 →
      let e := m.entry s.mem t i.val
      exec (.feederFill p i) s = .next (((s.readAll (m.reads t i.val)).setCore p
        { c.setFeeder i.val (c.feeder i.val ++ [e.1]) with
          qArray := mapPass ord (fun m => { m with filled := sput m.filled zeroD i.val (t + 1) }) c.qArray
          }).addFlags p.val e.2)) ∧
    (∀ ord m b row, c.mode ≠ .faulted → nextPass c.qArray = some (ord, m) → c.active = some b → b.wl.tag = m.tag →
      drainHolds c.qDrain ord (m.grow + m.issued) = false → c.heads m.krows = some row →
      ∃ t, exec (.rowIssue p) s = .next t ∧
        (t.core p).pipe = (c.popHeads m.krows).pipe ++
          [⟨m.grow + m.issued, m.opens, m.g, ord, (rowTerms b row).map (·.1)⟩] ∧
        (t.core p).grid = (c.popHeads m.krows).grid ∧ (t.core p).active = (c.popHeads m.krows).active ∧
        (∀ q : CoreId, q ≠ p → t.core q = s.core q) ∧ t.mem = s.mem ∧ t.sems = s.sems ∧ t.host = s.host) ∧
    (∀ ord m b, c.mode ≠ .faulted → nextPass c.qArray = some (ord, m) → c.shadow = some b → b.wl.tag = m.tag →
      c.active.map (fun a => a.wl.tag) ≠ some m.tag →
      exec (.swap p) s = .next (s.setCore p { c with active := some b, shadow := none })) ∧
    (∀ f rest (errs : List BitError), c.pipe = f :: rest →
      let s0 := s.logRow p.val f.grow
      let c0 := s0.core p
      let r := landRow errs (c0.gridRow f.grow) f
      exec (.contributionLand p errs) s = .next ((((s0.setCore p { c0.setGridRow f.grow r.1 with
        pipe := rest
        qArray := mapPass f.ord (fun m => { m with landed := m.landed + 1 }) c0.qArray }).addFlags p.val r.2.1).residueHit
          p.val r.2.2).pump p) ∧
      (s.inPair p.val = false → s0 = s)) ∧
    (∀ h : Nat × Nat, s.residueHit p.val none = s ∧ (c.residue = none →
      ((s.residueHit p.val (some h)).core p).deferred = c.deferred ++ [(0x27, h.1 * 256 + h.2)] ∧
      ((s.residueHit p.val (some h)).core p).residue = some h ∧ (s.residueHit p.val (some h)).mem = s.mem)) ∧
    (∀ ord d, c.mode ≠ .faulted → c.headDrain = some (ord, d) →
      (d.started = false → passesBefore c.qArray ord = false →
        exec (.drainStart p) s = .next (s.setCore p (c.setHeadDrain ord { d with started := true }))) ∧
      (d.started = true → d.done < d.rows → ∀ errs : List BitError,
        let r := (c.gridRow (d.grow + d.done)).withErrors errs
        let ws := d.writes r d.done
        let s1 := ((ws.foldl (fun st w => st.vwrite p.val w)
          ((s.setCore p (c.setHeadDrain ord { d with done := d.done + 1 })).wakeAll
            (ws.map (VWrite.span p.val)))).addFlags p.val
          (Flags.joinAll ((List.range d.ncols).map (fun j => (d.store r j).fl))))
        (s.ownCode false (ws.map (VWrite.span p.val))).1 = 0 →
        (d.dg = false → exec (.drainRowRead p errs) s = .next (s1.residueHit p.val r.drainCheck)) ∧
        (d.dg = true → exec (.drainRowRead p errs) s =
          .next ((s1.modCoreAt p.val (fun c => c.foldInto d.dslot (d.rowDigest r d.done) (d.rowNonZero r))).residueHit
            p.val r.drainCheck))) ∧
      (d.started = true → d.rows ≤ d.done →
        exec (.drainComplete p) s = .next ((s.setCore p { c with qDrain := c.qDrain.tail }).pump p)))

/-- Array commands are decoded and act in their queues: the claims claimArrayCommandsDecoded, claimArrayEventsAct. -/
def Obligations.ArrayCommandsAndEvents : Prop :=
  claimArrayCommandsDecoded ∧ claimArrayEventsAct

/-- Accumulators add (R101 with the states of R100): the exact sum where it fits, else the nearer bound, SAT and the SAT flag; the
sum does not depend on the order of its operands; a DMA engine's addition sets no core's flags. -/
def Obligations.AccumulatorSums : Prop :=
  (∀ a b : Acc, (a.st = .fin ∨ a.st = .sat) → (b.st = .fin ∨ b.st = .sat) →
    let x := a.acc + b.acc
    (-(2 ^ 111) ≤ x → x ≤ 2 ^ 111 - 1 →
      (accAdd a b).acc.acc = x ∧ (accAdd a b).fl = Flags.clear ∧
      ((accAdd a b).acc.st = .fin ↔ a.st = .fin ∧ b.st = .fin)) ∧
    (x < -(2 ^ 111) → accAdd a b = ⟨⟨.sat, -(2 ^ 111)⟩, Flags.ofSat true⟩) ∧
    (2 ^ 111 - 1 < x → accAdd a b = ⟨⟨.sat, 2 ^ 111 - 1⟩, Flags.ofSat true⟩)) ∧
  (∀ a b : Acc, accAdd a b = accAdd b a) ∧
  (∀ (s : State) (x : Dma) (run : Nat) (c : Nat × Nat × Nat), dmaOp x.desc = 2 → (s.dmaLocal x run c).2.cores = s.cores)

/-- Conversion into a grid word (R118): a finite x becomes the floor of x * 2^(40 - G) + 1/2, limited as R107 says with its flag,
with the flags of R108; NaN becomes NaN, an infinity the infinity of its sign. -/
def Obligations.GridConversionRounds : Prop :=
  ∀ (n : Int) (d : Nat) (z : Bool) (g : Int), 0 < d →
    let y : ℚ := (n : ℚ) / (d : ℚ) * (2 : ℚ) ^ (40 - g)
    let c : Int := ⌊y + 1 / 2⌋
    let r := valToAcc (.num n d z) g
    (c < -(2 ^ 88) → r = ⟨⟨.sat, -(2 ^ 88)⟩, Flags.ofSat true⟩) ∧
    (2 ^ 88 - 1 < c → r = ⟨⟨.sat, 2 ^ 88 - 1⟩, Flags.ofSat true⟩) ∧
    (-(2 ^ 88) ≤ c → c ≤ 2 ^ 88 - 1 → r.acc = ⟨.fin, c⟩ ∧ r.fl.inv = false ∧ r.fl.sat = false ∧
      (r.fl.inx = true ↔ (c : ℚ) ≠ y) ∧ (r.fl.unf = true ↔ n ≠ 0 ∧ c = 0)) ∧
    (∀ sg, (valToAcc (.nan sg) g).acc.st = .nan) ∧
    (valToAcc (.inf false) g).acc.st = .pinf ∧ (valToAcc (.inf true) g).acc.st = .ninf

/-- A row pass's terms whose contributions are whole and in range land exactly: the accumulator gains the sum of q * 2^(x + 40 - G),
no flag is set, and the order of the terms does not matter (R105, R110, R111). Without a bit error the residues agree (R126). -/
def Obligations.ContributionsLandExactly : Prop :=
  ∀ (j : Nat) (g a : Int) (r : Nat) (ts us : List Term),
    let v : Term → Int := fun t => t.sum * t.mu * 2 ^ (t.x + 40 - g).toNat
    (∀ t ∈ ts, t.sp = .fin ∧ 0 ≤ t.x + 40 - g ∧ -(2 ^ 88) ≤ v t ∧ v t ≤ 2 ^ 88 - 1) →
    ts.length ≤ 2 ^ 21 → -(2 ^ 110) ≤ a → a ≤ 2 ^ 110 →
    let l := landColumn [] j g ⟨.fin, a⟩ r ts
    let k := landColumn [] j g ⟨.fin, a⟩ r us
    l.acc = ⟨.fin, a + (ts.map v).sum⟩ ∧ l.fl = Flags.clear ∧
    (us.Perm ts → k.acc = l.acc ∧ k.fl = l.fl) ∧
    (r = res7 a → (∀ t ∈ ts, t.res = res7 t.sum) → l.res = res7 l.acc.acc ∧ l.bad = [])

namespace Sys2Proof.Claims

/-- The places that a VOP at the head of core p's stream names, effective (R246, R253): extension, A, B, D. -/
def vopPlaces (s : State) (p : CoreId) (cmd : Nat) : List FieldOff :=
  [bits cmd 15 0, bits cmd 63 48, bits cmd 47 32, bits cmd 31 16].map (vopField (s.core p) (bit cmd 103))

/-- The place that a VOP's extension names for C. -/
def vopPlaceC (s : State) (p : CoreId) (cmd : Nat) : FieldOff :=
  vopField (s.core p) false (bits (vopExt s p (vopField (s.core p) (bit cmd 103) (bits cmd 15 0))) 111 96)

/-- What a VOP reads at decode: its extension and its descriptors, where present. -/
def vopGets (s : State) (p : CoreId) (cmd : Nat) : List (Nat × Nat) :=
  let at_ := fun (f : FieldOff) (n : Nat) => match f.off with
    | some o => [(spBase p.val + o, n)]
    | none => []
  let f := fun i => (vopPlaces s p cmd).getD i ⟨none, false⟩
  at_ (f 0) 32 ++ at_ (f 1) 128 ++ at_ (f 2) 128 ++ at_ (vopPlaceC s p cmd) 128 ++ at_ (f 3) 128

/-- The VOP at the head of core p's stream, decoded in the state s that has taken it. -/
def vopAt (s : State) (p : CoreId) (cmd off : Nat) : VopCmd :=
  let f := fun i => (vopPlaces s p cmd).getD i ⟨none, false⟩
  buildVop s p cmd (vopExt s p (f 0)) off (f 1).off (f 2).off (f 3).off (vopPlaceC s p cmd).off

/-- No fault of decode applies to the VOP at the head of core p's stream, and its core's queues are empty. -/
def vopClean (s : State) (p : CoreId) (cmd : Nat) : Prop :=
  let s1 := past s p
  let v := vopAt s1 p cmd (s.core p).pos
  let ext := vopExt s1 p (vopField (s1.core p) (bit cmd 103) (bits cmd 15 0))
  queuesEmpty (s1.core p) ∧ (∀ f ∈ vopPlaces s1 p cmd, f.bad = false) ∧ (s1.ownCode true (vopGets s1 p cmd)).1 = 0 ∧
    vopFieldBad cmd ext (match v.d with | some d => (parseDesc d).gw | none => false) = false ∧
    leastCode (vopCauses p.val (s1.core p).alevel v) = 0

/-- The rows of the vector engine with their sub-opcodes (R143), SCATTER apart. -/
def vopRows (p : CoreId) : List (Instr × Nat) :=
  [(.vopAdd p, 0x00), (.vopSub p, 0x01), (.vopMul p, 0x02), (.vopFma p, 0x03), (.vopMax p, 0x04), (.vopMin p, 0x05),
   (.vopAbs p, 0x06), (.vopNeg p, 0x07), (.vopAnd p, 0x08), (.vopOr p, 0x09), (.vopXor p, 0x0A), (.vopShr p, 0x0B),
   (.vopCmpeq p, 0x10), (.vopCmpne p, 0x11), (.vopCmplt p, 0x12), (.vopCmple p, 0x13), (.vopCmpgt p, 0x14),
   (.vopCmpge p, 0x15), (.vopSel p, 0x16), (.vopCvt p, 0x20), (.vopCvtq p, 0x21), (.vopCsplit p, 0x22),
   (.vopCjoin p, 0x23), (.vopExp2 p, 0x30), (.vopLog2 p, 0x31), (.vopRcp p, 0x32), (.vopRsqrt p, 0x33),
   (.vopSigmoid p, 0x34), (.vopTanh p, 0x35), (.vopGelu p, 0x36), (.vopSmexp p, 0x37), (.vopSumg p, 0x40),
   (.vopRmax p, 0x41), (.vopRmin p, 0x42), (.vopArgmax p, 0x43), (.vopArgmin p, 0x44), (.vopTopk p, 0x45),
   (.vopTopkm p, 0x46), (.vopRndu p, 0x50), (.vopRndf p, 0x51), (.vopGather p, 0x60)]

end Sys2Proof.Claims

/-! ### The vector engine -/

/-- A VOP without a fault at decode, the queues of its core empty, executes at once (R143, R238, R240): the state with its
descriptors read, then its execution. Where no access of it fails and no index names no element, that execution performs its writes
in order, joins its flags to the core's and leaves every other core, the semaphores, the entries and the time as they were. -/
def Obligations.VopRowsExecute : Prop :=
  ∀ (p : CoreId) (cmd : Nat) (s : State), vopClean s p cmd →
    let s1 := past s p
    let v := vopAt s1 p cmd (s.core p).pos
    let t := (s1.readAll (vopGets s1 p cmd)).execVop p.val v
    (∀ row ∈ vopRows p, atHead s p 0x10 cmd → bits cmd 119 112 = row.2 → exec row.1 s = .next t) ∧
    (atHead s p 0x10 cmd → bits cmd 119 112 = 0x61 →
      (bits cmd 105 104 = 0 → exec (.vopScatterStore p) s = .next t) ∧
      (bits cmd 105 104 = 1 → exec (.vopScatterGridAdd p) s = .next t) ∧
      (bits cmd 105 104 = 2 → exec (.vopScatterMax p) s = .next t)) ∧
    (∀ x : State, let o := runVop v p.val (x.core p).alevel (x.core p).seed x.mem
      (x.ownCode true (v.reads p.val x.mem)).1 = 0 → (x.ownCode false (o.ws.map (VWrite.span p.val))).1 = 0 → o.addr = none →
      let y := x.execVop p.val v
      (y.core p).flags = (x.core p).flags.join o.fl ∧ (∀ q : CoreId, q ≠ p → y.core q = x.core q) ∧
      y.sems = x.sems ∧ y.dict = x.dict ∧ y.time = x.time ∧ y.jobs = x.jobs ∧ y.host = x.host)

/-- Integer results of the vector engine (R37, R144): the exact result limited to the format, SAT and INX exactly where it was
limited; SHR rounds half up and sets INX where it drops bits. -/
def Obligations.VectorIntegerResults : Prop :=
  ∀ (w opf al imm : Nat) (a b c : Int), (w, opf) ∈ [(4, 0), (8, 1), (16, 2)] →
    let lo : Int := -(2 ^ (w - 1))
    let hi : Int := 2 ^ (w - 1) - 1
    let out := fun (x : Int) =>
      (⟨enc w (max lo (min x hi)), if lo ≤ x ∧ x ≤ hi then Flags.clear else Flags.saturated⟩ : Stored)
    lo ≤ a → a ≤ hi → lo ≤ b → b ≤ hi → lo ≤ c → c ≤ hi →
    let r := fun sub => arithRes sub opf al imm (ofInt a) (ofInt b) (ofInt c)
    r 0x00 = out (a + b) ∧ r 0x01 = out (a - b) ∧ r 0x02 = out (a * b) ∧ r 0x03 = out (a * b + c) ∧
    r 0x04 = out (max a b) ∧ r 0x05 = out (min a b) ∧ r 0x06 = out |a| ∧ r 0x07 = out (-a) ∧
    (r 0x0B).code = enc w ((2 * a + 2 ^ (imm % 16)) / 2 ^ (imm % 16 + 1)) ∧
    ((r 0x0B).fl.inx = true ↔ ¬ (2 ^ (imm % 16) : Int) ∣ a) ∧
    (∀ i, i < w → ((r 0x08).code.testBit i = ((enc w a).testBit i && (enc w b).testBit i)) ∧
      ((r 0x09).code.testBit i = ((enc w a).testBit i || (enc w b).testBit i)) ∧
      ((r 0x0A).code.testBit i = ((enc w a).testBit i ^^ (enc w b).testBit i)))

/-- Comparisons (R145): on numbers the order of their values; where a NaN takes part 0, but 1 for CMPNE; a signalling NaN sets
INV; both zeros are equal. -/
def Obligations.ComparisonsOrderValues : Prop :=
  (∀ (n m : Int) (d e : Nat) (y z : Bool), 0 < d → 0 < e →
    let a := Val.num n d y
    let b := Val.num m e z
    let x : ℚ := (n : ℚ) / d
    let w : ℚ := (m : ℚ) / e
    (∀ i ∈ [0x10, 0x11, 0x12, 0x13, 0x14, 0x15], (cmpRes i a b).2 = false) ∧
    ((cmpRes 0x10 a b).1 = true ↔ x = w) ∧ ((cmpRes 0x11 a b).1 = true ↔ x ≠ w) ∧
    ((cmpRes 0x12 a b).1 = true ↔ x < w) ∧ ((cmpRes 0x13 a b).1 = true ↔ x ≤ w) ∧
    ((cmpRes 0x14 a b).1 = true ↔ w < x) ∧ ((cmpRes 0x15 a b).1 = true ↔ w ≤ x)) ∧
  (∀ (i : Nat) (a b : Val), (a.isNan = true ∨ b.isNan = true) →
    ((cmpRes i a b).1 = true ↔ i = 0x11) ∧ ((cmpRes i a b).2 = true ↔ a = .nan true ∨ b = .nan true))

/-- SETVL and DIGEST, and a held VOP sub-opcode (R132, R143, R256, R257, R281): VL is the value of the last SETVL; a fold adds its
tensor's digest to its slot; a store writes the slot and clears it; each waits in the vector engine's queue where that holds
others; a held code faults with VOP_SUBOP where neither CMD_FIELD nor CMD_RANGE, the lower codes, applies. -/
def Obligations.SetvlAndDigest : Prop :=
  ∀ (p : CoreId) (cmd : Nat) (s : State),
    let s1 := past s p
    let c := s1.core p
    let off := (s.core p).pos
    let slot := bits cmd 117 115
    (atHead s p 0x11 cmd →
      (bits cmd 106 0 = 0 → 1 ≤ bits cmd 119 107 → bits cmd 119 107 ≤ 4096 →
        exec (.setvl p) s = .next (s1.setCore p { c with vl := bits cmd 119 107 })) ∧
      ((bits cmd 106 0 ≠ 0 ∨ bits cmd 119 107 = 0 ∨ 4096 < bits cmd 119 107) →
        exec (.setvl p) s = .next (s.fault p.val 0x02 0 cmd off))) ∧
    (∀ o, atHead s p 0x50 cmd → bits cmd 119 118 = 0 → digestFieldBad cmd = false →
      c.effOffset (bit cmd 114) (128 * bits cmd 113 99) = some o →
      let d := s1.rd (spBase p.val + o) 128
      let l := [(spBase p.val + o, 128)]
      let spans := (parseDesc d).allSpans
      (s1.ownCode true l).1 = 0 → leastCode ((parseDesc d).causes p.val c.alevel false) = 0 →
      (c.qVector.length < 8 → exec (.digestFold p) s =
        .next (((s1.readAll l).setCore p (c.push 4 (.fold slot d cmd off))).pump p)) ∧
      (queuesEmpty c → c.mode ≠ .faulted → ((s1.readAll l).ownCode true spans).1 = 0 →
        exec (.digestFold p) s = .next (((s1.readAll l).readAll spans).setCore p
          (c.foldInto slot ((parseDesc d).digest s.mem) ((parseDesc d).anyNonZero s.mem))))) ∧
    (∀ o, atHead s p 0x50 cmd → bits cmd 119 118 = 1 → digestFieldBad cmd = false →
      c.effOffset (bit cmd 114) (8 * bits cmd 98 80) = some o →
      (c.qVector.length < 8 → exec (.digestStore p) s =
        .next ((s1.setCore p (c.push 4 (.store slot o cmd off))).pump p)) ∧
      (queuesEmpty c → c.mode ≠ .faulted → (s1.ownCode false [(spBase p.val + o, 8)]).1 = 0 →
        exec (.digestStore p) s = .next ((((s1.wakeSpan (spBase p.val + o) 8).storeFrame p.val (nth c.digests slot)
          (c.digestNz.getD slot false)).wrOwn p.val o 8 (nth c.digests slot)).modCoreAt p.val (fun c =>
            { c with digests := c.digests.set slot 0, digestNz := c.digestNz.set slot false })))) ∧
    (atHead s p 0x50 cmd → 2 ≤ bits cmd 119 118 → c.qVector.length < 8 →
      exec (.digestFold p) s = .next (s.fault p.val 0x02 0 cmd off)) ∧
    (atHead s p 0x10 cmd → subKnown (bits cmd 119 112) = false → c.qVector.length < 8 →
      (∀ f ∈ vopPlaces s1 p cmd, f.bad = false) →
      vopFieldBad cmd (vopExt s1 p (vopField c (bit cmd 103) (bits cmd 15 0)))
        (match (vopAt s1 p cmd off).d with | some d => (parseDesc d).gw | none => false) = false →
      exec (.vopSubop p) s = .next (s.fault p.val 0x30 0 cmd off))

/-! ### The memories -/

/-- Master m stands before master n in a round of sub-bank k (R170, R171): aged masters first, then by rank. -/
def Sys2Proof.Claims.standsBefore (s : State) (k : Nat) (m n : Master) : Prop :=
  s.rankAt (k / 4) m ≠ s.rankAt (k / 4) n ∧
    (if s.agedAt k m = s.agedAt k n then s.rankAt (k / 4) m < s.rankAt (k / 4) n else s.agedAt k m = true)

/-- Reads and writes of memory by address (R6, R166, R169, R173, R176, R182, R186, R259): a write that its response admits stores
exactly its bytes, little-endian, and answers OK; a refused one changes nothing but for its answer; of two writes of one word in
one round the one ahead wins and the other is answered W_LOST; SET and CLR change one word and answer its old value, but for an
uncorrectable word, which stays and is answered POISON; a read answers the bytes; Crown's write of a semaphore's word sets its
count. -/
def Obligations.MemoryAccesses : Prop :=
  ∀ s : State, s.canonical →
    (∀ (r : MemReq) (b : Nat), placeOf r.addr = .bank b → addrMode r.addr = 0 → 0 < r.len → s.mustWait r = false →
      r.master ≠ .feeders → r.master ≠ .loader → s.accessCode (Req.of r.who) r.addr r.len .write = 0 →
      ∃ t, exec (.memWrite r []) s = .next t ∧
        (∀ i, i < r.len → t.byte (addrBase r.addr + i) = BitVec.ofNat 8 (r.data / 256 ^ i)) ∧
        (∀ a, (a < addrBase r.addr ∨ addrBase r.addr + r.len ≤ a) → t.byte a = s.byte a) ∧
        t.out = s.out ++ [.memResp r.master r.core 0 0] ∧ t.cores = s.cores ∧ t.sems = s.sems ∧ t.dict = s.dict ∧
        t.host = s.host ∧ t.jobs = s.jobs ∧ (s.ecc = [] → t.visor = s.visor)) ∧
    (∀ (r q : MemReq) (b : Nat), placeOf r.addr = .bank b → b < 352 → addrMode r.addr = 0 → r.addr % 8 = 0 →
      r.len = 8 → q.addr = r.addr → q.len = 8 → s.mustWait r = false →
      r.master ≠ .feeders → r.master ≠ .loader → q.master ≠ .feeders → q.master ≠ .loader →
      s.accessCode (Req.of r.who) r.addr 8 .write = 0 → s.accessCode (Req.of q.who) r.addr 8 .write = 0 →
      standsBefore s (4 * b + r.addr / 64 % 4) r.master q.master →
      let won : Emission := .memResp r.master r.core 0 0
      let lost : Emission := .memResp q.master q.core 1 0
      ∃ t, exec (.memWrite r [⟨.write, q⟩]) s = .next t ∧ t.rd r.addr 8 = r.data % 256 ^ 8 ∧
        (∀ a, (a < r.addr ∨ r.addr + 8 ≤ a) → t.byte a = s.byte a) ∧
        t.out = s.out ++ (if r.core ≤ q.core then [won, lost] else [lost, won]) ∧
        (q.seq = true → t.host.journalNew.length = s.host.journalNew.length + 1) ∧
        (q.seq = false → t.host = s.host)) ∧
    (∀ (r : MemReq), s.accessCode (Req.of r.who) r.addr r.len .write ≠ 0 → r.master ≠ .feeders → r.master ≠ .loader →
      exec (.memWrite r []) s =
        .next (s.emit (.memResp r.master r.core (s.accessCode (Req.of r.who) r.addr r.len .write) 0))) ∧
    (∀ (r : MemReq) (set : Bool),
      let a := addrBase r.addr
      let addr := a + (if set then 1 else 2) * 2 ^ 48
      a < 2 ^ 48 → streamMaster r.master = false → s.accessCode (Req.of r.who) addr r.len .write = 0 → r.len = 8 →
      s.mustWait { r with addr := addr } = false → (placeOf addr).isSram = true →
      (s.poisoned a 8 = false → ∃ t, exec (if set then .setWrite ⟨r, []⟩ else .clrWrite ⟨r, []⟩) s = .next t ∧
        t.out = s.out ++ [.memResp r.master r.core 0 (s.rd a 8)] ∧
        (∀ i, i < 64 → (t.rd a 8).testBit i =
          (if set then (s.rd a 8).testBit i || r.data.testBit i else (s.rd a 8).testBit i && !r.data.testBit i)) ∧
        (∀ x, (x < a ∨ a + 8 ≤ x) → t.byte x = s.byte x) ∧ t.cores = s.cores ∧ t.sems = s.sems) ∧
      (s.poisoned a 8 = true → ∃ t, exec (if set then .setWrite ⟨r, []⟩ else .clrWrite ⟨r, []⟩) s = .next t ∧
        t.out = s.out ++ [.memResp r.master r.core 6 (s.rd a 8)] ∧ t.mem = s.mem ∧ t.ecc = s.ecc)) ∧
    (∀ (r : MemReq) (b : Nat), placeOf r.addr = .bank b → 0 < r.len → s.mustWait r = false →
      s.accessCode (Req.of r.who) r.addr r.len .read = 0 →
      ∃ t, exec (.memRead ⟨r, []⟩ .none) s = .next t ∧
        t.out = s.out ++ [.memResp r.master r.core (if s.poisoned (addrBase r.addr) r.len then 6 else 0)
          (s.rd (addrBase r.addr) r.len)] ∧
        t.mem = s.mem ∧ t.cores = s.cores ∧ t.sems = s.sems ∧ t.dict = s.dict ∧ t.host = s.host) ∧
    (∀ (n data : Nat), n < 65536 →
      ∃ t, exec (.semaphoreCrownWrite (semBase + 8 * n) 8 data) s = .next t ∧ t.semCount n = data % 2 ^ 32 ∧
        (∀ m, m ≠ n → t.semCount m = s.semCount m) ∧ t.mem = s.mem ∧ t.cores = s.cores ∧ t.dict = s.dict)

/-- Check bits, scrubbing, ageing, waits of the small banks and the power states of the banks (R171, R181, R185 to R193). -/
def Obligations.BanksAndScrubbing : Prop :=
  ∀ (bank : Fin 480) (s : State), s.canonical →
    let b := bank.val
    let x := s.bank b
    (∀ w, w ∈ s.writeBack → ∃ t, exec (.eccWriteBack w) s = .next t ∧ w ∉ t.writeBack ∧ t.mem = s.mem ∧
      t = { s with
        writeBack := s.writeBack.filter (fun y => y ≠ w)
        ecc := sput s.ecc (fun _ => EccErr.none) w .none }) ∧
    (∀ u, let row := bankStart b + x.scrubRow * rowBytes b
      exec (.scrubRead bank u) s = .next (s.scrub b u) ∧
      (s.alignsScrub b = none → exec (.scrubForcedRound bank u) s = .next (s.scrub b u)) ∧
      (∀ k, s.alignsScrub b = some k →
        (s.allAtBoundary k = false → exec (.scrubForcedRound bank u) s = .next (s.needPart k .scrub true)) ∧
        (s.allAtBoundary k = true → exec (.scrubForcedRound bank u) s = .next (((s.scrub b u).countGap k
          [if b < 288 then b / 36 else (b - 288) / 8]).needPart k .scrub false))) ∧
      ((x.st ≠ .on ∨ x.powering = true) → s.scrub b u = s) ∧
      (u = .none → (s.scrub b u).mem = s.mem) ∧ (∀ a, (a < row ∨ row + 8 ≤ a) → (s.scrub b u).byte a = s.byte a) ∧
      (s.scrub b u).cores = s.cores ∧ (s.scrub b u).sems = s.sems) ∧
    (∀ (sub : Fin 4) (m : Master), let k := lostKey (4 * b + sub.val) m
      (m ≠ .scrub → b < 352 → exec (.masterAged bank sub m) s =
        .next { s with lost := sput s.lost zeroD k (max 64 (sget s.lost zeroD k)) }) ∧
      ((m = .scrub ∨ 352 ≤ b) → exec (.masterAged bank sub m) s = .next s)) ∧
    (∀ (g : SigId) (addr : Nat), exec (.smallBankWait g addr) s =
      .next ((s.countDev 0x011 (some 0)).warn 0x0101 (some 0) 2 g.val addr)) ∧
    (∀ (g : SigId) (k : Fin 4), let n := 352 + 4 * g.val + k.val
      ((s.bank n).starved = false → exec (.scrubStarved g k) s =
        .next (((s.setBank n { s.bank n with starved := true }).countDev 0x014 (some 0)).warn 0x0108 (some 0) 2 g.val
          (g.val * 256 + k.val))) ∧
      ((s.bank n).starved = true → exec (.scrubStarved g k) s = .next s)) ∧
    (∀ m : Fin 16, x.st = .on → s.autoRet b = true → m.val < bankMacros b → x.retained.contains m.val = false →
      exec (.macroRetention bank m) s = .next (s.setBank b { x with retained := m.val :: x.retained })) ∧
    (x.waking = true → x.st = .retain → exec (.bankWakeDone bank) s = .next ((s.setBank b
      { x with st := .on, req := .on, waking := false, retained := [], macroWake := [] }).release b)) ∧
    (∀ m rest, x.st ≠ .retain → x.macroWake = m :: rest →
      exec (.bankWakeDone bank) s = .next ((s.wakeMacro b m).release b) ∧
      ((s.wakeMacro b m).bank b).retained = x.retained.filter (fun k => k ≠ m)) ∧
    (x.powering = false → s.stalled = [] →
      (x.st = .off → x.req ≠ .off →
        exec (.bankStateChange bank) s = .next (s.setBank b { x with powering := true })) ∧
      (x.st = .retain → x.req = .on →
        exec (.bankStateChange bank) s = .next (s.setBank b { x with waking := true })) ∧
      (x.st = .on → x.req = .retain →
        exec (.bankStateChange bank) s =
          .next ((s.setBank b { x with st := .retain, waking := false, retained := [], macroWake := [] }).release b)) ∧
      (x.st ≠ .off → x.req = .off →
        ∃ t, exec (.bankStateChange bank) s = .next t ∧
          (∀ a, bankStart b ≤ a → a < bankStart b + bankRows b * rowBytes b → t.byte a = 0#8) ∧
          (∀ a, (a < bankStart b ∨ bankStart b + bankRows b * rowBytes b ≤ a) → t.byte a = s.byte a) ∧
          t.cores = s.cores ∧ t.sems = s.sems ∧ t.dict = s.dict ∧ t.host = s.host)) ∧
    (x.powering = true → x.req = .on → exec (.bankPowerUpDone bank) s = .next ((s.setBank b
      { x with st := .on, powering := false, cleared := !s.zscrub b, valid := [], retained := [], macroWake := [] }).release b))

/-! ### DMA engines and the light path -/

/-- DMA and LITE decoded, a descriptor of Crown's taken, and the light path's delivery and answer (R218, R226 to R228, R244). -/
def Sys2Proof.Claims.claimDmaAndLiteQueued : Prop :=
  ∀ (p : CoreId) (cmd : Nat) (s : State),
    let s1 := past s p
    let c := s1.core p
    (∀ off, atHead s p 0x20 cmd →
      let eng := bits cmd 119 118
      let e := if eng = 0 then p.val else if eng = 1 then 72 + p.val / 9 else 80 + bits cmd 117 116
      let l := [(spBase p.val + off, 64)]
      eng ≠ 3 → bits cmd 98 0 = 0 → (eng = 2 ∨ bits cmd 117 116 = 0) →
      c.effOffset (bit cmd 99) (64 * bits cmd 115 100) = some off → (s1.ownCode true l).1 = 0 →
      (dmaDepth e ≤ (s1.dmaQ e).length → exec (.dma (.core p)) s = .next s) ∧
      ((s1.dmaQ e).length < dmaDepth e → s1.inPair p.val = false →
        exec (.dma (.core p)) s = .next ((s1.readAll l).submitDma e (s1.rd (spBase p.val + off) 64) p.val))) ∧
    (∀ (e : EngineId) (d : Nat),
      (dmaDepth e.val ≤ (s.dmaQ e.val).length → exec (.dma (.crown e d)) s = .next s) ∧
      ((s.dmaQ e.val).length < dmaDepth e.val → exec (.dma (.crown e d)) s =
        .next (s.setDmaQ e.val (s.dmaQ e.val ++ [⟨d % 2 ^ 512, none, none, none, false, false, false, 0, 0, 0⟩])))) ∧
    (atHead s p 0x21 cmd →
      let src := 8 * bits cmd 119 101
      let n := 8 * (bits cmd 100 96 + 1)
      let dst := bits cmd 79 16
      let l := [(spBase p.val + src, n)]
      bits cmd 15 0 = 0 → c.lites.length < 16 → (s1.ownCode true l).1 = 0 → s1.inPair p.val = false →
      (dst / 2 ^ 52 ≠ s.nodeId ∨ s1.semPart (bits cmd 95 80) = s1.coreOwner p.val) →
      (liteShapeBad src n dst = true → exec (.lite p) s = .next (s.fault p.val 0x57 0 cmd (s.core p).pos)) ∧
      (liteShapeBad src n dst = false →
        exec (.lite p) s = .next ((s1.readAll l).setCore p { c with
          lites := c.lites ++ [⟨c.ord, s.rd (spBase p.val + src) n, n, dst, bits cmd 95 80, false, none⟩] }))) ∧
    (∀ x, (s.core p).nextLite = some x → x.dst / 2 ^ 52 = s.nodeId →
      let w := s.writeAccess (s.coreReq p.val) (x.dst % 2 ^ 52) x.len x.data
      let t := if w.1 = 0 then w.2.semAdd x.sem 1 else w.2
      exec (.liteDelivery p) s = .next ((t.setCore p ((t.core p).modLite x.ord
        (fun l => { l with sent := true, resp := some w.1 }))).countCore p.val 0x20)) ∧
    (∀ x s2, (s.core p).nextLite = some x → x.dst / 2 ^ 52 ≠ s.nodeId →
      s.request (x.dst / 2 ^ 52) 0 0x03 (x.dst % 2 ^ 52) (x.len / 8 + 1) x.payload (.lite p.val x.ord) = some s2 →
      exec (.liteDelivery p) s = .next ((s2.setCore p ((s2.core p).modLite x.ord
        (fun l => { l with sent := true }))).countCore p.val 0x20)) ∧
    (∀ x code, (s.core p).lites.find? (fun l => l.resp.isSome) = some x → x.resp = some code →
      let t := s.setCore p { s.core p with
        lites := (s.core p).lites.erase x
        liteFaults := if liteFault code = 0 then (s.core p).liteFaults
          else (s.core p).liteFaults ++ [(x.ord, liteFault code)] }
      (code ≠ 1 → exec (.liteResponse p) s = .next t) ∧
      (code = 1 → exec (.liteResponse p) s = .next (t.warn 0x0100 (s.coreOwner p.val) 1 p.val (x.dst % 2 ^ 52))))

/-- Descriptors at the head of an engine's queue (R219 to R225): one that fails a check is done with its status and moves nothing;
one with WAIT_SEM waits for its semaphore; COPY, FILL and GADD of an engine within the node move every byte where no request
fails; completion writes its record, releases its semaphore, and frees its place. -/
def Sys2Proof.Claims.claimDmaDescriptors : Prop :=
  ∀ (e : EngineId) (x : Dma) (s : State), s.dmaHead e.val = some x →
    (x.started = false →
      (s.dmaCheck e.val x ≠ 0 → exec (.dmaDescriptorStart e) s = .next (s.setDmaHead e.val
        { x with started := true, moved := true, status := s.dmaCheck e.val x })) ∧
      (s.dmaCheck e.val x = 0 → bit x.desc 10 = false →
        exec (.dmaDescriptorStart e) s = .next (s.setDmaHead e.val { x with started := true })) ∧
      (s.dmaCheck e.val x = 0 → bit x.desc 10 = true → s.dmaReplay x = false → s.dmaFollower x = false →
        exec (.dmaDescriptorStart e) s = .next ((s.setDmaHead e.val { x with started := true, waiting := true }).ask
          (bits x.desc 31 16) 1 (.dma e.val)))) ∧
    (∀ row ∈ [(Instr.dmaCopy e, 0), (.dmaFill e, 1), (.dmaGadd e, 2)], dmaOp x.desc = row.2 → x.started = true →
      x.waiting = false → x.moved = false →
      (s.crossing e.val x.desc).filter (fun y => s.claims x.job y.2.1) = none →
      (e.val < 80 → s.dmaFails x = [] → exec row.1 s =
        .next ((s.dmaRun x none (withRun x.desc) 0).setDmaHead e.val { x with moved := true })) ∧
      (80 ≤ e.val → exec row.1 s = .next (s.brimRun e.val ((brimRuns x.desc).drop x.next)))) ∧
    (x.moved = true → x.wait = 0 → s.crossing e.val x.desc = none → x.by_ = none → bit x.desc 12 = false →
      let t := (s.setDmaQ e.val (s.dmaQ e.val).tail).latchEntry (crownEntry e.val)
      (x.status = 0 → bit x.desc 11 = true → exec (.dmaComplete e) s = .next (t.semAdd (bits x.desc 47 32) 1)) ∧
      (x.status = 0 → bit x.desc 11 = false → exec (.dmaComplete e) s = .next t) ∧
      (1 < x.status → x.status ≠ 0xB → exec (.dmaComplete e) s = .next (t.faultNotice 0x56 none 0 0 x.status))) ∧
    (∀ p, x.moved = true → x.wait = 0 → s.crossing e.val x.desc = none → x.by_ = some p → bit x.desc 12 = true →
      x.status = 0 →
      let t := s.setDmaQ e.val (s.dmaQ e.val).tail
      let r := t.writeAccess x.req (bits x.desc 99 48) 16 (compRecord s.stamp 0)
      r.1 = 0 → bit x.desc 11 = true → s.dmaFollower x = false → s.dmaReplay x = false →
      exec (.dmaComplete e) s = .next ((r.2.countCore p 0x21).semAdd (bits x.desc 47 32) 1)) ∧
    (∀ run a b n : Nat, dmaOp x.desc = 0 → (s.readAccess x.req (a % 2 ^ 52) n).1 = 0 →
      s.dmaLocal x run (a, b, n) =
        (s.readAccess x.req (a % 2 ^ 52) n).2.2.writeAccess x.req (b % 2 ^ 52) n (s.readAccess x.req (a % 2 ^ 52) n).2.1)

/-- DMA and LITE commands are queued; descriptors run: the claims claimDmaAndLiteQueued, claimDmaDescriptors. -/
def Obligations.DmaQueuedAndFetched : Prop :=
  claimDmaAndLiteQueued ∧ claimDmaDescriptors

/-! ### Semaphores and control of a core's stream -/

/-- Cuff and semaphore commands at the head of a stream (R229, R232, R244, R259), and the grant of a semaphore to its head
waiter (R260, R322). -/
def Obligations.SemaphoreCommands : Prop :=
  ∀ (p : CoreId) (cmd : Nat) (s : State),
    let s1 := past s p
    let eng := bits cmd 119 117
    let ret := semRet cmd
    (atHead s p 0x30 cmd → cuffField cmd = false → owns s1 p (cuffSem cmd) →
      acquires (.cuffWait p) s p eng (cuffSem cmd) 1) ∧
    (atHead s p 0x31 cmd → cuffField cmd = false → owns s1 p (cuffSem cmd) →
      releases (.cuffSignal p) s p cmd eng (cuffSem cmd) 1) ∧
    (atHead s p 0x38 cmd → semField cmd = false → owns s1 p (semN cmd) →
      acquires (.semAcq p) s p eng (semN cmd) (semK cmd)) ∧
    (atHead s p 0x39 cmd → semField cmd = false → owns s1 p (semN cmd) →
      releases (.semRel p) s p cmd eng (semN cmd) (semK cmd)) ∧
    (atHead s p 0x3A cmd → semField cmd = false → owns s1 p (semN cmd) → s1.inPair p.val = false →
      (bit cmd 84 = false → exec (.semAdd p) s = .next (s1.semAdd (semN cmd) (sbits cmd 83 52))) ∧
      (bit cmd 84 = true → (s1.ownCode false [(spBase p.val + ret, 8)]).1 = 0 → exec (.semAdd p) s =
        .next (((s1.wakeSpan (spBase p.val + ret) 8).wrOwn p.val ret 8 (s1.semCount (semN cmd))).semAdd (semN cmd)
          (sbits cmd 83 52)))) ∧
    (atHead s p 0x3B cmd → semField cmd = false → owns s1 p (semN cmd) → s1.pairOf p.val = none →
      (s1.ownCode false [(spBase p.val + ret, 8)]).1 = 0 →
      exec (.semRead p) s = .next ((s1.wakeSpan (spBase p.val + ret) 8).wrOwn p.val ret 8 (s1.semCount (semN cmd)))) ∧
    (atHead s p 0x39 cmd → semField cmd = false → ¬ owns s1 p (semN cmd) →
      exec (.semRel p) s = .next (s.fault p.val 0x41 (semBase + 8 * semN cmd) cmd (s.core p).pos)) ∧
    (∀ n : Fin 65536,
      (s.headWaiter n.val = none → exec (.semGrant n) s = .next s) ∧
      (∀ w, s.headWaiter n.val = some w → s.semCount n.val < w.need → exec (.semGrant n) s = .next s) ∧
      (∀ w q, s.headWaiter n.val = some w → w.need ≤ s.semCount n.val → w.who = .queue q 0 → s.pairOf q = none →
        w.aged = false → w.others < 64 →
        let rest := ((sget s.waiters (fun _ => []) n.val).erase w).map (fun x => { x with others := x.others + 1 })
        exec (.semGrant n) s = .next ((({ s with waiters := sput s.waiters (fun _ => []) n.val rest }).setSem n.val
          (s.semCount n.val - w.need)).pass q 0)))

/-- A semaphore's count after an addition (R259): the exact sum limited to its 32 bits, with SEM_SAT exactly where it was
limited; every other count, memory, the dictionary and the cores stay. A count that leaves 0 tells the signal cores that watch
it (R354). -/
def Obligations.SemaphoreCountsSaturate : Prop :=
  ∀ (n : Nat) (d : Int) (s : State), swf s.sems zeroD →
    let r : Int := s.semCount n + d
    let t := s.semAdd n d
    (t.semCount n : Int) = max 0 (min r (2 ^ 32 - 1)) ∧
    (∀ m, m ≠ n → t.semCount m = s.semCount m) ∧
    t.mem = s.mem ∧ t.dict = s.dict ∧ t.cores = s.cores ∧ t.banks = s.banks ∧ t.time = s.time ∧ t.jobs = s.jobs ∧
    (0 ≤ r → r ≤ 2 ^ 32 - 1 → t.host = s.host) ∧
    (r < 0 ∨ 2 ^ 32 - 1 < r → t.host.journalNew.length = s.host.journalNew.length + 1) ∧
    (s.semCount n = 0 → 0 < r → ∀ g : SigId, (s.sig g).watch.toNat = n → (t.sig g).ipend.getLsbD 4 = true)

/-- NOTE (R262): the notice it raises has code 0x8000 + UCODE, with the physical core as its source. -/
def Obligations.NoteRaisesItsNotice : Prop :=
  ∀ (p : CoreId) (cmd : Nat) (s : State), atHead s p 0x61 cmd → bits cmd 101 64 = 0 → bits cmd 119 118 < 2 →
    bit cmd 117 = false → s.inPair p.val = false →
    exec (.note p) s = .next ((past s p).raise
      ⟨bits cmd 119 118, 0x8000 + bits cmd 116 102, (past s p).coreOwner p.val, 1, p.val, 0, 0, bits cmd 63 0⟩)

/-- SEQUENCER_FETCH, LOOP, ENDLOOP, STEP, TILE.END and its retirement, HALT and its completion, and the held
opcodes (R235, R243, R245, R261, R263 to R266). -/
def Obligations.StreamControl : Prop :=
  ∀ (p : CoreId) (cmd : Nat) (s : State),
    let s1 := past s p
    let c := s1.core p
    (∀ l, l = fetchLine s.mem (spBase p.val)
        (ringSkip (s.core p).ringBase (s.core p).ringLen (s.core p).pos (s.core p).fetched.length) 4 →
      (s.core p).mode = .running → (s.core p).seqWait = .none → (s.core p).ringLen ≠ 0 →
      (s.core p).fetched.any isSeqWait = false → (s.core p).fetched.length + l.length ≤ 16 →
      let a := spBase p.val +
        ringSkip (s.core p).ringBase (s.core p).ringLen (s.core p).pos (s.core p).fetched.length
      s.readCode (s.coreReq p.val) a 16 = 0 → exec (.sequencerFetch p) s =
        .next ((s.readAll [(a, 16 * l.length)]).setCore p { s.core p with fetched := (s.core p).fetched ++ l })) ∧
    (atHead s p 0x40 cmd → bits cmd 84 0 = 0 → bits cmd 119 104 ≠ 0 → c.loops.length < 4 →
      exec (.loopCmd p) s = .next (s1.setCore p { c with
        loops := c.loops ++ [⟨bits cmd 119 104, sbits cmd 103 88, bits cmd 87 85, 0, c.pos⟩] })) ∧
    (∀ (outer : List LoopLevel) (l : LoopLevel), atHead s p 0x41 cmd → bits cmd 119 0 = 0 → c.loops = outer ++ [l] →
      (l.i + 1 < l.count → exec (.endloop p) s = .next (s1.setCore p { c with
        loops := outer ++ [{ l with i := l.i + 1 }], pos := l.body, fetched := [] })) ∧
      (l.count ≤ l.i + 1 → exec (.endloop p) s = .next (s1.setCore p { c with loops := outer }))) ∧
    (atHead s p 0x51 cmd → bits cmd 119 0 = 0 → s.stepWaits p = false →
      (c.step + 1 < 2 ^ 64 → exec (.stepCmd p) s =
        .next ((s1.setCore p { c with step := c.step + 1, stepHeld := false }).frameStep p.val)) ∧
      (2 ^ 64 ≤ c.step + 1 → exec (.stepCmd p) s = .next (s.fault p.val 0x03 0 cmd (s.core p).pos))) ∧
    (atHead s p 0x60 cmd → bits cmd 119 0 = 0 → exec (.tileEnd p) s = .next (s1.setCore p { c with
      tileEnds := c.tileEnds ++ [(c.ord, (s.core p).pos, !c.deferred.isEmpty)]
      tileNo := c.tileNo + 1
      mode := if c.needs = [] ∧ c.deferred = [] ∧ s.inPair p.val = false then c.mode else .boundary })) ∧
    (∀ ord off takes rest, (s.core p).tileEnds = (ord, off, takes) :: rest → (s.core p).mode = .running → (s.core p).retiredTile = false →
      (s.core p).queuesDone ord = true → s.inPair p.val = false →
      ((s.core p).tileFaults takes ord = [] → exec (.tileEndRetire p) s =
        .next (((s.setCore p (s.core p).retire).countCore p.val 0x07).tileLong p.val
          (sget (s.core p).tileCycles zeroD (s.core p).tileRet))) ∧
      (∀ f, lowestFault ((s.core p).tileFaults takes ord) = some f → exec (.tileEndRetire p) s =
        .next ((s.setCore p (s.core p).retire).fault p.val f.1 f.2 tileEndCmd off))) ∧
    (atHead s p 0x70 cmd → bits cmd 103 0 = 0 → s.inPair p.val = false → exec (.halt p) s =
      .next (s1.setCore p { c with mode := .halting, haltCode := bits cmd 119 104 })) ∧
    ((s.core p).mode = .halting → (s.core p).tileEnds = [] → (s.core p).queuesDone (s.core p).ord = true →
      s.dmasDone p.val = true → (s.core p).held.contains .halt = false →
      (s.core p).tileFaults true (s.core p).ord = [] →
      ((s.latchesOf (p.val / 9)).any (fun e => e.core == p.val) = false → exec (.haltComplete p) s =
        .next (((s.setCore p { s.core p with mode := .halted, saveMap := none }).tileLong p.val
          (sget (s.core p).tileCycles zeroD (s.core p).tileRet)).latch p.val (s.core p).haltCode 0)) ∧
      ((s.latchesOf (p.val / 9)).any (fun e => e.core == p.val) = true →
        exec (.haltComplete p) s = .next (s.countCanton (p.val / 9) 0x31))) ∧
    (s.nextCmd p = some cmd → opcodeKnown (bits cmd 127 120) = false →
      exec (.cmdOpcode p) s = .next (s.fault p.val 0x01 0 cmd (s.core p).pos))

/-! ### Partitions, jobs and placement -/

/-- Jobs start, are collected and end (R237, R269, R298, R320, R323 to R325, R504, R505): the oldest waiting job of a queue set starts
where it can be placed; a task starts with the state of R237 and its image at the start of its scratchpad, zeros behind, into
which its physical addresses and semaphore numbers are then written (R165, R244; which names an image uses is the model's
choice: log 150); the collector takes one entry of each canton; Crown's drain of an entry acts on its job; a faulted job's cores are released. -/
def Obligations.JobsStartAndComplete : Prop :=
  ∀ s : State,
    (∀ (q : QSet) j, s.admits = true → s.jobs.find? (fun j => j.qset == q.val && j.st == .resuming) = none →
      s.jobs.find? (fun j => j.qset == q.val && j.st == .waiting) = some j →
      (∀ ps fs, s.placeJob j j.tasks.length = some (ps, fs) → exec (.jobStart q) s = .next
        (((s.modJob j.handle (fun j => { j with st := .running, pairs := s.od 0x6030 1 })).startTasks j ps fs).openRun j)) ∧
      (s.placeJob j j.tasks.length = none → exec (.jobStart q) s = .next s)) ∧
    (∀ (j : Job) (ps fs : List Nat) (t p : Nat) (e : Task), p < 72 → s.canonical → e.imgLen ≤ 1024 →
      let mv := startMove j ps fs t p
      let v := ((s.bumpRole p).loadImage p e.image e.imgLen).modCoreAt p (fun _ => startedCore j t e)
      let u := s.startTask j ps fs t p e
      let c := u.coreAt p
      u = (v.rewriteCore p mv).giveBank j.part (p / 9) ∧
      (∀ k o, fs = [] → k < ps.length → k < 72 → o < 0x400000 →
        mv.addr (spBase k + o) = spBase (if k = t then p else nth ps k) + o) ∧
      c.mode = .running ∧ c.job = some j.handle ∧ c.pos = 64 * e.ringOff ∧ c.ringLen = 64 * e.ringLen ∧ c.vl = 4096 ∧
      c.flags = Flags.clear ∧ c.loops = [] ∧ c.grid = [] ∧ c.active = none ∧ c.step = bits j.desc 383 320 ∧
      c.seed = bits j.desc 511 384 ∧ c.frec.code = 0 ∧
      ∀ i, i < 0x400000 → v.byte (spBase p + i) = if i < 4096 * e.imgLen then s.byte (e.image + i) else 0#8) ∧
    (∀ e rest c, c < 8 → s.latchesOf c = e :: rest → (∀ d, d < 8 → d ≠ c → s.latchesOf d = []) → s.collQ.length < 1024 →
      exec .collectorTake s = .next (({ s with
        collCycle := s.collCycle + 1
        latches := sput s.latches (fun _ => []) c rest
        collQ := s.collQ ++ [{ e with take := s.collCycle % 2 ^ 48 }] } : State).refillLatch e.core)) ∧
    (∀ p, (s.latchHeld.find? (fun e => e.core == p) = none → s.refillLatch p = s) ∧
      (∀ e, s.latchHeld.find? (fun e => e.core == p) = some e →
        s.refillLatch p = ({ s with latchHeld := s.latchHeld.erase e } : State).enterLatch e)) ∧
    (∀ e rest, s.collQ = e :: rest →
      (s.jobOf e.job = none → exec .completionWrite s = .next { s with collQ := rest }) ∧
      (∀ j, s.jobOf e.job = some j → (s.heldFor j.qset).length < 1024 → exec .completionWrite s = .next
        (((({ s with collQ := rest }).modJob e.job e.onJob).trySuspended e.job).tryFinish e.job)) ∧
      (∀ j, s.jobOf e.job = some j → 1024 ≤ (s.heldFor j.qset).length → exec .completionWrite s = .next s)) ∧
    (∀ (h : BitVec 32) j, s.jobOf h.toNat = some j →
      (j.st = .faulted →
        exec (.faultedJobRelease h) s = .next ((s.releaseCores h.toNat).tryFinish h.toNat)) ∧
      (j.st ≠ .faulted → exec (.faultedJobRelease h) s = .next s)) ∧
    (∀ res ticket, exec (.arbitrationAged res ticket) s = .next { s with
      waiters := sput s.waiters (fun _ => []) res ((sget s.waiters (fun _ => []) res).map
        (fun w => if w.ticket = ticket ∧ 64 ≤ w.others then { w with aged := true } else w)) })

/-- Partitions shrink, tasks are saved and restored, cores are lent and moved (R295, R301, R302, R306 to R316). -/
def Sys2Proof.Claims.claimCoresFreedLentAndMoved : Prop :=
  ∀ (p : CoreId) (s : State),
    (∀ (k : PartId), let gives := fun l => s.mapByte k.val l < 72 ∧ (s.coreAt (s.mapByte k.val l)).job = none
      (∀ l, l ∈ s.excess k.val → gives l → (∀ m ∈ s.excess k.val, gives m → m ≤ l) → exec (.partitionCoreFreed k) s =
        .next ((s.setMapByte k.val l 0xFF).bumpRole (s.mapByte k.val l)).growAll) ∧
      ((∀ m ∈ s.excess k.val, ¬ gives m) → exec (.partitionCoreFreed k) s = .next s) ∧
      (k.val ≠ 0 → ∀ l, l ∈ s.excess k.val ↔
        l < 64 ∧ s.ncores k.val ≤ l ∧ (s.mapByte k.val l < 0x80 ∨ s.mapByte k.val l = 0xFE))) ∧
    (s.savable p.val = true →
      ((s.core p).needs.contains .suspend = true ∨
        ((s.core p).needs.contains .preempt = true ∧ s.dmaQ p.val = [])) →
      exec (.stateSave p) s = .next ((s.latch p.val 0 3).saveUnit p.val)) ∧
    (∀ k h t, s.coreOwner p.val = some k → s.preempted k = some (h, t) → s.firstFreeIs k p.val = true →
      (s.isSafety k = false → exec (.stateRestore p) s = .next (s.placeSaved h t p.val)) ∧
      (∀ f, s.isSafety k = true → followers ((s.freeLogical k).filter (fun x => x.2 != p.val)) [p.val] = some [f] →
        exec (.stateRestore p) s = .next (s.placePair h t p.val f))) ∧
    (s.od 0x4030 1 ≤ s.loans.length → exec .borrowRequest s = .next s) ∧
    (∀ q, s.loans.length < s.od 0x4030 1 → s.lendableCores.find? (fun q => (s.coreAt q).idle) = some q →
      exec .borrowRequest s = .next { s with
        loans := s.loans ++ [⟨q, (s.coreOwner q).getD 0, ((s.coreHome q).map (·.2)).getD 0, false⟩] }) ∧
    (∀ q rest, s.loans.length < s.od 0x4030 1 → s.lendableCores = q :: rest →
      (∀ r ∈ s.lendableCores, (s.coreAt r).idle = false) →
      let v := rest.foldl s.betterVictim q
      exec .borrowRequest s = .next (({ s with
        loans := s.loans ++ [(⟨v, (s.coreOwner v).getD 0, ((s.coreHome v).map (·.2)).getD 0, false⟩ : Loan)] } : State).modCoreAt v
          (fun c => { c with needs := c.needs ++ [Need.preempt] }))) ∧
    (∀ l ns x, s.openLoan p.val = some l → (s.core p).idle = true →
      (List.range 64).find? (fun x => s.mapByte 0 x == 0xFF) = some x →
      let s1 := ((s.setMapByte l.lender l.logical 0xFE).setMapByte 0 x (0x80 + p.val)).clearCore p.val
      let s2 := (({ s1 with loans := s1.loans.map (fun (y : Loan) =>
        if y.core = p.val then { y with ready := true } else y) }).bumpRole p.val).incOd 0x4030 2
      (ns ≤ 5500 → exec (.borrowHandover p ns) s = .next s2) ∧
      (5500 < ns → exec (.borrowHandover p ns) s =
        .next ((s2.incOd 0x4030 3).warn 0x0106 (some l.lender) 4 l.lender ns))) ∧
    (∀ l x, s.loans.find? (fun l => l.core == p.val && l.ready) = some l → (s.core p).idle = true →
      (List.range 64).find? (fun x => s.mapByte 0 x == 0x80 + p.val) = some x →
      ∃ t, exec (.borrowReturn p) s = .next t ∧ t.core p = Core.reset ∧
        (∀ y ∈ t.loans, y.core ≠ p.val) ∧ (∀ i, i < 0x400000 → t.byte (spBase p.val + i) = 0#8) ∧
        (∀ q : CoreId, q ≠ p → t.core q = s.core q) ∧ t.sems = s.sems ∧ t.dict = s.dict ∧ t.jobs = s.jobs) ∧
    (∀ q, s.safety.testing.find? (fun t => t.core == p.val && t.passed == some false) = none →
      s.safety.retired.contains p.val = true → s.coreOwner p.val ≠ none → s.movable p.val = true →
      s.freeCores.find? (fun q => q / 9 == p.val / 9) = some q →
      exec (.coreReassign p) s = .next (s.moveCore p.val q))

/-- A task saved with everything live and put back on its core goes on as it was (R306, R309, R310): its scratchpad, grid, flags,
digest slots, VL, step counter, loops, exponents and place in the stream are those it was saved with. -/
def Sys2Proof.Claims.claimSavedTaskComesBack : Prop :=
  ∀ (p h t : Nat) (j : Job) (s : State), p < 72 → s.canonical → (s.coreAt p).job = some h → s.jobOf h = some j →
    j.taskOn p = some t → (s.coreAt p).saveMap = none → (s.coreAt p).mode ≠ .halted →
    let u := (s.saveTask p).placeSaved h t p
    let c := s.coreAt p
    let d := u.coreAt p
    (∀ i, i < 0x400000 → u.byte (spBase p + i) = s.byte (spBase p + i)) ∧
    d.grid = c.grid ∧ d.flags = c.flags ∧ d.digests = c.digests ∧ d.vl = c.vl ∧ d.step = c.step ∧ d.loops = c.loops ∧
    d.setg = c.setg ∧ d.pos = c.pos ∧ d.ringBase = c.ringBase ∧ d.ringLen = c.ringLen ∧ d.seed = c.seed ∧
    d.job = some h ∧ d.mode = .running

/-- Cores are freed, lent and moved; a saved task comes back: the claims claimCoresFreedLentAndMoved, claimSavedTaskComesBack. -/
def Obligations.CoresAndSavedTasks : Prop :=
  claimCoresFreedLentAndMoved ∧ claimSavedTaskComesBack

namespace Sys2Proof.Claims

/-- Signal core g issues next the instruction w (R345, R350): it runs, waits for nothing, its clock runs. -/
def sigAt (s : State) (g : SigId) (w : Nat) : Prop :=
  (s.sig g).issues = true ∧ s.power.stopped = false ∧ (s.sig g).pc.toNat < 2 ^ 18 ∧
    (s.sigWord g (s.sig g).pc.toNat).1 = w

/-- The state in which signal core g has fetched its next instruction and stands behind it. -/
def sigPast (s : State) (g : SigId) : State :=
  let u := (s.sigWord g (s.sig g).pc.toNat).2
  u.setSig g ((u.sig g).goto ((s.sig g).pc.toNat + 4))

/-- What an instruction of signal core g leaves alone that acts on its registers only. -/
def sigFrame (s t : State) (g : SigId) : Prop :=
  (∀ h : SigId, h ≠ g → t.sig h = s.sig h) ∧ t.mem = s.mem ∧ t.cores = s.cores ∧ t.sems = s.sems ∧ t.dict = s.dict ∧
    t.time = s.time ∧ t.host = s.host ∧ t.jobs = s.jobs ∧ t.fab = s.fab ∧
    (t.sig g).pc.toNat = (s.sig g).pc.toNat + 4 ∧ (t.sig g).run = true ∧ (t.sig g).m = (s.sig g).m ∧
    (t.sig g).l = (s.sig g).l ∧ (t.sig g).ien = (s.sig g).ien ∧ (t.sig g).ipend = (s.sig g).ipend

/-- The functions of AALU and AALUI on 32-bit values (R341). -/
def aaluRows (g : SigId) : List (Instr × Nat × (BitVec 32 → BitVec 32 → BitVec 32)) :=
  [(.aaluAdd g, 0x0, fun a b => a + b), (.aaluSub g, 0x1, fun a b => a - b), (.aaluAnd g, 0x2, fun a b => a &&& b),
   (.aaluOr g, 0x3, fun a b => a ||| b), (.aaluXor g, 0x4, fun a b => a ^^^ b),
   (.aaluShl g, 0x5, fun a b => a <<< (b.toNat % 32)),
   (.aaluShr g, 0x6, fun a b => BitVec.ofInt 32 ⌊(a.toNat : ℚ) / 2 ^ (b.toNat % 32) + 1 / 2⌋),
   (.aaluSra g, 0x7, fun a b => BitVec.ofInt 32 ⌊(a.toInt : ℚ) / 2 ^ (b.toNat % 32) + 1 / 2⌋),
   (.aaluMin g, 0x8, fun a b => if a.toInt ≤ b.toInt then a else b),
   (.aaluMax g, 0x9, fun a b => if a.toInt ≤ b.toInt then b else a),
   (.aaluSlt g, 0xA, fun a b => if a.toInt < b.toInt then 1#32 else 0#32)]

/-- The arithmetic functions of VALU on an element (R340): n of IMM6, the elements of VA and VB, the other part of VA's lane, and
whether the element is an imaginary part. -/
def valuRows (g : SigId) : List (Instr × Nat × (Nat → Int → Int → Int → Bool → Int)) :=
  [(.valuAdd g, 0x00, fun _ x y _ _ => x + y), (.valuSub g, 0x01, fun _ x y _ _ => x - y),
   (.valuMin g, 0x02, fun _ x y _ _ => min x y), (.valuMax g, 0x03, fun _ x y _ _ => max x y),
   (.valuAbs g, 0x04, fun _ x _ _ _ => |x|), (.valuNeg g, 0x05, fun _ x _ _ _ => -x),
   (.valuConj g, 0x06, fun _ x _ _ im => if im then -x else x), (.valuMulj g, 0x07, fun _ _ _ o im => if im then o else -o),
   (.valuSwap g, 0x08, fun _ _ _ o _ => o), (.valuShr g, 0x09, fun n x _ _ _ => ⌊(x : ℚ) / 2 ^ n + 1 / 2⌋),
   (.valuShl g, 0x0A, fun n x _ _ _ => x * 2 ^ n), (.valuAvg g, 0x0B, fun _ x y _ _ => ⌊((x : ℚ) + y) / 2 + 1 / 2⌋)]

/-- One product added to or subtracted from an accumulator lane, each part limited to 40 bits, and whether any was (R334). -/
def macStep (sub : Bool) (z : (Int × Int) × Bool) (p : Int × Int) : (Int × Int) × Bool :=
  let r := if sub then (z.1.1 - p.1, z.1.2 - p.2) else (z.1.1 + p.1, z.1.2 + p.2)
  let f := fun x : Int => max (-(2 ^ 39)) (min x (2 ^ 39 - 1))
  ((f r.1, f r.2), z.2 || decide (f r.1 ≠ r.1 ∨ f r.2 ≠ r.2))

/-- The complex product of R333: CJ 1 conjugates the first operand, 2 the second. -/
def complexProduct (cj : Nat) (x y : Int × Int) : Int × Int :=
  let a := x.1
  let b := if cj = 1 then -x.2 else x.2
  let c := y.1
  let d := if cj = 2 then -y.2 else y.2
  (a * c - b * d, a * d + b * c)

/-- A MAC instruction of signal core g whose lane i adds the products `ps i` in order: the accumulator's lanes, SAT, and all else
as it was. -/
def macs (c : Instr) (s : State) (g : SigId) (n : Nat) (sub : Bool) (ps : Nat → List (Int × Int)) : Prop :=
  ∃ t, exec c s = .next t ∧
    let z := fun i => (ps i).foldl (macStep sub) (((s.sig g).acc n).getD i (0, 0), false)
    (∀ i, i < 16 → ((t.sig g).acc n).getD i (0, 0) = (z i).1) ∧
    ((t.sig g).flags.sat = true ↔ (s.sig g).flags.sat = true ∨ ∃ i, i < 16 ∧ (z i).2 = true) ∧
    (∀ k, k < 8 → k ≠ n → (t.sig g).acc k = (s.sig g).acc k) ∧ (t.sig g).v = (s.sig g).v ∧
    (∀ h : SigId, h ≠ g → t.sig h = s.sig h) ∧ t.mem = s.mem ∧ t.cores = s.cores ∧ t.sems = s.sems ∧ t.host = s.host ∧
    (t.sig g).pc.toNat = (s.sig g).pc.toNat + 4

end Sys2Proof.Claims

/-! ### Signal cores -/

/-- AALU and AALUI (R341, whole): their functions on 32-bit values modulo 2^32, shifts by bits [4:0] of the second operand, no flag;
the values 0xB to 0xF are held. The second operand of AALUI is its field extended by sign. -/
def Obligations.ScalarArithmetic : Prop :=
  ∀ (g : SigId) (w : Nat) (s : State), sigAt s g w → (sigOp w = 0x20 ∨ sigOp w = 0x21) →
    (sigOp w = 0x20 → bits w 9 0 = 0) →
    let x : BitVec 32 := BitVec.ofNat 32 ((s.sig g).areg (bits w 21 18))
    let y : BitVec 32 := if sigOp w = 0x20 then BitVec.ofNat 32 ((s.sig g).areg (bits w 13 10))
      else BitVec.ofInt 32 (sbits w 13 0)
    (∀ row ∈ aaluRows g, bits w 17 14 = row.2.1 →
      ∃ t, exec row.1 s = .next t ∧ sigFrame s t g ∧
        (t.sig g).a = (s.sig g).a.setIfInBounds (bits w 25 22) (row.2.2 x y) ∧
        (t.sig g).flags = (s.sig g).flags ∧ (t.sig g).v = (s.sig g).v ∧ (t.sig g).accs = (s.sig g).accs) ∧
    (0xB ≤ bits w 17 14 → exec (.sigOpcode g) s =
      .next ((s.sigWord g (s.sig g).pc.toNat).2.sigFault g w (s.sig g).pc.toNat 0x71 0))

/-- VALU (R340, whole): each function's result, rounded half up and limited to 16 bits, SAT and INX where it was limited, INX where
a rounding dropped bits; AND, OR, XOR, BCAST and MOV move bits. -/
def Obligations.VectorFunctions : Prop :=
  ∀ (g : SigId) (w : Nat) (s : State), sigAt s g w → sigOp w = 0x10 →
    let c := s.sig g
    let a := c.vreg (bits w 20 16)
    let b := c.vreg (bits w 15 11)
    let fn := bits w 10 6
    let d := bits w 25 21
    let lo : Int := -(2 ^ 15)
    let hi : Int := 2 ^ 15 - 1
    (valuBinary fn = false → bits w 15 11 = 0) → (valuImm fn = false → bits w 5 0 = 0) →
    (∀ row ∈ valuRows g, fn = row.2.1 →
      let r := fun e => row.2.2 (bits w 3 0) (elemOf a e) (elemOf b e)
        (elemOf a (if e % 2 = 0 then e + 1 else e - 1)) (e % 2 == 1)
      ∃ t, exec row.1 s = .next t ∧ sigFrame s t g ∧
        (∀ e, e < 32 → elemOf ((t.sig g).vreg d) e = max lo (min (r e) hi)) ∧
        (∀ k, k < 32 → k ≠ d → (t.sig g).vreg k = c.vreg k) ∧ (t.sig g).a = c.a ∧ (t.sig g).accs = c.accs ∧
        ((t.sig g).flags.sat = true ↔ c.flags.sat = true ∨ ∃ e, e < 32 ∧ (r e < lo ∨ hi < r e)) ∧
        ((t.sig g).flags.inx = true ↔ c.flags.inx = true ∨ ∃ e, e < 32 ∧ (r e < lo ∨ hi < r e ∨
          (fn = 0x09 ∧ ¬ (2 ^ bits w 3 0 : Int) ∣ elemOf a e) ∨ (fn = 0x0B ∧ ¬ (2 : Int) ∣ elemOf a e + elemOf b e)))) ∧
    (∀ row ∈ [(Instr.valuAnd g, 0x0C, a &&& b), (.valuOr g, 0x0D, a ||| b), (.valuXor g, 0x0E, a ^^^ b), (.valuMov g, 0x10, a)],
      fn = row.2.1 → ∃ t, exec row.1 s = .next t ∧ sigFrame s t g ∧
        (t.sig g).vreg d = row.2.2 ∧ (∀ k, k < 32 → k ≠ d → (t.sig g).vreg k = c.vreg k) ∧ (t.sig g).a = c.a ∧
        (t.sig g).flags = c.flags ∧ (t.sig g).accs = c.accs) ∧
    (fn = 0x0F → ∃ t, exec (.valuBcast g) s = .next t ∧ sigFrame s t g ∧
      (∀ i, i < 16 → laneOf ((t.sig g).vreg d) i = laneOf a (bits w 3 0)) ∧
      (∀ k, k < 32 → k ≠ d → (t.sig g).vreg k = c.vreg k) ∧ (t.sig g).flags = c.flags) ∧
    (0x11 ≤ fn → exec (.sigOpcode g) s = .next ((s.sigWord g c.pc.toNat).2.sigFault g w c.pc.toNat 0x71 0))

/-- The multiply-accumulate instructions and the accumulators (R333 to R339): exact products, each accumulation limited to 40 bits
part by part with SAT, in the order stated; ACCSUM, ACCCLR, ACCST, ACCSV and ACCRS. -/
def Obligations.MultiplyAccumulate : Prop :=
  ∀ (g : SigId) (w : Nat) (s : State), sigAt s g w →
    let c := s.sig g
    let n := bits w 25 23
    let sub := bit w 20
    let cj := bits w 22 21
    let va := bits w 19 15
    let vb := bits w 14 10
    let u := sigPast s g
    (macHeld w = false → bits w 9 6 = 0 →
      (sigOp w = 0x08 → macs (.cmac g) s g n sub
        (fun i => [complexProduct cj (laneOf (c.vreg va) i) (laneOf (c.vreg vb) i)])) ∧
      (sigOp w = 0x0A → va % 4 = 0 → vb % 4 = 0 → macs (.cdot3 g) s g n sub (fun i => [0, 1, 2, 3].map
        (fun q => complexProduct cj (laneOf (c.vreg (va + q)) i) (laneOf (c.vreg (vb + q)) i)))) ∧
      (sigOp w = 0x0B → cj = 0 → macs (.rmac g) s g n sub
        (fun i => [(elemOf (c.vreg va) (2 * i) * elemOf (c.vreg vb) (2 * i),
          elemOf (c.vreg va) (2 * i + 1) * elemOf (c.vreg vb) (2 * i + 1))]))) ∧
    (sigOp w = 0x09 → macHeld w = false → badLocal (c.areg (bits w 19 16)) 64 = false →
      badLocal (c.areg (bits w 12 9)) 64 = false →
      let x := u.sigLoad g (c.areg (bits w 19 16)) 64
      let y := x.2.sigLoad g (c.areg (bits w 12 9)) 64
      macs (.cmacm g) s g n sub (fun i => [complexProduct cj (laneOf x.1 i) (laneOf y.1 i)])) ∧
    (accField w = false →
      (sigOp w = 0x07 → ∃ t, exec (.accsum g) s = .next t ∧ sigFrame s t g ∧
        ((t.sig g).acc n).getD 0 (0, 0) = (max (-(2 ^ 39)) (min ((c.acc n).map (·.1)).sum (2 ^ 39 - 1)),
          max (-(2 ^ 39)) (min ((c.acc n).map (·.2)).sum (2 ^ 39 - 1))) ∧
        (∀ i, 1 ≤ i → ((t.sig g).acc n).getD i (0, 0) = (0, 0))) ∧
      (sigOp w = 0x0C → ∃ t, exec (.accclr g) s = .next t ∧ sigFrame s t g ∧
        (∀ i, ((t.sig g).acc n).getD i (0, 0) = (0, 0)) ∧ (t.sig g).flags = c.flags) ∧
      (sigOp w = 0x0D → ∃ t, exec (.accst g) s = .next t ∧ sigFrame s t g ∧ (t.sig g).accs = c.accs ∧
        ∀ i, i < 16 →
          let f := fun (x : Int) => max (-(2 ^ 15)) (min ⌊(x : ℚ) / 2 ^ bits w 17 13 + 1 / 2⌋ (2 ^ 15 - 1))
          laneOf ((t.sig g).vreg (bits w 22 18)) i = (f ((c.acc n).getD i (0, 0)).1, f ((c.acc n).getD i (0, 0)).2)) ∧
      (badLocal (c.areg (bits w 12 9)) 256 = false →
        (sigOp w = 0x0E → exec (.accsv g) s = .next (u.sigStore g (c.areg (bits w 12 9)) 256 (accImage (c.acc n)))) ∧
        (sigOp w = 0x0F →
          let x := u.sigLoad g (c.areg (bits w 12 9)) 256
          ∃ t, exec (.accrs g) s = .next t ∧ t.mem = s.mem ∧ ∀ i, i < 16 → ((t.sig g).acc n).getD i (0, 0) =
            (max (-(2 ^ 39)) (min (sbits x.1 (128 * i + 63) (128 * i)) (2 ^ 39 - 1)),
             max (-(2 ^ 39)) (min (sbits x.1 (128 * i + 127) (128 * i + 64)) (2 ^ 39 - 1))))))

/-- Local memory and moves (R342 to R344, R351): VLD, VLD2 and LDS load, VST and STS store, with their post-modifies; an address
outside local memory or unaligned faults with SIG_ADDR and has no effect; LI, LIH, MTS and MFS move. -/
def Obligations.LoadsStoresAndMoves : Prop :=
  ∀ (g : SigId) (w : Nat) (s : State), sigAt s g w →
    let u := sigPast s g
    let c := u.sig g
    let d := bits w 25 21
    let j := bits w 20 17
    let post := fun (x : Sig) => if bit w 16 then x.postMod j (bits w 15 13) else x
    let e := enc 32 ((c.areg (bits w 21 18) : Int) + sbits w 13 0)
    let da := bits w 25 22
    (bits w 12 0 = 0 → (bit w 16 = false → bits w 15 13 = 0) → badLocal (c.areg j) 64 = false →
      (sigOp w = 0x01 →
        let r := u.sigLoad g (c.areg j) 64
        exec (.vld g) s = .next (r.2.setSig g (post ((r.2.sig g).setV d r.1)))) ∧
      (sigOp w = 0x02 → exec (.vst g) s =
        .next ((u.sigStore g (c.areg j) 64 (c.vreg d)).setSig g (post c)))) ∧
    (bits w 12 0 = 0 → (bit w 16 = false → bits w 15 13 = 0) → badLocal (c.areg j) 64 = true → sigOp w = 0x01 →
      exec (.vld g) s = .next ((s.sigWord g (s.sig g).pc.toNat).2.sigFault g w (s.sig g).pc.toNat 0x72 (c.areg j))) ∧
    (sigOp w = 0x03 → bits w 4 0 = 0 → d % 2 = 0 → (bit w 16 = false → bits w 15 13 = 0) →
      (bit w 8 = false → bits w 7 5 = 0) → badLocal (c.areg j) 64 = false → badLocal (c.areg (bits w 12 9)) 64 = false →
      let r := u.sigLoad g (c.areg j) 64
      let q := r.2.sigLoad g (c.areg (bits w 12 9)) 64
      let x := post (((q.2.sig g).setV d r.1).setV (d + 1) q.1)
      exec (.vld2 g) s = .next (q.2.setSig g (if bit w 8 then x.postMod (bits w 12 9) (bits w 7 5) else x))) ∧
    (bits w 17 14 = 0 → badLocal e 4 = false →
      (sigOp w = 0x22 → exec (.lds g) s =
        .next ((u.sigLoad g e 4).2.setSig g (((u.sigLoad g e 4).2.sig g).setA da (u.sigLoad g e 4).1))) ∧
      (sigOp w = 0x23 → exec (.sts g) s = .next (u.sigStore g e 4 (c.areg da)))) ∧
    (sigOp w = 0x24 → bits w 19 16 = 0 →
      (bits w 21 20 = 0 → exec (.li g) s = .next (u.setSig g (c.setA da (sbits w 15 0)))) ∧
      (bits w 21 20 = 1 → exec (.lih g) s =
        .next (u.setSig g (c.setA da (c.areg da % 65536 + 65536 * bits w 15 0)))) ∧
      (∀ v, bits w 15 7 = 0 → c.sysRead g (bits w 6 0) = some v →
        (bits w 21 20 = 2 → exec (.mts g) s = .next (u.setSig g (c.sysWrite (bits w 6 0) (c.areg da)))) ∧
        (bits w 21 20 = 3 → exec (.mfs g) s = .next (u.setSig g (c.setA da v))))) ∧
    (∀ (x : Sig) (k m : Nat), k < 4 → m < 8 →
      let len := bits (vget x.l k 0#32).toNat 28 16
      let b : Int := 64 * (bits (vget x.l k 0#32).toNat 11 0 : Nat)
      len ≠ 0 → b + 64 * len ≤ 2 ^ 32 →
      b ≤ (x.postMod k m).areg k ∧ ((x.postMod k m).areg k : Int) < b + 64 * len ∧
      (64 * (len : Int)) ∣ (x.postMod k m).areg k - (x.areg k + (vget x.m m 0#32).toInt))

/-- Control, interrupts, POST and semaphores of the signal cores (R346 to R350, R352 to R356, R358, R359). -/
def Obligations.SignalControl : Prop :=
  ∀ (g : SigId) (w : Nat) (s : State),
    let u := sigPast s g
    let c := u.sig g
    let old := s.sig g
    (sigAt s g w →
      (∀ b, sigOp w = 0x30 → brTest (bits w 21 19) (sext 32 (c.areg (bits w 25 22))) = some b → exec (.br g) s =
        .next (if b then u.setSig g { c with pc := BitVec.ofInt 32 ((old.pc.toNat : Int) + 4 * sbits w 18 0) } else u)) ∧
      (sigOp w = 0x31 → bits w 25 19 = 0 → exec (.brl g) s = .next (u.setSig g { c.setA 15 (old.pc.toNat + 4) with
        pc := BitVec.ofInt 32 ((old.pc.toNat : Int) + 4 * sbits w 18 0) })) ∧
      (sigOp w = 0x32 → bits w 21 0 = 0 →
        exec (.jr g) s = .next (u.setSig g { c with pc := BitVec.ofNat 32 (c.areg (bits w 25 22)) })) ∧
      (sigOp w = 0x34 → bits w 25 0 = 0 → exec (.waitCmd g) s = .next (u.setSig g { c with waiting := true })) ∧
      (sigOp w = 0x35 → bits w 25 0 = 0 →
        exec (.rti g) s = .next (u.setSig g { c with pc := c.epc, ie := true, inh := false })) ∧
      (sigOp w = 0x36 → bits w 25 0 = 0 → exec (.signalCoreHalt g) s = .next (u.sigStop g)) ∧
      (∀ count, sigOp w = 0x33 → bits w 21 19 = 0 → bits w 17 8 = 0 →
        ((bit w 18 = true ∧ bits w 7 0 = 0 ∧ count = c.areg (bits w 25 22)) ∨
          (bit w 18 = false ∧ bits w 25 22 = 0 ∧ count = bits w 7 0 + 1)) → count ≤ 256 → old.pc.toNat + 4 < 2 ^ 18 →
        let i := u.sigWord g (old.pc.toNat + 4)
        let x := i.2.setSig g ((i.2.sig g).goto (old.pc.toNat + 8))
        (repeatable i.1 = true → exec (.rep g) s = .next (sigIterate g i.1 (old.pc.toNat + 4) count x)) ∧
        (repeatable i.1 = false →
          (sigKnown i.1 = false → exec (.rep g) s = .next (i.2.sigFault g i.1 (old.pc.toNat + 4) 0x70 0)) ∧
          (sigKnown i.1 = true →
            (∀ k d, sigUnrepeated g i.2 i.1 = .fault k d → k < 0x73 →
              exec (.rep g) s = .next (i.2.sigFault g i.1 (old.pc.toNat + 4) k d)) ∧
            ((∀ k d, sigUnrepeated g i.2 i.1 = .fault k d → 0x73 ≤ k) →
              exec (.rep g) s = .next (i.2.sigFault g i.1 (old.pc.toNat + 4) 0x73 0)))) ∧
        sigIterate g i.1 (old.pc.toNat + 4) 0 x = x) ∧
      (sigOp w = 0x38 → bits w 9 0 = 0 →
        let pb := bits (u.od 0x3140 (g.val + 1)) (64 * bits w 20 17 + 63) (64 * bits w 20 17)
        let addr := pb + c.areg (bits w 16 13)
        let len := 8 * (bits w 12 10 + 1)
        addr % 8 = 0 → addr % 64 + len ≤ 64 → (addrMode pb = 1 ∨ addrMode pb = 2 → len = 8) →
        ∀ others : List MemAccess, (c.posts.length < 8 →
          let r := u.postWrite g.val (addr % 2 ^ 52) len (c.vreg (bits w 25 21) % 256 ^ len) others
          exec (.post ⟨g, others⟩) s = .next (r.2.setSig g { r.2.sig g with
            posts := (r.2.sig g).posts ++ [(w, old.pc.toNat, r.1)] })) ∧
        (8 ≤ c.posts.length → exec (.post ⟨g, others⟩) s = .next s)) ∧
      (bits w 9 0 ≠ 0 → u.semPart (bits w 25 10) = some 0 →
        (sigOp w = 0x39 → exec (.sacq g) s = .next ((u.setSig g { c with semWait := true, pc := old.pc }).ask
          (bits w 25 10) (bits w 9 0) (.sig g.val))) ∧
        (sigOp w = 0x3A → c.posts = [] → exec (.srel g) s = .next (u.semAdd (bits w 25 10) (bits w 9 0))) ∧
        (sigOp w = 0x3A → c.posts ≠ [] → exec (.srel g) s = .next s)) ∧
      (sigKnown w = false → sigOp w ≠ 0x10 → sigOp w ≠ 0x20 → sigOp w ≠ 0x21 → exec (.sigOpcode g) s =
        .next ((s.sigWord g old.pc.toNat).2.sigFault g w old.pc.toNat 0x70 0))) ∧
    (∀ a n d, s.canonical → let k := s.accessCode (.part 0) a n .write; let r := s.postWrite g.val a n d []
      (k ≠ 0 → r = (k, s)) ∧
      (∀ b, placeOf a = .bank b → addrMode a = 0 → 0 < n → k = 0 → r.1 = 0 ∧
        (∀ i, i < n → r.2.byte (addrBase a + i) = BitVec.ofNat 8 (d / 256 ^ i)) ∧
        (∀ x, (x < addrBase a ∨ addrBase a + n ≤ x) → r.2.byte x = s.byte x) ∧ r.2.cores = s.cores ∧ r.2.sems = s.sems)) ∧
    (old.run = false → old.posts = [] → exec (.signalCoreStopped g) s = .next (s.setSig g { old with running := false })) ∧
    (old.run = true ∨ old.posts ≠ [] → exec (.signalCoreStopped g) s = .next s) ∧
    (∀ x pc code rest, old.posts = (x, pc, code) :: rest →
      (code = 0 ∨ code = 1 → exec (.postResponse g) s = .next (s.setSig g { old with posts := rest })) ∧
      (code ≠ 0 → code ≠ 1 → old.faulted = false → exec (.postResponse g) s =
        .next ((s.setSig g { old with posts := rest }).sigFault g x pc 0x74 code))) ∧
    (∀ q, q < 16 → old.run = true → old.ie = true → (old.ipend &&& old.ien).getLsbD q = true →
      (∀ r, r < q → (old.ipend &&& old.ien).getLsbD r = false) →
      ∃ t, exec (.interruptTaken g) s = .next t ∧ (t.sig g).epc = old.pc ∧ (t.sig g).ie = false ∧ (t.sig g).inh = true ∧
        (t.sig g).pc = old.ivec + BitVec.ofNat 32 (64 * q) ∧ (t.sig g).ipend = old.ipend ∧ (t.sig g).run = true ∧
        (t.sig g).waiting = false ∧ (t.sig g).v = old.v ∧ (t.sig g).a = old.a ∧ t.mem = s.mem ∧ t.sems = s.sems) ∧
    (old.tmr ≠ 0#32 → ∃ t, exec (.timer g) s = .next t ∧ (t.sig g).tmr = 0#32 ∧ (t.sig g).ipend = old.ipend ||| 0x20#16 ∧
      t.mem = s.mem) ∧
    (∃ t, exec (.crownMessage g) s = .next t ∧ (t.sig g).ipend = old.ipend ||| 0x80#16 ∧ t.mem = s.mem ∧
      (∀ h : SigId, h ≠ g → t.sig h = s.sig h))

/-! ### The radio cells -/

/-- Cells, slots, fronthaul frames and stage windows (R361 to R368, R372 to R379): a cell is served from its start; a slot boundary
fires once and opens a slot in each cell served; frames are checked, mapped, and counted where dropped; a take in its window
completes its stage, an early or late one and a missing one declare the slot; a slot's decoding that misses its end fails it. -/
def Obligations.RadioSlotsAndWindows : Prop :=
  ∀ (c : CellId) (s : State),
    (bit (s.cellCfg c) 0 = true → (s.cell c).running = false → s.cellMayStart c = true →
      (s.cellDue c = true → exec (.cellStart c) s = .next (s.setCell c { CellSt.reset with running := true })) ∧
      (s.cellDue c = false → exec (.cellStart c) s = .next s)) ∧
    (s.radioOn = true →
      let b := s.slotNow s.muNow
      ((∀ l, s.radio.lastSlot = some l → l < b) → exec .slot s = .next ((([0, 1, 2] : List CellId).foldl
        (fun (st : State) c => st.openSlot b c) { s with radio := { s.radio with lastSlot := some b } }).raiseAll 0)) ∧
      (∀ l, s.radio.lastSlot = some l → b ≤ l → exec .slot s = .next s) ∧
      exec .symbol s = .next (s.raiseAll 1)) ∧
    (∀ f : UFrame,
      ((f.rev ≠ 1 ∨ f.msgType ≠ 0) → exec (.uPlaneFrame f) s = .next (s.countDev 0x020 (some 0))) ∧
      (f.rev = 1 → f.msgType = 0 →
        (s.mapEntry f.eaxc = none → exec (.uPlaneFrame f) s = .next (s.countDev 0x021 (some 0))) ∧
        (∀ d g, s.mapEntry f.eaxc = some (d, g) →
          (s.s1Over d f.frame f.slot = true → exec (.uPlaneFrame f) s = .next (s.countDev 0x024 (some 0))) ∧
          (s.s1Over d f.frame f.slot = false →
            let t := f.sections.foldl (fun (st : State) u => st.section g f u) s
            (f.last = false → exec (.uPlaneFrame f) s = .next t) ∧
            (∀ h : g < 32, f.last = true → exec (.uPlaneFrame f) s =
              .next ((t.compareDigest d f.eaxc f.symbol).sigRaise ⟨g, h⟩ 2)))))) ∧
    (∀ f : CFrame,
      (f.rev = 1 → f.msgType = 2 → (f.sectionType = 1 ∨ f.sectionType = 3) → exec (.cPlaneFrame f) s =
        .next (s.emit (.cPlane f.eaxc (f.sectionType == 3 && decide (1 ≤ f.filterIndex ∧ f.filterIndex ≤ 6))))) ∧
      ((f.rev ≠ 1 ∨ f.msgType ≠ 2 ∨ (f.sectionType ≠ 1 ∧ f.sectionType ≠ 3)) →
        exec (.cPlaneFrame f) s = .next (s.countDev 0x020 (some 0)))) ∧
    (∀ (k : Fin 6) (r : SlotRec), s.nextTake c k.val = some r →
      let n := doneSem c k.val
      let t := s.sinceT0 c r
      let lo := ((s.windowOf c k.val).1 : Int) * usUnits
      let hi := ((s.windowOf c k.val).2 : Int) * usUnits
      let s0 := if k.val = 0 then s.closeS1 c r.frame r.slot else s
      let s1 := (s0.setSem n (s.semCount n - 1)).modSlot c r (fun q => { q with took := q.took ++ [k.val] })
      let r1 := { r with took := r.took ++ [k.val] }
      (s.semCount n ≠ 0 → (s.cell c).owed.contains k.val = false →
        (lo ≤ t → t ≤ hi → exec (.windowTake c k) s = .next (s1.prune c)) ∧
        (t < lo → exec (.windowTake c k) s = .next (s1.declare c r1 k.val true)) ∧
        (lo ≤ t → hi < t →
          let u := ((s0.setSem n (s.semCount n - 1)).declare c r k.val false).countDev 0x025 (some 0)
          exec (.windowTake c k) s = .next (u.setCell c { u.cell c with owed := (u.cell c).owed.erase k.val }))) ∧
      (s.semCount n ≠ 0 → (s.cell c).owed.contains k.val = true →
        let u := (s.setSem n (s.semCount n - 1)).countDev 0x025 (some 0)
        exec (.windowTake c k) s = .next (u.setCell c { u.cell c with owed := (u.cell c).owed.erase k.val })) ∧
      (s.semCount n = 0 → exec (.windowTake c k) s = .next s) ∧
      (r.warned.contains k.val = false → (((s.windowOf c k.val).2 : Int) - s.od 0x5011 1) * usUnits ≤ t →
        exec (.window c k) s = .next ((s.modSlot c r (fun q => { q with warned := q.warned ++ [k.val] })).raiseAll 6)) ∧
      (hi ≤ t → exec (.stageLate c k) s = .next (s.declare c r k.val false)) ∧
      (t < hi → exec (.stageLate c k) s = .next s)) ∧
    (∀ f j r, (s.cell c).fallback = some (f, j) →
      (s.cell c).slots.find? (fun r => r.frame == f && r.slot == j && !r.reported) = some r →
      (s.fbLatest c ≤ s.sinceT0 c r → exec (.fbLatest c) s = .next (s.failSlot c r 6)) ∧
      (s.sinceT0 c r < s.fbLatest c → exec (.fbLatest c) s = .next s))

/-- Slot records, code engines and the downlink (R371, R376, R383 to R391): a slot's record is written in slot order or the slot is
failed; code blocks are combined by limited addition and decoded; a downlink PRB gets the least exponent at which its mantissas fit,
each rounded half up; a symbol is sent or late once. -/
def Obligations.RadioResultsAndCoding : Prop :=
  ∀ (c : CellId) (s : State),
    (∀ r q, (s.cell c).slots.find? (fun q => !q.reported) = some q →
      ((q.frozen = true ∧ bit (s.cellCfg c) 27 = true) ∨ s.radio.engLost = true ∨ s.radio.engRetired.all id = true →
        exec (.slotResultRecord c r) s = .next (s.failSlot c q 6)) ∧
      ((q.frozen = false ∨ bit (s.cellCfg c) 27 = false) → s.radio.engLost = false → s.radio.engRetired.all id = false →
        exec (.slotResultRecord c r) s = .next ((s.writeRecord c q r.crcOk (min r.ntb 64) r.tbBase).flushFailed c
          ((s.cell c).slots.length + 1)))) ∧
    (∀ b : CodeBlock, s.radio.engLost = false → s.radio.engRetired.all id = false →
      (s.cell b.cell).slots.any (fun r => r.frame == b.frame && r.slot == b.slot && r.path == 2) = false →
      b.harq = 0 → b.combine = false →
      let d := decodeBlock b (s.od 0x5018 1) b.llrs
      exec (.codeBlockDecode b) s = .next (s.emit (.decoded d.1 d.2))) ∧
    (∀ b : CodeBlock, s.radio.engLost = false → s.radio.engRetired.all id = false →
      (s.cell b.cell).slots.any (fun r => r.frame == b.frame && r.slot == b.slot && r.path == 2) = false →
      b.harq ≠ 0 → b.combine = true → s.hbmUp = true →
      let n := b.llrs.length
      let x := combineLlrs (bytesLlr (s.rd b.harq n) n) b.llrs
      let d := decodeBlock b (s.od 0x5018 1) x.1
      ∃ t, exec (.codeBlockDecode b) s = .next t ∧
        t.mem = (s.writeAccess (.part 0) b.harq n (llrBytes x.1)).2.mem ∧ t.out = s.out ++ [.decoded d.1 d.2] ∧
        t.radio.harqUndo = s.radio.harqUndo ++ [(b.cell.val, b.frame, b.slot, b.harq, n, s.rd b.harq n)] ∧
        t.cores = s.cores ∧ t.sems = s.sems ∧ t.host = s.host ∧ t.dict = s.dict) ∧
    (∀ (old new : List Int) (i : Nat), i < new.length →
      (combineLlrs old new).1.getD i 0 = max (-127) (min (old.getD i 0 + new.getD i 0) 127)) ∧
    (∀ e : Fin 4,
      (s.radio.engRetired.getD e.val false = false → exec (.codeEngineRetired e) s =
        .next (({ s with radio := { s.radio with engRetired := s.radio.engRetired.set e.val true } }).faultNotice 0x0117
          (some 0) 9 e.val e.val)) ∧
      (s.radio.engRetired.getD e.val false = true → exec (.codeEngineRetired e) s = .next s)) ∧
    (∀ (f : Int) (j sym : Nat) (blocks : List DlBlock) (samples : List Int) (w : Nat),
      (s.radio.dlDone.contains (c.val, f, j, sym) = true →
        exec (.dlSymbolSend c f j sym ⟨blocks, samples⟩ w) s = .next s ∧ exec (.dlLate c f j sym) s = .next s) ∧
      (s.radio.dlDone.contains (c.val, f, j, sym) = false →
        let done := s.radio.dlDone ++ [(c.val, f, j, sym)]
        (blocks ≠ [] → s.enginesLeft = false → exec (.dlSymbolSend c f j sym ⟨blocks, samples⟩ w) s = .next s) ∧
        ((blocks = [] ∨ s.enginesLeft = true) → exec (.dlSymbolSend c f j sym ⟨blocks, samples⟩ w) s = .next { s with
          out := s.out ++ blocks.map (fun b => .encoded (encodeBlock b)) ++
            (prbsOf samples).map (fun l => .uPlane c.val (compressPrb w l).1 (compressPrb w l).2)
          radio := { s.radio with dlDone := done } }) ∧
        ∃ t, exec (.dlLate c f j sym) s = .next t ∧ t.radio.dlDone = done ∧ t.out = s.out ∧ t.mem = s.mem ∧
          t.host.journalNew.length = s.host.journalNew.length +
            (if s.radio.dlLateSlots.contains (c.val, f, j) then 0 else 1))) ∧
    (∀ (w : Nat) (l : List Int), w ∈ [8, 9, 12, 14] → (∀ v ∈ l, -32768 ≤ v ∧ v ≤ 32767) →
      let e := (compressPrb w l).1
      (compressPrb w l).2 = l.map (fun v => ⌊(v : ℚ) / 2 ^ e + 1 / 2⌋) ∧
      (∀ m ∈ (compressPrb w l).2, -(2 ^ (w - 1)) ≤ m ∧ m ≤ 2 ^ (w - 1) - 1) ∧
      (∀ e', e' < e → ∃ v ∈ l, ⌊(v : ℚ) / 2 ^ e' + 1 / 2⌋ < -(2 ^ (w - 1)) ∨ 2 ^ (w - 1) - 1 < ⌊(v : ℚ) / 2 ^ e' + 1 / 2⌋))

/-! ### The far-reach link -/

/-- Reception (R394, R395, R399 to R410): reflected-binary shifts are undone; a frame has two down-chirps and a pilot after every
complete group of eight data symbols but the last; a record lists the eight best bins and a FLOOR no other bin exceeds; the classical
metric is clamped; frames are detected, confirmed, tracked, ended, abandoned; the gain and noise floor follow their rules. -/
def Obligations.FarReachReception : Prop :=
  (∀ w b : Nat, b < 2 ^ w → gray b < 2 ^ w ∧ ungray w (gray b) = b) ∧
  (∀ (m : Nat) (coded : List Bool), 0 < m →
    let d := (coded.length + m - 1) / m
    (chirpsOf m coded).length = 10 + d + (d - 1) / 8) ∧
  (∀ (src site idx : Nat) (l : List Int), 9 ≤ l.length → l.length ≤ 2 ^ 14 → (∀ v ∈ l, -128 ≤ v ∧ v ≤ 127) →
    let r := softRecord src site idx l
    let bin := fun q => bits r (24 * q + 47) (24 * q + 32)
    (∀ q, q < 8 → bin q < l.length ∧ sbits r (24 * q + 55) (24 * q + 48) = l.getD (bin q) 0) ∧
    (∀ q, q < 7 → l.getD (bin (q + 1)) 0 < l.getD (bin q) 0 ∨
      (l.getD (bin (q + 1)) 0 = l.getD (bin q) 0 ∧ bin q < bin (q + 1))) ∧
    (∀ k, k < l.length → (∀ q, q < 8 → bin q ≠ k) → l.getD k 0 ≤ sbits r 231 224) ∧
    sbits r 231 224 ≤ l.getD (bin 7) 0 ∧
    bits r 11 0 = src % 4096 ∧ bits r 23 12 = idx % 4096 ∧ bits r 31 24 = site % 256) ∧
  (∀ (free : Nat) (l : List Nat) (k : Nat), k < l.length → 9 ≤ l.length →
    let rest : Int := (l.sum : Int) - ((best 8 (l.map Int.ofNat)).map (·.2)).sum
    0 < rest →
    let n0 : ℚ := (rest : ℚ) / ((l.length : ℚ) - 8)
    (classicMetrics free l).getD k 0 = max (-128) (min 127 ⌊4 * ((l.getD k 0 : ℚ) / n0 - 1) + 1 / 2⌋)) ∧
  (∀ (s : State) (m bw : Nat) (shifts : List Nat) (start : Nat), s.frOn = true → s.fr.txEn = false → s.fr.jesdUp = true →
    shifts.length = 4 → alternates (2 ^ m) shifts = true → ∀ node, s.listens m bw = some node →
    ((s.rxOf m bw).isSome = true → exec (.frameDetect m bw shifts start) s = .next (s.countDev 0x030 (some 0))) ∧
    (s.rxOf m bw = none → s.fr.rx.length < 4 → (∀ r ∈ s.fr.rx, r.m ≠ m) →
      exec (.frameDetect m bw shifts start) s = .next { s with
        fr := { s.fr with rx := s.fr.rx ++ [⟨m, bw, start, false, node, 0, 0, [], 0, true⟩] } })) ∧
  (∀ (s : State) (m bw : Nat) (r : Rx), s.rxOf m bw = some r →
    (∀ shifts downs : List Nat, r.confirmed = false →
      let n := 2 ^ m
      let up := signedBin n (shifts.headD 0)
      let dn := signedBin n (downs.headD 0)
      let f := (up + dn + 1) / 2
      let ok := shifts.length = 4 ∧ alternates n (shifts.map (fun x => (x + 4) / 8 % n)) = true ∧ downs.length = 2 ∧
        -(n : Int) ≤ f ∧ f ≤ n
      (ok → exec (.frameConfirm m bw shifts downs) s = .next (s.modRx m bw (fun r => { r with
        confirmed := true, freq := f, time := (dn - up + 1) / 2 }))) ∧
      (¬ ok → exec (.frameConfirm m bw shifts downs) s = .next (s.dropRx m bw))) ∧
    (∀ (energies : List Nat) (clipped total : Nat), r.confirmed = true → bit (s.od 0x5800 1) 24 = false →
      100 * clipped ≤ total →
      let g := match r.node with | some i => lgGroup (s.ledger i) | none => 0
      let w := softRecord s.nodeId (s.siteIndex g) r.recs.length (classicMetrics s.free energies)
      exec (.symbolDemod m bw energies clipped total) s = .next
        (({ s with free := s.free + energies.length }).modRx m bw (fun r => { r with
          recs := r.recs ++ [w], classic := w, learnedAll := false }))) ∧
    (bit (s.od 0x5800 1) 24 = true → r.recs ≠ [] →
      exec (.frLearnedLate m bw) s = .next ((s.modRx m bw (fun r => { r with
        recs := r.recs.dropLast ++ [r.classic], learnedAll := false })).countDev 0x032 (some 0))) ∧
    (∀ f t : Int, r.confirmed = true →
      ((f + t).natAbs ≤ 8 → exec (.pilotTrack m bw f t) s =
        .next (s.modRx m bw (fun r => { r with freq := r.freq + f, time := r.time + t }))) ∧
      (8 < (f + t).natAbs → exec (.pilotTrack m bw f t) s = .next ((s.dropRx m bw).countDev 0x031 (some 0)))) ∧
    (r.confirmed = true → r.node = none → exec (.frameEnd m bw) s =
      .next ((s.dropRx m bw).deliver r.recs m bw none r.start r.learnedAll)) ∧
    (∀ i, r.confirmed = true → r.node = some i → lgGroup (s.ledger i) = 0 → exec (.frameEnd m bw) s =
      .next ((s.dropRx m bw).deliver r.recs m bw (some i) r.start r.learnedAll)) ∧
    (∀ i, r.confirmed = true → r.node = some i → 0 < lgGroup (s.ledger i) → lgGroup (s.ledger i) ≤ 64 →
      s.siteOf (lgGroup (s.ledger i)) 0 ≠ s.nodeId → ∃ t, exec (.frameEnd m bw) s = .next t ∧
        t.out = (s.dropRx m bw).out ++ r.recs.map (fun w =>
          .frRecord (s.siteOf (lgGroup (s.ledger i)) 0) (lgAddr (s.ledger i)) (lgEpoch (s.ledger i)) w) ∧
        t.fr = (s.dropRx m bw).fr ∧ t.mem = (s.dropRx m bw).mem ∧ t.dict = (s.dropRx m bw).dict) ∧
    exec (.frameTimeout m bw) s = .next ((s.dropRx m bw).countDev 0x035 (some 0))) ∧
  (∀ (s : State) (p : Int), s.frOn = true →
    let d : ℚ := (p : ℚ) / 2 ^ 16 - (sext 16 (s.od 0x5800 2) : ℚ) / 4
    let n := min 200 (s.fr.since + 1)
    (s.agcFrozen = true → exec (.agcUpdate p) s = .next { s with fr := { s.fr with since := n } }) ∧
    (s.agcFrozen = false → 3 < d → exec (.agcUpdate p) s = .next { s with
      fr := { s.fr with gain := s.fr.gain - min 6 ⌈d⌉.toNat, since := n } }) ∧
    (s.agcFrozen = false → d < -6 → n = 200 → exec (.agcUpdate p) s = .next { s with
      fr := { s.fr with gain := min 63 (s.fr.gain + 1), since := 0 } }) ∧
    (s.agcFrozen = false → d ≤ 3 → (-6 ≤ d ∨ n < 200) → exec (.agcUpdate p) s = .next { s with
      fr := { s.fr with since := n } })) ∧
  (∀ (s : State) (samples : Nat) (mean : Int),
    (samples < 32000 → exec (.noiseFloorUpdate samples mean) s = .next (s.setOd 0x5801 2 1)) ∧
    (32000 ≤ samples → exec (.noiseFloorUpdate samples mean) s = .next
      ((s.setOd 0x5801 1 (enc 16 ⌊(mean : ℚ) / 2 ^ 14 + 1 / 2⌋)).setOd 0x5801 2 0)))

/-- Transmission, sleeping nodes, combining and the converter port (R411 to R420): a frame leaves with the receiver disabled or is
deferred; a node's window opens about its wake time, its drift follows, its schedule advances, a lost one is re-acquired; records of
other sites are combined once; a lost port stops the transmitter until SYSREF. -/
def Obligations.FarReachNodesAndPort : Prop :=
  ∀ s : State,
    (∀ e : FrTx,
      let w := e.toNat
      let r := s.ring 0 0x2820
      let addr := r.base + r.cons % 2 ^ r.log2n * 128
      let s1 := s.setRing 0 0x2820 { r with cons := (r.cons + 1) % 2 ^ 32 }
      r.enable = true → r.count ≠ 0 →
      (s.frOn = false → exec (.frTransmit e) s = .next (s1.txStatus addr w 3 0)) ∧
      (s.frOn = true → s.txForm w = none → exec (.frTransmit e) s = .next (s1.txStatus addr w 2 0)) ∧
      (s.frOn = true → s.txForm w ≠ none → bits w 511 416 ≠ 0 → bits w 511 416 < s.stamp →
        exec (.frTransmit e) s = .next (s1.txStatus addr w 1 0)) ∧
      (s.frOn = true → s.txForm w ≠ none → bits w 511 416 = 0 ∨ bits w 511 416 = s.stamp →
        (s.fr.rx ≠ [] → exec (.frTransmit e) s = .next
          (({ s1 with fr := { s1.fr with deferred := s1.fr.deferred ++ [(addr, w)] } }).countDev 0x034 (some 0))) ∧
        (s.fr.rx = [] → s.fr.txBusy = false → ∃ t, exec (.frTransmit e) s = .next t ∧
          t.fr.txEn = true ∧ t.fr.rxEn = false ∧ t.mem = s.mem ∧ t.dict = s.dict ∧ t.dictP = s.dictP ∧ t.cores = s.cores))) ∧
    (s.fr.txBusy = true → s.fr.deferred = [] → exec .frTxTailEnd s =
      .next { s with fr := { s.fr with txBusy := false, txEn := false, rxEn := s.frOn } }) ∧
    (∀ i : Nat,
      let w := s.ledger i
      let t : ℚ := ofTime96 (lgWake w)
      let g : ℚ := (lgGuard w : ℚ) * usUnits
      let h : ℚ := g + |(lgDrift w : ℚ)| / 10 ^ 9 * (t - ofTime96 (lgHeard w))
      s.frOn = true → i < s.od 0x5800 6 → lgState w = 1 → (∀ x ∈ s.fr.windows, x.node ≠ i) →
      (8 * g < h → t ≤ s.time.now → exec (.nodeOccurrence i) s = .next (s.loseNode i)) ∧
      (h ≤ 8 * g → t - h ≤ s.time.now → (∃ z : Int, h = z) → ∃ x : RxWindow,
        exec (.nodeOccurrence i) s = .next { s with fr := { s.fr with windows := s.fr.windows ++ [x] } } ∧
        x.node = i ∧ x.heard = false ∧ (x.opens : ℚ) = t - h ∧ (x.closes : ℚ) = t + h +
          frameTime (lgM w) (lgBw w) (symbolsOf (lgM w) (lgLen w + 1) (lgCr w)))) ∧
    (∀ i arrival : Nat, (s.fr.windows.any (fun x => x.node == i)) = true →
      exec (.nodeHeard i arrival) s = .next { (s.takeFree).2.setLedger i
          (setBits (setBits (setBits (s.ledger i) 287 256 (newDrift s.takeFree.1 (s.ledger i) arrival)) 135 128 0)
            255 160 arrival) with
        fr := { s.fr with windows := s.fr.windows.map (fun x => if x.node = i then { x with heard := true } else x) } }) ∧
    (∀ free w arrival : Nat,
      let span : Int := (ofTime96 (lgWake w) : Int) - ofTime96 (lgHeard w)
      let dm : Int := ⌊((ofTime96 arrival : ℚ) - ofTime96 (lgWake w)) / span * 10 ^ 9 + 1 / 2⌋
      let d : Int := lgDrift w + ⌊((dm : ℚ) - lgDrift w) / 4 + 1 / 2⌋
      span ≠ 0 → -(2 ^ 31) ≤ d → d < 2 ^ 31 → newDrift free w arrival = enc 32 d) ∧
    (∀ (i : Nat) (x : RxWindow), s.fr.windows.find? (fun x => x.node == i) = some x → x.closes ≤ s.time.now →
      let w := s.ledger i
      let w1 := setBits (setBits w 479 384 (addNs (lgWake w) (lgPeriod w))) 159 136 (lgEpoch w + 1)
      let s1 := { s with fr := { s.fr with windows := s.fr.windows.filter (fun y => y.node != i) } }
      (x.heard = true → exec (.occurrenceEnd i) s = .next (s1.setLedger i w1)) ∧
      (x.heard = false → lgMiss w + 1 < s.od 0x5800 3 → lgMiss w < 255 →
        exec (.occurrenceEnd i) s = .next (s1.setLedger i (setBits w1 135 128 (lgMiss w + 1)))) ∧
      (x.heard = false → s.od 0x5800 3 ≤ lgMiss w + 1 → lgMiss w < 255 →
        exec (.occurrenceEnd i) s = .next ((s1.setLedger i (setBits w1 135 128 (lgMiss w + 1))).loseNode i))) ∧
    (s.frOn = true → s.fr.rx = [] → s.fr.txBusy = false → s.anyLost = true → ∃ t, exec .beacon s = .next t ∧
      t.fr.txEn = true ∧ t.fr.rxEn = false ∧ t.fr.txBusy = true ∧ t.mem = s.mem ∧ t.dict = s.dict ∧ t.cores = s.cores) ∧
    (s.anyLost = false → exec .beacon s = .next s) ∧
    (∀ (addr : BitVec 32) (arrival i : Nat), i < s.od 0x5800 6 → lgState (s.ledger i) = 2 → lgAddr (s.ledger i) = addr.toNat →
      exec (.joinFrame addr arrival) s = .next (s.raiseAt arrival ⟨0, 0x0121, some 0, 0, 0, 0, 0, addr.toNat⟩)) ∧
    (∀ (addr : BitVec 32) (epoch : BitVec 24) (r : BitVec 256),
      (s.nodeOf addr.toNat = none → exec (.combineRecord addr epoch r) s = .next (s.countDev 0x036 (some 0))) ∧
      (∀ i, s.nodeOf addr.toNat = some i → 0 < lgGroup (s.ledger i) → lgGroup (s.ledger i) ≤ 64 →
        s.siteOf (lgGroup (s.ledger i)) 0 = s.nodeId →
        (s.fr.combines.find? (fun c => c.addr == addr.toNat && c.epoch == epoch.toNat) = none →
          exec (.combineRecord addr epoch r) s = .next { s with fr := { s.fr with
            combines := s.fr.combines ++ [⟨addr.toNat, epoch.toNat, [r.toNat], none, false, false⟩] } }) ∧
        (∀ c, s.fr.combines.find? (fun c => c.addr == addr.toNat && c.epoch == epoch.toNat) = some c →
          (c.closed = true ∨ ∃ x ∈ c.recs, bits x 23 0 = bits r.toNat 23 0) →
          exec (.combineRecord addr epoch r) s = .next (s.countDev 0x036 (some 0)))) ∧
      (s.fr.combines = [] → exec (.combineWait addr epoch) s = .next s) ∧
      (∀ c i, s.fr.combines = [c] → c.addr = addr.toNat → c.epoch = epoch.toNat → c.closed = false →
        s.nodeOf addr.toNat = some i → ∃ arr lrn, exec (.combineWait addr epoch) s = .next
          (({ s.takeFree.2 with fr := { s.fr with combines := [{ c with closed := true }] } }).deliver c.recs
            (lgM (s.ledger i)) (lgBw (s.ledger i)) (some i) arr lrn) ∧ (∀ a, c.arrival = some a → arr = a))) ∧
    (∀ (g : SigId) (first : Nat) (samples : List (Int × Int)), s.frOn = true → s.fr.jesdUp = true → ∃ t,
      exec (.converter g first samples) s = .next t ∧ t.fr.ringHalf = sput s.fr.ringHalf zeroD g.val
        (1 - sget s.fr.ringHalf zeroD g.val) ∧ (t.sig g).ipend.getLsbD 3 = true ∧ t.cores = s.cores ∧ t.dict = s.dict) ∧
    (∀ (lock : Bool) (n : Nat), s.frOn = true →
      ((lock = true ∨ 16 < n) → exec (.frJesd lock n) s = .next
        (({ s with fr := { s.fr with txEn := false, rx := [], jesdUp := false } }).warn 0x0122 (some 0) 0 0 0)) ∧
      ((lock = false ∧ n ≤ 16) → exec (.frJesd lock n) s = .next s)) ∧
    exec .sysrefEdge s = .next { s with
      time := { s.time with lastSysref := s.stamp }
      fr := { s.fr with jesdUp := s.fr.jesdUp || s.frOn } }

/-! ### Fabric -/

/-- A header holds its fields (R427): each field read back from a header made of fields in their ranges is what was put in,
VER is 1 and HOPS 0. -/
def Sys2Proof.Claims.claimHeaderFieldsRoundTrip : Prop :=
  ∀ vc ty dst src role tag len addr : Nat, vc < 4 → ty < 64 → dst < 4096 → src < 4096 → role < 65536 → tag < 1024 →
    len < 256 → addr < 2 ^ 52 →
    let h := mkHdr vc ty dst src role tag len addr
    hVer h = 1 ∧ hVc h = vc ∧ hType h = ty ∧ hHops h = 0 ∧ hDst h = dst ∧ hSrc h = src ∧ hRole h = role ∧ hTag h = tag ∧
      hLen h = len ∧ hAddr h = addr

/-- A message cut into slices and put together again is the message, for every payload its header counts (R427, R432). -/
def Obligations.MessageSlicesRoundTrip : Prop :=
  ∀ m : Msg, m.payload < 256 ^ payloadBytes m.hdr → msgOf (msgSlices m) = m

/-- A flit sent passes the receiver's check, and its link word carries its sequence number and header mask (R432, R434). -/
def Sys2Proof.Claims.claimFlitSentPassesCheck : Prop :=
  ∀ (data seq hmask : Nat), seq < 4096 → hmask < 16 →
    flitOk (mkFlit data seq hmask) = true ∧
    bits (mkFlit data seq hmask).word.toNat 31 20 = seq ∧ bits (mkFlit data seq hmask).word.toNat 19 16 = hmask

/-- Header fields round trip and a flit sent passes its check: the claims claimHeaderFieldsRoundTrip, claimFlitSentPassesCheck. -/
def Obligations.HeadersAndFlitsRoundTrip : Prop :=
  claimHeaderFieldsRoundTrip ∧ claimFlitSentPassesCheck

/-- Command c takes a message of another node in its turn only (R426): behind an older one it waits in the inbox; a malformed one
is dropped and counted, a request among them answered DENIED (R428). -/
def Sys2Proof.Claims.claimTakenInTurn (c : Instr) (m : Msg) (s : State) : Prop :=
  (s.inTurn m = false → exec c s = .next (s.await m)) ∧
  (s.inTurn m = true → msgBad m.hdr = true → exec c s = .next (s.malformed m))

/-- Requests of other nodes (R426, R428, R442): each waits for its turn; a malformed one is dropped, counted and DENIED; one of
another generation is counted and answered STALE_ROLE; a WRITE, READ, LITE, GADD or CLAIM in order has its effect and its
answer. -/
def Obligations.RequestsServed : Prop :=
  ∀ (m : Msg) (s : State), hDst m.hdr = s.nodeId →
    (hType m.hdr = 1 → claimTakenInTurn (.fabricWrite m) m s) ∧ (hType m.hdr = 2 → claimTakenInTurn (.fabricRead m) m s) ∧
    (hType m.hdr = 3 → claimTakenInTurn (.fabricLite m) m s) ∧ (hType m.hdr = 4 → claimTakenInTurn (.gadd m) m s) ∧
    (hType m.hdr = 5 → claimTakenInTurn (.claim m) m s) ∧ (s.inTurn m = true →
    let s1 := s.consume m
    let n := 8 * hLen m.hdr
    let who := s1.reqOf m.hdr
    (msgBad m.hdr = true →
      (hType m.hdr = 1 → exec (.fabricWrite m) s = .next ((s1.countDev 0x040).post (rspTo s.nodeId m.hdr 3))) ∧
      (hType m.hdr = 2 → exec (.fabricRead m) s = .next ((s1.countDev 0x040).post (rspTo s.nodeId m.hdr 3)))) ∧
    (msgBad m.hdr = false → s.roleOk m.hdr = false →
      (hType m.hdr = 1 → exec (.fabricWrite m) s = .next ((s1.countDev 0x045).post (staleTo s.nodeId m.hdr))) ∧
      (hType m.hdr = 2 → exec (.fabricRead m) s = .next ((s1.countDev 0x045).post (staleTo s.nodeId m.hdr))) ∧
      (hType m.hdr = 3 → exec (.fabricLite m) s = .next ((s1.countDev 0x045).post (staleTo s.nodeId m.hdr))) ∧
      (hType m.hdr = 4 → exec (.gadd m) s = .next ((s1.countDev 0x045).post (staleTo s.nodeId m.hdr))) ∧
      (hType m.hdr = 5 → exec (.claim m) s = .next ((s1.countDev 0x045).post (staleTo s.nodeId m.hdr)))) ∧
    (msgBad m.hdr = false → s.roleOk m.hdr = true →
      (hType m.hdr = 1 →
        let r := s1.writeAccess who (hAddr m.hdr) n (m.payload % 256 ^ n)
        exec (.fabricWrite m) s = .next (r.2.post (rspTo s.nodeId m.hdr r.1))) ∧
      (hType m.hdr = 2 →
        let r := s1.readAccess who (hAddr m.hdr) n
        (r.1 = 0 → exec (.fabricRead m) s =
          .next (r.2.2.post ⟨mkHdr 1 0x11 (hSrc m.hdr) s.nodeId 0 (hTag m.hdr) (hLen m.hdr) 0, r.2.1⟩)) ∧
        (r.1 ≠ 0 → exec (.fabricRead m) s = .next (r.2.2.post (rspTo s.nodeId m.hdr r.1)))) ∧
      (hType m.hdr = 3 → (∀ k, who = .part k → s1.semPart (m.payload % 65536) = some k) → who ≠ .nobody →
        let len := 8 * (hLen m.hdr - 1)
        let r := s1.writeAccess who (hAddr m.hdr) len (m.payload / 2 ^ 64 % 256 ^ len)
        (r.1 = 0 → exec (.fabricLite m) s = .next ((r.2.semAdd (m.payload % 65536) 1).post (rspTo s.nodeId m.hdr 0))) ∧
        (r.1 ≠ 0 → exec (.fabricLite m) s = .next (r.2.post (rspTo s.nodeId m.hdr r.1)))) ∧
      (hType m.hdr = 3 → who = .nobody → exec (.fabricLite m) s = .next (s1.post (rspTo s.nodeId m.hdr 3))) ∧
      (hType m.hdr = 4 → sramRun (hAddr m.hdr) n = true →
        let r := s1.gaddWords who (hAddr m.hdr) m.payload (hLen m.hdr / 2)
        exec (.gadd m) s = .next (r.2.post (rspTo s.nodeId m.hdr r.1))) ∧
      (∀ t, hType m.hdr = 5 → coreOfAddr (hAddr m.hdr) = some t →
        let far := (hSrc m.hdr, hAddr m.hdr - spBase t)
        (∀ s2, s1.claimAt t far (hTag m.hdr) = (.ok, s2) → exec (.claim m) s = .next (s2.post (rspTo s.nodeId m.hdr 0))) ∧
        (∀ s2, s1.claimAt t far (hTag m.hdr) = (.yield, s2) → exec (.claim m) s = .next (s2.post (rspTo s.nodeId m.hdr 9))) ∧
        (∀ s2, s1.claimAt t far (hTag m.hdr) = (.queued, s2) → exec (.claim m) s = .next s2))))

/-- Messages that are no requests wait for their turn and are dropped where malformed, each row alike (R426, R428, R578). -/
def Sys2Proof.Claims.claimMessagesTakenInTurn : Prop :=
  ∀ (m : Msg) (f : AccFrame) (r : Resolved) (s : State), hDst m.hdr = s.nodeId →
    (hType m.hdr = 0x10 → hAddr m.hdr % 16 ≠ 8 → claimTakenInTurn (.rsp m) m s) ∧
    (hType m.hdr = 0x10 → hAddr m.hdr % 16 = 8 → claimTakenInTurn (.staleRole m r) m s) ∧
    (hType m.hdr = 0x11 → claimTakenInTurn (.readData m) m s) ∧ (hType m.hdr = 0x12 → claimTakenInTurn (.freeMsg m) m s) ∧
    (hType m.hdr = 0x20 → claimTakenInTurn (.heartbeat m) m s) ∧ (hType m.hdr = 0x22 → claimTakenInTurn (.mgmt m f) m s) ∧
    (hType m.hdr = 0x23 → hSrc m.hdr ≠ s.nodeId → claimTakenInTurn (.lease m) m s) ∧
    (hType m.hdr = 0x24 → hSrc m.hdr ≠ s.nodeId → claimTakenInTurn (.stepDone m) m s) ∧
    (hType m.hdr = 0x25 → claimTakenInTurn (.commit m) m s) ∧ (hType m.hdr = 0x26 → claimTakenInTurn (.fence m) m s)

/-- MESSAGE_FORWARD and MGMT (R423, R424, R426, R428): a message for another node goes on in its turn with HOPS one higher, one
with HOPS 15 is unreachable, a malformed one is dropped; a MGMT request is an access by its node. -/
def Sys2Proof.Claims.claimMessagesForwarded : Prop :=
  ∀ (m : Msg) (s : State),
    (hDst m.hdr ≠ s.nodeId → hType m.hdr ≠ 0 → hType m.hdr ≠ 0x3F → s.inTurn m = false →
      exec (.messageForward m) s = .next (s.await m)) ∧
    (s.inTurn m = true →
    (hDst m.hdr ≠ s.nodeId → hType m.hdr ≠ 0 → hType m.hdr ≠ 0x3F → headBad m.hdr = true →
      exec (.messageForward m) s = .next (s.malformed m)) ∧
    (hDst m.hdr ≠ s.nodeId → hType m.hdr ≠ 0 → hType m.hdr ≠ 0x3F → headBad m.hdr = false → hHops m.hdr ≠ 15 →
      exec (.messageForward m) s = .next ((s.consume m).post { m with hdr := m.hdr + BitVec.ofNat 128 (2 ^ 112) }) ∧
      hHops (m.hdr + BitVec.ofNat 128 (2 ^ 112)) = hHops m.hdr + 1) ∧
    (hDst m.hdr ≠ s.nodeId → hType m.hdr ≠ 0 → hType m.hdr ≠ 0x3F → headBad m.hdr = false → hHops m.hdr = 15 →
      exec (.messageForward m) s = .next ((s.consume m).unreachable m)) ∧
    (∀ f, hType m.hdr = 0x22 → hDst m.hdr = s.nodeId → msgBad m.hdr = false → serves (s.consume m) (.mgmt (hSrc m.hdr)) →
      exec (.mgmt m f) s = .next ((s.consume m).mgmtAccess m.hdr (hSrc m.hdr) f)))

/-- Responses (R428 to R430, R443, R444, R451): each answers the outstanding request of its node and tag, and is dropped where
there is none; STALE_ROLE sends the request again to the role's new home, or ends it as DENIED. -/
def Sys2Proof.Claims.claimResponsesAnswerRequests : Prop :=
  ∀ (m : Msg) (s : State), hDst m.hdr = s.nodeId → s.inTurn m = true → msgBad m.hdr = false →
    let s1 := s.consume m
    let code := hAddr m.hdr % 16
    (hType m.hdr = 0x10 → code ≠ 8 →
      (∀ o, s1.answered m = some o → exec (.rsp m) s = .next (s1.finishReq o code)) ∧
      (s1.answered m = none → exec (.rsp m) s = .next s1)) ∧
    (hType m.hdr = 0x10 → code = 8 → ∀ r o, s1.answered m = some o →
      (7 ≤ o.stale → exec (.staleRole m r) s = .next (s1.finishReq o 3)) ∧
      (o.stale < 7 → r = .ended → exec (.staleRole m r) s = .next (s1.finishReq o 3)) ∧
      (∀ node unit gen, o.stale < 7 → r = .home node unit gen →
        exec (.staleRole m r) s = .next (s1.resend o node unit gen))) ∧
    (hType m.hdr = 0x11 → ∀ o e dst skip n x, s1.answered m = some o → o.origin = .dmaRead e dst skip n →
      s1.dmaHead e = some x →
      (dmaOp x.desc ≠ 2 →
        let r := s1.writeAccess x.req (dst % 2 ^ 52) n (m.payload / 256 ^ skip % 256 ^ n)
        exec (.readData m) s = .next (r.2.finishReq o r.1)) ∧
      (dmaOp x.desc = 2 →
        let r := s1.gaddWords x.req (dst % 2 ^ 52) (m.payload / 256 ^ skip) (n / 16)
        exec (.readData m) s = .next (r.2.finishReq o r.1))) ∧
    (hType m.hdr = 0x11 → ∀ o e dst n data t, s1.answered m = some o → o.origin = .dmaMerge e dst n data →
      let w := wordWindow (dst % 2 ^ 52) n
      let k := dst % 2 ^ 52 - w.1
      (s1.dropOutst o).request (dst / 2 ^ 52) 0 0x01 w.1 w.2
        (setBits (m.payload % 256 ^ (8 * w.2)) (8 * (k + n) - 1) (8 * k) data) (.dma e) = some t →
      exec (.readData m) s = .next t) ∧
    (hType m.hdr = 0x12 → ∀ p far, coreOfAddr (hAddr m.hdr) = some p → (s1.claim p).own = some far →
      (s1.claim p).waiting = true → far.1 = hSrc m.hdr → exec (.freeMsg m) s = .next (s1.sendClaim p far)) ∧
    (∀ (p : CoreId) (far : Nat × Nat), (s.claim p.val).own = some far → (s.claim p.val).waiting = true →
      exec (.claimRetry p) s = .next (s.sendClaim p.val far)) ∧
    (∀ (o : Outst) (c : Nat) (p ord : Nat), o.origin = .lite p ord →
      s1.finishReq o c = (s1.dropOutst o).modCoreAt p (fun x => x.modLite ord (fun l => { l with resp := some c })))

/-- Messages are taken in turn and forwarded, and responses answer requests: the claims claimMessagesTakenInTurn,
claimMessagesForwarded, claimResponsesAnswerRequests. -/
def Obligations.MessagesForwardedAndAnswered : Prop :=
  claimMessagesTakenInTurn ∧ claimMessagesForwarded ∧ claimResponsesAnswerRequests

/-- Partners, leases and staged commit (R445 to R447, R454): heartbeats keep the pair version and go to partners with an open
lease; a silent one is dropped; leases open and close; the last STEP_DONE at the commit node commits the step and tells every
node; a COMMIT of a live generation commits it here. -/
def Sys2Proof.Claims.claimLeasesAndStagedCommit : Prop :=
  ∀ (m : Msg) (s : State),
    let s1 := s.consume m
    let job := payJob m.payload
    let gen := payGen m.payload
    let k := payStep m.payload
    let due := s.inTurn m = true ∧ msgBad m.hdr = false
    (due → hType m.hdr = 0x20 → hDst m.hdr = s.nodeId → exec (.heartbeat m) s = .next (s1.setPairVer (hSrc m.hdr)
      ((s1.pairVersion (m.payload % 256) 1 (List.replicate (m.payload % 256 - 1) 0 ++ [m.payload / 256 % 16])).getD 0))) ∧
    (∀ node, (∃ l ∈ s.fab.leases, l.node = node) →
      exec (.heartbeatSend node) s =
        .next (s.post ⟨mkHdr 3 0x20 node s.nodeId 0 0 2 0, 2 + s.ownMinor 2 * 256 + s.jobs.length * 2 ^ 64⟩) ∧
      exec (.heartbeatTimeout node) s = .next (s.dropNode node)) ∧
    (∀ node, (∀ l ∈ s.fab.leases, l.node ≠ node) →
      exec (.heartbeatSend node) s = .next s ∧ exec (.heartbeatTimeout node) s = .next s) ∧
    (hType m.hdr = 0x23 → hSrc m.hdr = s.nodeId → hDst m.hdr ≠ s.nodeId →
      exec (.lease m) s = .next ((s.setLease (hDst m.hdr) m.payload).post m)) ∧
    (due → hType m.hdr = 0x23 → hSrc m.hdr ≠ s.nodeId → hDst m.hdr = s.nodeId → bit (payX m.payload) 1 = false →
      exec (.lease m) s = .next ((s1.setLease (hSrc m.hdr) m.payload).tell 0x23 (hSrc m.hdr) job gen
        (payX m.payload % 2 + 2) k)) ∧
    (due → hType m.hdr = 0x23 → hSrc m.hdr ≠ s.nodeId → hDst m.hdr = s.nodeId → bit (payX m.payload) 1 = true →
      exec (.lease m) s = .next (s1.setLease (hSrc m.hdr) m.payload)) ∧
    (∀ r, due → hType m.hdr = 0x24 → s.runOf job gen = some r → r.nodes.foldl min s.nodeId = s.nodeId →
      r.fenced = false → k = r.step →
      let done := if r.doneBy.contains (hSrc m.hdr) then r.doneBy else r.doneBy ++ [hSrc m.hdr]
      ((∀ n ∈ r.nodes, n ∈ done) → exec (.stepDone m) s = .next ((r.nodes.filter (fun n => n != s.nodeId)).foldl
        (fun st n => st.tell 0x25 n job gen 0 k) (s1.commitStep job k))) ∧
      ((∃ n ∈ r.nodes, n ∉ done) → exec (.stepDone m) s = .next (s1.modRun job (fun r => { r with doneBy := done })))) ∧
    (∀ r, hType m.hdr = 0x24 → s.runOf job gen = some r → r.nodes.foldl min s.nodeId ≠ s.nodeId → r.fenced = false →
      hSrc m.hdr = s.nodeId →
      exec (.stepDone m) s = .next (s.tell 0x24 (r.nodes.foldl min s.nodeId) job gen 0 k)) ∧
    (∀ r, due → hType m.hdr = 0x25 → hDst m.hdr = s.nodeId → s1.runOf job gen = some r → r.fenced = false →
      exec (.commit m) s = .next (s1.commitStep job k))

/-- Fencing (R447 to R450): a FENCE of a live generation fences it once; every core of the job stops at its next boundary and its
role changes; a fenced generation is never committed here; recovery waits until every task has stopped, and then reruns the
step as the next generation or loses the job. -/
def Sys2Proof.Claims.claimFencedGenerationsNeverCommit : Prop :=
  ∀ (m : Msg) (s : State),
    let s1 := s.consume m
    (∀ r, s.inTurn m = true → msgBad m.hdr = false → hType m.hdr = 0x26 → hDst m.hdr = s.nodeId → s1.runOf (payJob m.payload) (payGen m.payload) = some r →
      exec (.fence m) s = .next (s1.fenceJob r (payX m.payload))) ∧
    (∀ (x : State) (r : Run) (n : Nat), r.fenced = true → x.fenceJob r n = x) ∧
    (∀ r t, hType m.hdr = 0x25 → s1.runOf (payJob m.payload) (payGen m.payload) = some r → r.fenced = true →
      exec (.commit m) s = .next t → t.fab.runs = s1.fab.runs) ∧
    (∀ run held inputs r j, s.fab.runs.find? (fun r => r.job == run && r.fenced) = some r → s.jobOf run = some j →
      ((∃ p, p < 72 ∧ (s.coreAt p).job = some run ∧ ((s.coreAt p).mode = .running ∨ (s.coreAt p).mode = .halting)) →
        exec (.fenceRecovery run held inputs) s = .next s) ∧
      ((∀ p, p < 72 → (s.coreAt p).job = some run → (s.coreAt p).mode ≠ .running ∧ (s.coreAt p).mode ≠ .halting) →
        let s2 := if held then s.commitStep run r.step else s
        (inputs = false → exec (.fenceRecovery run held inputs) s =
          .next (((s2.faultNotice 0x0132 (some j.part) 4 j.part (run + r.gen * 2 ^ 32)).completeJob j 0 stJobLost 0xFF).endJob run)) ∧
        (inputs = true → ∃ t, exec (.fenceRecovery run held inputs) s = .next t ∧
          t = (List.range j.tasks.length).foldl
            (fun st k => st.rerunTask j k (if held then r.step + 1 else r.step))
            ((s2.modJob run (fun x => { x with gen := (r.gen + 1) % 65536 })).modRun run (fun x => { x with
              gen := (r.gen + 1) % 65536, fenced := false, doneBy := [], dropped := []
              step := if held then r.step + 1 else r.step
              nodes := x.nodes.filter (fun n => !x.dropped.contains n) })))))

/-- Leases, fences and staged commit: the claims claimLeasesAndStagedCommit, claimFencedGenerationsNeverCommit. -/
def Obligations.LeasesFencesAndCommit : Prop :=
  claimLeasesAndStagedCommit ∧ claimFencedGenerationsNeverCommit

/-- Flits and link control (R432 to R434): the expected flit with a good CRC advances the expected number and its messages arrive;
any other is discarded and owes a NAK; LINK_CTL drops acknowledged flits, adds credits and resends on NAK; LINK_CTL_SEND tells
and clears what is owed. -/
def Sys2Proof.Claims.claimFlitsTakenInOrder : Prop :=
  ∀ (l : LinkId) (f : Flit) (s : State), (s.link l).up = true →
    let x := s.link l
    let seq := bits f.word.toNat 31 20
    (x.training = false → (flitOk f = false ∨ seq ≠ x.expSeq) →
      exec (.flitReceive l f) s = .next (s.setLink l { x with nak := true })) ∧
    (x.training = false → flitOk f = true → seq = x.expSeq →
      let r := takeFlit f.data (some (bits f.word.toNat 19 16)) x.rxLeft x.slices
      exec (.flitReceive l f) s = .next (r.2.2.foldl (fun st m => st.arrive l.val m)
        (s.setLink l { x with expSeq := (x.expSeq + 1) % 4096, nak := false, rxLeft := r.1, slices := r.2.1 }))) ∧
    exec (.linkCtlSend l) s =
      .next ((s.setLink l { x with owed := [0, 0, 0, 0], nak := false }).emit (.linkCtl l.val x.expSeq x.nak x.owed)) ∧
    (∀ (ack : BitVec 12) (credits : BitVec 64),
      let left := x.replay.filter (fun e => decide ((e.1 + 4096 - ack.toNat) % 4096 < 2048))
      let cr := (List.range 4).map (fun i => nth x.credits i + bits credits.toNat (16 * i + 15) (16 * i))
      let s1 := s.setLink l { x with replay := left, credits := cr }
      exec (.linkCtl l ack false credits) s = .next (s1.linkPump l (x.txq.length + 1)) ∧
      ((∀ e ∈ left, e.2.2 < 8) → exec (.linkCtl l ack true credits) s =
        .next ((s1.replayLink l).linkPump l (x.txq.length + 1))) ∧
      ((∃ e ∈ left, 8 ≤ e.2.2) → exec (.linkCtl l ack true credits) s =
        .next (s1.setLink l { s1.link l with training := true })))

/-- Lanes and training (R422, R435, R436, R454): a dropped lane narrows the link or takes it down; retraining resumes by replay;
three passes bring a lane back; training brings a link up at the pair version and width, unless the node's own ID or no common
level is met, each told; a link that is up keeps its credits and what is unacknowledged (R457). -/
def Sys2Proof.Claims.claimLinkWidthAndTraining : Prop :=
  ∀ (l : LinkId) (lane : Fin 4) (s : State),
    let x := s.link l
    exec (.laneDrop l lane) s = .next ((s.setLink l { x with
      good := x.good &&& ~~~ BitVec.ofNat 4 (2 ^ lane.val), passes := x.passes.set lane.val 0 }).relane l) ∧
    (x.up = true → x.training = true →
      let s1 := s.repair l
      let y := s1.link l
      exec (.retrainComplete l) s = .next (((s1.setLink l { y with
        training := false, replay := y.replay.map (fun e => (e.1, e.2.1, 0)) }).replayLink l).linkPump l (y.txq.length + 1))) ∧
    (∀ t, x.peer = some t → s.repair l =
      let v := (s.pairVersion t.high t.low t.minors).getD x.pairVer
      (s.setLink l { x with pairVer := v }).setPairVer t.node v) ∧
    (x.up = true → bit (s.linkCfg l) 1 = true → x.good.getLsbD lane.val = false →
      exec (.laneTest l lane false) s = .next (s.setLink l { x with passes := x.passes.set lane.val 0 }) ∧
      (nth x.passes lane.val < 2 → exec (.laneTest l lane true) s =
        .next (s.setLink l { x with passes := x.passes.set lane.val (nth x.passes lane.val + 1) })) ∧
      (2 ≤ nth x.passes lane.val → exec (.laneTest l lane true) s = .next ((s.setLink l { x with
        passes := x.passes.set lane.val 0, good := x.good ||| BitVec.ofNat 4 (2 ^ lane.val) }).relane l))) ∧
    (∀ t : TrainInfo, bit (s.linkCfg l) 0 = true →
      let w := widthOf (usable t.lanes (s.linkCfg l)).length
      (t.node = s.nodeId → exec (.linkTraining l t) s = .next
        (((s.linkDown l).setLink l { LinkSt.reset with good := t.lanes }).warn 0x0130 none 7 l.val t.node)) ∧
      (t.node ≠ s.nodeId → s.pairVersion t.high t.low t.minors = none → ∃ u, exec (.linkTraining l t) s = .next
        (((s.linkDown l).setLink l { LinkSt.reset with good := t.lanes }).warn 0x0131 none 7 l.val u)) ∧
      (∀ v, t.node ≠ s.nodeId → s.pairVersion t.high t.low t.minors = some v → widthOk (s.linkCfg l) w v = true →
        (x.up = false → exec (.linkTraining l t) s = .next (((s.setLink l { LinkSt.reset with
          up := true, good := t.lanes, width := w, partner := t.node, pairVer := v, peer := some t, txq := x.txq }).setPairVer
            t.node v).linkPump l (x.txq.length + 1))) ∧
        (x.up = true → exec (.linkTraining l t) s = .next (((s.setLink l { x with
          good := t.lanes, width := w, partner := t.node, peer := some t }).repair l).resumeLink l))))

/-- Flits are taken in order; links train and lose width: the claims claimFlitsTakenInOrder, claimLinkWidthAndTraining. -/
def Obligations.FlitsAndLinks : Prop :=
  claimFlitsTakenInOrder ∧ claimLinkWidthAndTraining

/-- Tunnels (R437 to R440): a frame that fails a check is counted and dropped; one that passes acknowledges, gives credits and is
taken in order; the timer resends from the oldest unacknowledged flit; a tunnel that goes down drops its partners. -/
def Obligations.TunnelFramesTakenInOrder : Prop :=
  ∀ (tu : TunnelId) (f : TunFrame) (s : State), s.tunOpen tu = true →
    let h := f.hdr.toNat
    let x := s.tun tu
    (s.tunOk tu f = false → exec (.tunnelFrame tu f) s = .next (s.countDev 0x044)) ∧
    (s.tunOk tu f = true →
      let left := x.unacked.filter (fun e => !serialNewer 32 (bits h 95 64) e.1)
      let cr := (List.range 4).map (fun i => nth x.credits i + bits h (128 + 16 * i + 15) (128 + 16 * i))
      let s1 := s.setTun tu { x with up := true, unacked := left, credits := cr }
      (bit h 216 = false → exec (.tunnelFrame tu f) s =
        .next ((s1.tunTake tu (bits h 127 96) f.flits).tunPump tu (x.txq.length + 1))) ∧
      (bit h 216 = true → exec (.tunnelFrame tu f) s =
        .next (((s1.tunResend tu).tunTake tu (bits h 127 96) f.flits).tunPump tu (x.txq.length + 1)))) ∧
    exec (.tunnelRto tu) s = .next (s.tunResend tu) ∧
    (x.up = true → exec (.tunnelDown tu) s = .next ((s.setTun tu { x with up := false }).dropPort (8 + tu.val))) ∧
    (∀ (d : BitVec 512) (seq : Nat), seq ≠ x.expSeq → serialNewer 32 seq x.expSeq = false →
      s.tunTake tu seq [d] = s)

/-! ### Time -/

/-- R462 with the count of R459: a tick adds TB_INC; a tick that applies a step adds both; one that applies a set takes the set
value with zero fraction bits; an increment is in force from the tick that applies it; one adjustment a tick, in order. -/
def Sys2Proof.Claims.claimTimebaseTicksAndAdjustments : Prop :=
  ∀ s : State, s.power.stopped = false → s.time.now < 2 ^ 48 * secUnits →
    (s.time.now + s.time.inc < 2 ^ 48 * secUnits →
      ∃ t, exec .timebaseTick s = .next t ∧ t.time.now = s.time.now + s.time.inc ∧ t.time.inc = s.time.inc ∧
        t.time.pend = s.time.pend ∧ t.mem = s.mem ∧ t.cores = s.cores ∧ t.fab = s.fab ∧ t.dict = s.dict) ∧
    (∀ d rest, s.time.pend = .step d :: rest → 0 ≤ (s.time.now : Int) + s.time.inc + d * 2 ^ 16 →
      (s.time.now : Int) + s.time.inc + d * 2 ^ 16 < 2 ^ 48 * secUnits →
      ∃ t, exec .tbAdjustApply s = .next t ∧ (t.time.now : Int) = s.time.now + s.time.inc + d * 2 ^ 16 ∧
        t.time.pend = rest ∧ t.time.inc = s.time.inc) ∧
    (∀ v rest, s.time.pend = .set v :: rest → ofTime96 v < 2 ^ 48 * secUnits →
      ∃ t, exec .tbAdjustApply s = .next t ∧ t.time.now = ofTime96 v ∧ t.time.now % 2 ^ 16 = 0 ∧ t.time.pend = rest ∧
        t.time.inc = s.time.inc) ∧
    (∀ v rest, s.time.pend = .inc v :: rest → s.time.now + v < 2 ^ 48 * secUnits →
      ∃ t, exec .tbAdjustApply s = .next t ∧ t.time.now = s.time.now + v ∧ t.time.inc = v ∧ t.time.pend = rest)

/-- SCHEDULED_INSTANT (R464): an instant at or before the timebase fires; further back than 1 us it is skipped and counted;
whatever the timebase does afterwards, it never fires again. -/
def Sys2Proof.Claims.claimNoInstantFiresTwice : Prop :=
  ∀ (i : Nat) (s : State), i ≤ s.time.now → i ∉ s.time.fired →
    ∃ t, exec (.scheduledInstant i) s = .next t ∧ i ∈ t.time.fired ∧ t.time.now = s.time.now ∧
      (s.time.now ≤ i + 1000 * 2 ^ 32 → t = { s with time := { s.time with fired := i :: s.time.fired } }) ∧
      (i + 1000 * 2 ^ 32 < s.time.now →
        t = ({ s with time := { s.time with fired := i :: s.time.fired } }).countDev 0x003) ∧
      ∀ u : State, u.time.fired = t.time.fired → exec (.scheduledInstant i) u = .next u

/-- The timebase ticks and is adjusted; no instant fires twice: the claims claimTimebaseTicksAndAdjustments, claimNoInstantFiresTwice. -/
def Obligations.TimebaseAndInstants : Prop :=
  claimTimebaseTicksAndAdjustments ∧ claimNoInstantFiresTwice

/-- The references, the pins and the ports' links (R465, R470, R474). -/
def Obligations.ReferencesPinsAndPorts : Prop :=
  ∀ s : State,
    (s.time.refSel = false → exec .tbRefLost s =
      .next (({ s with time := { s.time with refSel := true, refOk := false } }).warn 0x0140 none 0 0 0)) ∧
    (s.time.refSel = true → exec .tbRefLost s = .next { s with time := { s.time with refSel := true, refOk := false } }) ∧
    (s.time.refSel = true → exec .tbRefOk s =
      .next (({ s with time := { s.time with refSel := false, refOk := true } }).info 0x0141 none 0 0 0)) ∧
    (s.time.refSel = false → exec .tbRefOk s = .next { s with time := { s.time with refSel := false, refOk := true } }) ∧
    (∀ ms, 100 ≤ ms → exec (.ppsInEdge ms) s = .next { s with time := { s.time with lastPps := s.stamp } }) ∧
    (∀ ms, ms < 100 → exec (.ppsInEdge ms) s = .next (s.countDev 0x047)) ∧
    exec .ppsOutEnd s = .next { s with time := { s.time with ppsHigh := false } } ∧
    (∀ q : PortId, s.time.portUp.length = 8 → ∃ t, exec (.portLinkDown q) s = .next t ∧ t.latEntry q.val = 0 ∧
      t = { s with time := { s.time with portUp := s.time.portUp.set q.val false } }) ∧
    (∀ (q : PortId) (i e : Nat), swf s.dict odDef → s.time.portUp.length = 8 → portLatency 400 false = some (i, e) →
      bit (s.od 0x6110 (q.val + 1)) 56 = false → bit (s.od 0x6110 (q.val + 1)) 57 = false →
      ∃ t, exec (.portLinkUp q 400 false) s = .next t ∧ bits (t.latEntry q.val) 27 0 = latencyUnits i ∧
        bits (t.latEntry q.val) 55 28 = latencyUnits e ∧ t.mem = s.mem ∧ t.host = s.host) ∧
    (∀ (q : PortId) (speed : Nat) (by_ : Bool), portLatency speed by_ = none → exec (.portLinkUp q speed by_) s = .next s)

/-- FIELD_PORT_FRAME (R468, R469): a frame captured after its latency is stamped with capture less ING_LAT and handed to
the class that its headers give: fronthaul, tunnel and in-band datagrams, the PTP servo of the selected port, PKT_RX. -/
def Sys2Proof.Claims.claimFieldPortFramesStamped : Prop :=
  ∀ (f : PortFrame) (s : State), bits (s.latEntry f.port.val) 27 0 ≤ f.capture →
    let stamp := toTime96 ((f.capture - bits (s.latEntry f.port.val) 27 0) * 2 ^ 16)
    (f.isEcpri = true → exec (.fieldPortFrame f) s = .next (s.emit (.pktRx 0 stamp))) ∧
    (f.isEcpri = false → f.ipVersion = 6 → f.udpDst = 48621 → exec (.fieldPortFrame f) s = .next (s.emit (.pktRx 1 stamp))) ∧
    (f.isEcpri = false → f.ipVersion = 6 → f.udpDst = 48620 → exec (.fieldPortFrame f) s = .next (s.emit (.pktRx 2 stamp))) ∧
    (f.isEcpri = false → (f.ipVersion ≠ 6 ∨ (f.udpDst ≠ 48620 ∧ f.udpDst ≠ 48621)) → (wirePtpAny f.content = false ∨ s.srcKind ≠ 1 ∨ s.srcIndex ≠ f.port.val) →
      exec (.fieldPortFrame f) s = .next (s.pktReceive f stamp)) ∧
    (f.isEcpri = false → (f.ipVersion ≠ 6 ∨ (f.udpDst ≠ 48620 ∧ f.udpDst ≠ 48621)) → wirePtpAny f.content = true → s.srcKind = 1 → s.srcIndex = f.port.val →
      ∃ t, exec (.fieldPortFrame f) s = .next t ∧ t.out = s.out ++ [.pktRx 3 stamp] ∧
        (wirePtpEvent f.content = false → t.time.offsets = s.time.offsets) ∧ t.host = s.host ∧ t.mem = s.mem)

/-- PKT_TX_SEND (R463, R472, R473): a Sync leaves with the egress stamp as its origin, a Delay_Req with the turnaround in its
correctionField, each with an updated checksum; no one-step frame leaves while a step or set is pending; a port without a link
answers status 3, a bad entry status 4, and the ring's index advances. -/
def Sys2Proof.Claims.claimOneStepFramesCorrected : Prop :=
  ∀ (t : PtpTx) (s : State),
    let off := p0Ring 3
    let r := s.ring 0 off
    let te := toTime96 ((t.egress + bits (s.latEntry t.port.val) 55 28) * 2 ^ 16)
    r.enable = true → r.count ≠ 0 →
    (t.tsMode = 2 → (∃ a ∈ s.time.pend, ∀ v, a ≠ .inc v) → exec (.pktTxSend t) s = .next s) ∧
    ((t.tsMode ≠ 2 ∨ ∀ a ∈ s.time.pend, ∃ v, a = .inc v) →
      (s.time.portUp.getD t.port.val false = false →
        exec (.pktTxSend t) s = .next ((s.emit (.pktDone 3 none)).ringTaken 0 off)) ∧
      (s.time.portUp.getD t.port.val false = true →
        (t.bad = true ∨ 3 ≤ t.tsMode →
          exec (.pktTxSend t) s = .next ((s.emit (.pktDone 4 none)).ringTaken 0 off)) ∧
        (t.bad = false → t.tsMode = 0 → exec (.pktTxSend t) s = .next (((s.emit
          (.frameSent t.port.val t.len t.content)).emit (.pktDone 0 none)).ringTaken 0 off)) ∧
        (t.bad = false → t.tsMode = 1 → exec (.pktTxSend t) s = .next (((s.emit
          (.frameSent t.port.val t.len t.content)).emit (.pktDone 0 (some te))).ringTaken 0 off)) ∧
        (t.bad = false → t.tsMode = 2 → t.hasPtp = true → t.ptpType = 0 →
          let c := satCorrection (t.correction + te % 2 ^ 16)
          exec (.pktTxSend t) s = .next (((s.emit (.frameSent t.port.val t.len (corrected t (te / 2 ^ 16) c))).emit
            (.pktDone 0 (some te))).ringTaken 0 off)) ∧
        (t.bad = false → t.tsMode = 2 → t.hasPtp = true → t.ptpType = 3 →
          let c := satCorrection (t.correction + ((time16 te : Int) - time16 t.tr))
          exec (.pktTxSend t) s = .next (((s.emit (.frameSent t.port.val t.len (corrected t t.origin c))).emit
            (.pktDone 0 (some te))).ringTaken 0 off)) ∧
        (t.bad = false → t.tsMode = 2 → (t.hasPtp = false ∨ (t.ptpType ≠ 0 ∧ t.ptpType ≠ 3)) →
          exec (.pktTxSend t) s = .next (((s.emit
            (.frameSent t.port.val t.len t.content)).emit (.pktDone 2 (some te))).ringTaken 0 off))))

/-- A field of a frame goes out most significant byte first and reads back as what was written; the frame's other bytes stand
(R7). -/
def Sys2Proof.Claims.claimWireFieldsReadBack : Prop :=
  ∀ w i n v : Nat, wireField (setWire w i n v) i n = v % 256 ^ n ∧
    (0 < n → wireByte (setWire w i n v) i = v / 256 ^ (n - 1) % 256) ∧
    (∀ k, k < i ∨ i + n ≤ k → 0 < n → wireByte (setWire w i n v) k = wireByte w k)

/-- Field port frames are stamped and one-step frames corrected, field by field: the claims claimFieldPortFramesStamped,
claimOneStepFramesCorrected, claimWireFieldsReadBack. -/
def Obligations.FieldPortFrames : Prop :=
  claimFieldPortFramesStamped ∧ claimOneStepFramesCorrected ∧ claimWireFieldsReadBack

/-- Time over Brim links (R475, R476): a request is answered with its T1, the time of its arrival and a later T3; a response in
sequence and not REPLAYED gives offset and delay exactly, halves rounded up. -/
def Obligations.BrimTimeExchange : Prop :=
  ∀ (l : LinkId) (payload : BitVec 384) (s : State), (s.link l).up = true →
    let w := payload.toNat
    let up : Int := (time16 (bits w 287 192) : Int) - time16 (bits w 383 288)
    let down : Int := (time16 s.stamp : Int) - time16 (bits w 191 96)
    (bits w 79 76 = 0 → ∃ (d : Nat) (t : State), d ≤ 1000 * 2 ^ 32 ∧ exec (.timeRequest l payload) s = .next t ∧
      t = { s with
        free := s.free + 1
        out := s.out ++ [.timeMsg l.val
          (timePayload (bits w 383 288) s.stamp (toTime96 (s.time.now + d)) (bits w 95 80) 1 (bit w 75))] }) ∧
    (bits w 79 76 = 1 → bit w 75 = false → bits w 95 80 = s.fab.timeSeq → ∃ t, exec (.timeResponse l payload) s = .next t ∧
      (2 * t.time.theta = up - down ∨ 2 * t.time.theta = up - down + 1) ∧
      (2 * t.time.delay = up + down ∨ 2 * t.time.delay = up + down + 1) ∧
      t.time.now = s.time.now ∧ t.mem = s.mem ∧ t.fab = s.fab ∧ t.host = s.host) ∧
    (bits w 79 76 = 1 → bit w 75 = true → exec (.timeResponse l payload) s = .next s) ∧
    (s.srcKind = 2 → s.srcIndex = l.val → exec .timeExchangeStart s =
      .next (({ s with fab := { s.fab with timeSeq := (s.fab.timeSeq + 1) % 65536 } }).emit
        (.timeMsg l.val (timePayload s.stamp 0 0 ((s.fab.timeSeq + 1) % 65536) 0 false))))

/-! ### Management and host -/

/-- DICTIONARY_WRITE (R483 to R485): a refused write changes nothing but for its answer; an accepted one is in force, and is
acknowledged at once, or for an RWP entry once its persisted copy is whole. -/
def Sys2Proof.Claims.claimDictionaryWriteServed : Prop :=
  ∀ (by_ : Requester) (index sub len v : Nat) (s : State), serves s by_ →
    let t := s.odApply index sub v
    let err := s.odWriteErr by_ index sub len v
    (err ≠ odOk → exec (.dictionaryWrite by_ index sub len v) s = .next (s.emit (.odReply by_ index sub err 0 0))) ∧
    (∀ e, err = odOk → entryOf index sub = some e → e.acc = .rwp → exec (.dictionaryWrite by_ index sub len v) s =
      .next { t with
        host := { t.host with persists := t.host.persists ++ [⟨.direct by_, index, sub, s.od index sub, v⟩] } }) ∧
    (∀ e, err = odOk → entryOf index sub = some e → e.acc ≠ .rwp → exec (.dictionaryWrite by_ index sub len v) s =
      .next (t.emit (.odReply by_ index sub odOk 0 0)))

/-- The rows that name one entry are the write of that entry, at its length. -/
def Sys2Proof.Claims.claimNamedWritesAreEntryWrites : Prop :=
  ∀ (by_ : Requester) (v : Nat) (k : PartId) (g : SigId) (c : CellId) (l : LinkId) (tu : TunnelId) (q : PortId)
    (entry : BitVec 16) (pb : BitVec 1024) (index sub : Nat),
    (∀ (i : Fin 3) (unit : Nat), writesEntry (.bankStateWrite by_ i unit v) by_ (0x3200 + 0x10 * i.val) (unit + 1) v) ∧
    writesEntry (.partitionConfigWrite by_ k v) by_ 0x4020 (k.val + 1) v ∧
    writesEntry (.timingLockWrite by_ k v) by_ 0x4180 (k.val + 1) v ∧
    writesEntry (.signalCoreRun by_ g entry) by_ 0x3120 (g.val + 1) (entry.toNat * 2 ^ 16 + 1) ∧
    writesEntry (.signalCoreStop by_ g entry) by_ 0x3120 (g.val + 1) (entry.toNat * 2 ^ 16) ∧
    writesEntry (.postBaseWrite by_ g pb) by_ 0x3140 (g.val + 1) pb.toNat ∧
    writesEntry (.cellConfigWrite by_ c v) by_ 0x5000 (c.val + 1) v ∧
    (index = 0x5800 ∨ index = 0x5810 → writesEntry (.farReachConfigWrite by_ index sub v) by_ index sub v) ∧
    writesEntry (.nodeIdWrite by_ v) by_ 0x6000 1 v ∧
    writesEntry (.routeTableWrite by_ v) by_ 0x6010 1 v ∧
    writesEntry (.linkConfigWrite by_ l v) by_ 0x6002 (l.val + 1) v ∧
    writesEntry (.tunnelConfigWrite by_ tu v) by_ 0x6020 (tu.val + 1) v ∧
    writesEntry (.tbIncWrite by_ v) by_ 0x6100 2 v ∧
    writesEntry (.tbStep by_ v) by_ 0x6100 3 v ∧
    writesEntry (.tbSet by_ v) by_ 0x6100 4 v ∧
    writesEntry (.timeSourceWrite by_ v) by_ 0x6100 6 v ∧
    writesEntry (.frameOffsetWrite by_ v) by_ 0x6100 0x0A v ∧
    writesEntry (.portLatencyWrite by_ q v) by_ 0x6110 (q.val + 1) v ∧
    (isVisor index = true → isCounter index sub = true → writesEntry (.visorCountWrite by_ index sub v) by_ index sub v) ∧
    (isVisor index = true → isCounter index sub = false → writesEntry (.visorSelectWrite by_ index sub v) by_ index sub v) ∧
    writesEntry (.visorHoldWrite by_ v) by_ 0x8000 1 v ∧
    writesEntry (.safetyPartitionWrite by_ v) by_ 0x7000 1 v ∧
    writesEntry (.install by_) by_ 0x7030 5 1 ∧ writesEntry (.handover by_) by_ 0x7030 5 2 ∧
    writesEntry (.confirm by_) by_ 0x7030 5 3 ∧ writesEntry (.revert by_) by_ 0x7030 5 4 ∧
    writesEntry (.alertRelease by_ v) by_ 0x2400 2 v

/-- Dictionary writes are served, by their general and their named rows: the claims claimDictionaryWriteServed, claimNamedWritesAreEntryWrites. -/
def Obligations.DictionaryWrites : Prop :=
  claimDictionaryWriteServed ∧ claimNamedWritesAreEntryWrites

/-- What an accepted write puts in force: banks are asked for states, a partition is fitted, a lock keeps its three bits, a
signal core starts at ENTRY or stops, the timebase holds adjustments for its next ticks, firmware commands are asked for, a Visor
counter or select is replaced, ALERT# is released; a CAN address or rate waits for the end of any open transfer on CAN; a
plain entry stores its value and nothing else changes. -/
def Obligations.AcceptedWriteEffects : Prop :=
  ∀ (s : State) (v : Nat),
    (∀ u, s.odApply 0x3200 u v = (s.setOd 0x3200 u v).askBanks (4 * (u - 1)) 4 v) ∧
    (∀ u, s.odApply 0x3210 u v = (s.setOd 0x3210 u v).askBanks (288 + 8 * (u - 1)) 8 v) ∧
    (∀ u, s.odApply 0x3220 u v = (s.setOd 0x3220 u v).askBanks (352 + 4 * (u - 1)) 4 v) ∧
    (∀ k, s.odApply 0x4020 (k + 1) v = (s.setOd 0x4020 (k + 1) v).applyPartition k) ∧
    (∀ k, s.odApply 0x4180 (k + 1) v = s.setOd 0x4180 (k + 1) (v % 8)) ∧
    (∀ g : SigId, bit v 0 = true → (s.sig g).running = false → g.val / 8 ∉ s.power.quadLost →
      s.odApply 0x3120 (g.val + 1) v = s.setSig g { Sig.reset with
        entry := BitVec.ofNat 16 (bits v 31 16), pc := BitVec.ofNat 32 (4 * (BitVec.ofNat 16 (bits v 31 16)).toNat)
        run := true, running := true }) ∧
    (∀ g : SigId, bit v 0 = true → (s.sig g).running = true → s.odApply 0x3120 (g.val + 1) v = s) ∧
    (∀ g : SigId, bit v 0 = false → ((s.odApply 0x3120 (g.val + 1) v).sig g).run = false) ∧
    (∀ c : CellId, bit v 0 = false → (s.cell c).running = true → (s.cell c).slots = [] →
      ((s.odApply 0x5000 (c.val + 1) v).cell c).running = false) ∧
    s.odApply 0x6000 1 v = (s.setOd 0x6000 1 v).trainAll ∧
    (∀ l : LinkId, s.odApply 0x6002 (l.val + 1) v =
      (s.setOd 0x6002 (l.val + 1) v).linkWritten l (s.od 0x6002 (l.val + 1))) ∧
    (∀ tu : TunnelId, bit v 0 = false → (s.odApply 0x6020 (tu.val + 1) v).tun tu = TunSt.reset) ∧
    (s.odApply 0x6100 2 v).time.pend = s.time.pend ++ [.inc v] ∧
    (s.odApply 0x6100 3 v).time.pend = s.time.pend ++ [.step (sext 64 v)] ∧
    (s.odApply 0x6100 4 v).time.pend = s.time.pend ++ [.set v] ∧
    s.odApply 0x7030 5 1 = s.setOd 0x7030 2 2 ∧
    (s.odApply 0x7030 5 2).safety.reqHandover = true ∧ (s.odApply 0x7030 5 2).safety.reqRevert = false ∧
    (s.odApply 0x7030 5 3).safety.bootDefault = s.safety.activeSlot ∧
    (s.odApply 0x7030 5 4).safety.reqHandover = true ∧ (s.odApply 0x7030 5 4).safety.reqRevert = true ∧
    (∀ index sub, isVisor index = true → isCounter index sub = true → s.odApply index sub v = { s with
      visor := sput s.visor zeroD (odKey index sub) (counterWrite (sget s.visor zeroD (odKey index sub)) v) }) ∧
    (∀ index sub, isVisor index = true → isCounter index sub = false → s.odApply index sub v = { s with
      visor := sput s.visor zeroD (odKey index sub) v }) ∧
    (v = 1 → s.odApply 0x2400 2 v = { s with power := { s.power with alertLow := false } }) ∧
    (∀ index sub, index ∈ [0x1110, 0x2100, 0x2110, 0x2300, 0x3140, 0x4040, 0x5810, 0x6010, 0x6110, 0x7000, 0x8000] →
      s.odApply index sub v = s.setOd index sub v) ∧
    (∀ sub, 2 < sub → s.odApply 0x1100 sub v = s.setOd 0x1100 sub v) ∧
    (∀ sub, sub ≤ 2 → (s.canOpen = false → s.odApply 0x1100 sub v = s.setOd 0x1100 sub v) ∧
      (s.canOpen = true → s.odApply 0x1100 sub v = ({ s with
        host := { s.host with canHeld := some s.canInForce } }).setOd 0x1100 sub v)) ∧
    s.odApply 0x6100 6 v = s.setOd 0x6100 6 v ∧ s.odApply 0x6100 0x0A v = s.setOd 0x6100 0x0A v

/-- A stored entry reads back what was written, and every other entry reads as before; memory, cores and all else are
unchanged (in states whose dictionary is canonical). -/
def Obligations.EntryReadsBackWrite : Prop :=
  ∀ (s : State) (index sub v i j : Nat), swf s.dict odDef → sub < 256 → j < 256 →
    (s.setOd index sub v).od index sub = v ∧
    ((index, sub) ≠ (i, j) → (s.setOd index sub v).od i j = s.od i j) ∧
    { s.setOd index sub v with dict := s.dict } = s

/-- Mailboxes (R492): a command with GO on a mailbox that is not BUSY is performed: OD_READ puts error, length and value into
the mailbox with DONE; OD_WRITE serves the write, and its answer does the same. A command written while BUSY is ignored. -/
def Sys2Proof.Claims.claimMailboxAccess : Prop :=
  ∀ (f : FuncId) (cmd : BitVec 64) (data : Nat) (s : State), s.host.pcieUp = true → bit cmd.toNat 63 = true →
    let by_ := mailRequester (some f)
    let m := s.mailbox (some f)
    let i := bits cmd.toNat 23 8
    let j := bits cmd.toNat 7 0
    (m.busy = true → exec (.odRead (some f) cmd) s = .next s ∧ exec (.odWrite (some f) cmd data) s = .next s) ∧
    (m.busy = false → serves s by_ → bit cmd.toNat 62 = false →
      let s1 := s.setMailbox (some f) { m with cmd := cmdHeld cmd.toNat, busy := true, done := false }
      exec (.odRead (some f) cmd) s = .next (s1.reply (.mail (some f)) i j (s1.odRead by_ i j).1 (s1.odRead by_ i j).2.1
        (s1.odRead by_ i j).2.2)) ∧
    (m.busy = false → serves s by_ → bit cmd.toNat 62 = true →
      let s1 := s.setMailbox (some f) { m with
        cmd := cmdHeld cmd.toNat, busy := true, done := false, data := data % 256 ^ 4096 }
      exec (.odWrite (some f) cmd data) s = .next (s1.odWrite by_ (.mail (some f)) i j (bits cmd.toNat 61 49)
        (data % 256 ^ 4096 % 256 ^ bits cmd.toNat 61 49))) ∧
    (∀ (x : State) (err len v : Nat), (x.mailbox (some f)).busy = true →
      let r := (x.reply (.mail (some f)) i j err len v).mailbox (some f)
      r.busy = false ∧ r.done = true ∧ r.err = err ∧ r.rlen = len)

/-- Access frames on CAN and in-band without an open transfer (R488, R489, R491): a read that fits one frame answers the value, a
longer one opens a transfer; a write of one frame is served; WRITE_START opens a transfer; a SEGMENT or NEXT without one is
PROTOCOL. A CAN frame with another identifier, format or rate than this node's request frames is ignored (R487). -/
def Sys2Proof.Claims.claimAccessFramesWithoutTransfer : Prop :=
  ∀ (p : Path) (f : AccFrame) (s : State), (s.hears p = false →
      exec (.canRead p f) s = .next s ∧ exec (.canWrite p f) s = .next s ∧ exec (.writeStart p f) s = .next s ∧
      exec (.segment p f) s = .next s ∧ exec (.nextBlock p f) s = .next s ∧ exec (.abortTransfer p f) s = .next s) ∧
    ((∃ b h, p = .can b h ∧ h ≠ s.canHead 0x400) ↔ s.hears p = false) ∧
    (s.hears p = true → serves s (pathRequester p) → s.xferOf p = none →
    let r := s.odRead (pathRequester p) f.index f.sub
    (f.cmd = 1 → r.1 = odOk → r.2.1 ≤ maxValue p →
      exec (.canRead p f) s = .next (s.emit (.accFrame (outPath p) 0 ⟨0x81, odOk, f.index, f.sub, r.2.1, r.2.1, r.2.2⟩))) ∧
    (f.cmd = 1 → r.1 = odOk → maxValue p < r.2.1 →
      exec (.canRead p f) s = .next ((s.setXfer p (some ⟨p, 0, false, f.index, f.sub, r.2.1, 0, r.2.2⟩)).emit
        (.accFrame (outPath p) 0 ⟨0x81, odOk, f.index, f.sub, r.2.1, 0, 0⟩))) ∧
    (f.cmd = 1 → r.1 ≠ odOk →
      exec (.canRead p f) s = .next (s.emit (.accFrame (outPath p) 0 ⟨0x81, r.1, f.index, f.sub, 0, 0, 0⟩))) ∧
    (f.cmd = 2 → f.len ≤ maxValue p → f.len ≤ f.dlen →
      exec (.canWrite p f) s =
        .next (s.odWrite (pathRequester p) (.frame p 2 0) f.index f.sub f.len (f.data % 256 ^ f.len))) ∧
    (f.cmd = 3 → 0 < f.len → f.len ≤ 4096 →
      exec (.writeStart p f) s = .next ((s.setXfer p (some ⟨p, 0, true, f.index, f.sub, f.len, 0, 0⟩)).emit
        (.accFrame (outPath p) 0 ⟨0x83, odOk, f.index, f.sub, 0, 0, 0⟩))) ∧
    (f.cmd = 4 → exec (.segment p f) s = .next (s.emit (.accFrame (outPath p) 0 ⟨0x84, odProtocol, f.index, f.sub, 0, 0, 0⟩))) ∧
    (f.cmd = 5 → exec (.nextBlock p f) s = .next (s.emit (.accFrame (outPath p) 0 ⟨0x85, odProtocol, f.index, f.sub, 0, 0, 0⟩))) ∧
    (f.cmd = 6 → exec (.abortTransfer p f) s = .next s))

/-- Access frames with an open transfer (R489, R490): segments are taken in order, NEXT sends a block of up to 8, ABORT ends it,
any other request answers BUSY; a timeout ends it with an ABORT that carries TIMEOUT. In-band datagrams are checked first. -/
def Sys2Proof.Claims.claimAccessFramesInTransfer : Prop :=
  (∀ (p : Path) (f : AccFrame) (x : Xfer) (s : State), s.xferOf p = some x →
    exec (.transferTimeout p) s =
      .next ((s.setXfer p none).emit (.accFrame (outPath p) x.req ⟨6, odTimeout, x.index, x.sub, x.len, 0, 0⟩)) ∧
    (s.hears p = true → serves s (pathRequester p) →
      (f.cmd = 6 → exec (.abortTransfer p f) s = .next (s.setXfer p none)) ∧
      (f.cmd = 4 → x.isWrite = true → exec (.segment p f) s = .next (s.takeSegment p 0 x f)) ∧
      (f.cmd = 5 → x.isWrite = false →
        let r := s.sendBlock p 0 x x.seq 8
        exec (.nextBlock p f) s =
          .next (r.2.setXfer p (if x.len ≤ r.1 * maxSegment p then none else some { x with seq := r.1 }))) ∧
      (f.cmd = 1 → exec (.canRead p f) s = .next (s.emit (.accFrame (outPath p) 0 ⟨0x81, odBusy, f.index, f.sub, 0, 0, 0⟩))) ∧
      (f.cmd = 2 → exec (.canWrite p f) s = .next (s.emit (.accFrame (outPath p) 0 ⟨0x82, odBusy, f.index, f.sub, 0, 0, 0⟩))) ∧
      (f.cmd = 3 → exec (.writeStart p f) s = .next (s.emit (.accFrame (outPath p) 0 ⟨0x83, odBusy, f.index, f.sub, 0, 0, 0⟩))))) ∧
  (∀ (d : Datagram) (s : State),
    (s.datagramOk d = true → d.version = 1 → d.kind = 0 → serves s (.inband d.srcIp) →
      exec (.inBandDatagram d) s = .next (s.frameAccess (.inband d.srcIp) d.reqId d.frame)) ∧
    (s.datagramOk d = false ∨ d.version ≠ 1 ∨ d.kind ≠ 0 → exec (.inBandDatagram d) s = .next (s.countDev 0x051)))

/-- Mailbox and CAN-style access frames: the claims claimMailboxAccess, claimAccessFramesWithoutTransfer, claimAccessFramesInTransfer. -/
def Obligations.MailboxAndAccessFrames : Prop :=
  claimMailboxAccess ∧ claimAccessFramesWithoutTransfer ∧ claimAccessFramesInTransfer

/-- PERSIST_COMPLETE, NOTICE_SEND and JOURNAL_APPEND (R485, R495 to R498, R537): the oldest persisted write is whole and
acknowledged; the oldest notice leaves where its transport takes it; every record not yet in the journal is appended. -/
def Obligations.PersistNoticeJournal : Prop :=
  ∀ s : State,
    (∀ x rest, s.host.persists = x :: rest → ∃ t : State,
      t = ((({ s with
        dictP := sput s.dictP odDef (odKey x.index x.sub) x.value
        host := { s.host with persists := rest } }).cellAcked x.index x.sub).emit (.flash (odKey x.index x.sub) x.value)) ∧
      exec .persistComplete s = .next (t.reply x.to_ x.index x.sub odOk 0 0)) ∧
    (∀ (c : CellId) (u : State), u.cellAcked 0x5000 (c.val + 1) =
      if bit (u.cellCfg c) 0 ∧ (u.cell c).running = false then u.setCell c { u.cell c with enabledAt := some u.time.now } else u) ∧
    (∀ (ch : Fin 19) (n : Nat) (rest : List Nat) (s1 : State), s.host.chans[ch.val].queue = n :: rest →
      s.sendNotice ch n = some s1 →
      exec (.noticeSend ch) s = .next ((s1.setChan ch { s.host.chans[ch.val] with queue := rest }).tellLost ch)) ∧
    (∃ t, exec .journalAppend s = .next t ∧ t.host.journal = s.host.journal ++ s.host.journalNew ∧ t.host.journalNew = [] ∧
      t.mem = s.mem ∧ t.cores = s.cores ∧ t.power = s.power ∧ t.dict = s.dict)

/-- A notice raised changes only its channels, the journal still to be written, ALERT# and the count of drops: each channel
that it is meant for advances its SEQ, and holds it unless 64 wait (R495, R497, R498, R569). -/
def Obligations.NoticeReachesItsChannels : Prop :=
  ∀ (n : Notice) (s : State),
    let t := s.raise n
    (∀ ch : Fin 19, s.meantFor n ch.val = true → s.host.chans[ch.val].queue.length < 64 →
      t.host.chans[ch.val].queue = s.host.chans[ch.val].queue ++
        [noticeBits s.stamp ((s.host.chans[ch.val].seq + 1) % 2 ^ 16) n]) ∧
    (∀ ch : Fin 19, s.meantFor n ch.val = true → t.host.chans[ch.val].seq = (s.host.chans[ch.val].seq + 1) % 2 ^ 16) ∧
    (∀ ch : Fin 19, s.meantFor n ch.val = true → 64 ≤ s.host.chans[ch.val].queue.length →
      t.host.chans[ch.val].queue = s.host.chans[ch.val].queue ∧
      t.host.chans[ch.val].dropped = (s.host.chans[ch.val].dropped + 1) % 2 ^ 32) ∧
    (∀ ch : Fin 19, s.meantFor n ch.val = false → t.host.chans[ch.val] = s.host.chans[ch.val]) ∧
    s.meantFor n 0 = true ∧
    (∃ r, t.host.journalNew = s.host.journalNew ++ [r]) ∧
    (t.power.alertLow = true ↔ (s.power.alertLow = true ∨ (s.od 0x2400 1 ≤ n.sev ∧ s.od 0x2400 1 ≠ 3))) ∧
    { t with host := s.host, visor := s.visor, power := { t.power with alertLow := s.power.alertLow } } = s

/-- Ring registers (R500 to R502): BASE and CFG of a disabled ring are taken, a disabled ring's indices are 0; an index that
goes forward within the ring is taken, another raises the ring-index notice and is not. -/
def Sys2Proof.Claims.claimRingRegisters : Prop :=
  ∀ (f : FuncId) (blk v : Nat) (n : BitVec 32) (s : State), hasRing f.val blk = true → blk % 0x20 = 0 → s.host.pcieUp = true →
    let r := s.ring f.val blk
    (r.enable = false → exec (.ringCfgWrite f blk v) s =
      .next (s.setRing f.val blk { r with base := v % 2 ^ 64 / 4096 * 4096 })) ∧
    (r.enable = true → exec (.ringCfgWrite f blk v) s = .next s) ∧
    (r.enable = false → bit v 31 = true → exec (.ringCfgWrite f (blk + 8) v) s =
      .next ((s.setRing f.val blk (r.config f.val v)).ringOpened f.val blk)) ∧
    (r.enable = true → bit v 31 = true → exec (.ringCfgWrite f (blk + 8) v) s = .next s) ∧
    (r.enable = true → bit v 31 = false → exec (.ringCfgWrite f (blk + 8) v) s =
      .next (s.setRing f.val blk (r.config f.val v).disabled)) ∧
    (hostProduced blk = false → r.enable = true → r.indexOk r.cons n.toNat r.prod n.toNat = true →
      exec (.ringConsWrite f blk n) s = .next ((s.setRing f.val blk { r with cons := n.toNat }).ringOpened f.val blk)) ∧
    (hostProduced blk = false → r.enable = true → r.indexOk r.cons n.toNat r.prod n.toNat = false →
      exec (.ringConsWrite f blk n) s = .next (s.warn 0x0151 none 0 0 blk)) ∧
    (∀ i : Fin 5, f.val = 0 → blk = p0Ring i.val → hostProduced blk = true → r.enable = true →
      (r.indexOk r.prod n.toNat n.toNat r.cons = true →
        exec (.pktTxProd f i n) s = .next (s.setRing 0 blk { r with prod := n.toNat })) ∧
      (r.indexOk r.prod n.toNat n.toNat r.cons = false → exec (.pktTxProd f i n) s = .next (s.warn 0x0151 none 0 0 blk))) ∧
    (r.open_ = true → r.due = true →
      exec (.msiXMessage f blk) s = .next ((s.setRing f.val blk { r with due := false }).msix f.val r.vec)) ∧
    (r.open_ = true → r.due = false → exec (.msiXMessage f blk) s = .next (s.setRing f.val blk { r with open_ := false }))

/-- JOB_RING_PROD (R502, R504 to R506): the descriptors up to PROD are read in ring order; each is a job that waits, under its
handle, or is answered REFUSED with the lowest code. -/
def Sys2Proof.Claims.claimDescriptorsBecomeJobs : Prop :=
  (∀ (f : FuncId) (set : Fin 16) (prod : BitVec 32) (descs : List (BitVec 512)) (s : State),
    let off := 0x2100 + 0x40 * set.val
    let q := if f.val = 0 then set.val else f.val + 15
    let r := s.ring f.val off
    hasRing f.val off = true → r.enable = true → s.host.pcieUp = true →
    (r.indexOk r.prod prod.toNat prod.toNat r.cons = true → exec (.jobRingProd f set prod descs) s =
      .next ((List.range ((prod.toNat + 2 ^ 32 - r.prod) % 2 ^ 32)).foldl (fun st i =>
        st.submit q (q * 65536 + (r.prod + i) % 2 ^ 32 % 2 ^ r.log2n) (descs.getD i 0#512).toNat)
        (s.setRing f.val off { r with prod := prod.toNat, cons := prod.toNat }))) ∧
    (r.indexOk r.prod prod.toNat prod.toNat r.cons = false →
      exec (.jobRingProd f set prod descs) s = .next (s.warn 0x0151 none 0 0 off))) ∧
  (∀ (s : State) (q h d : Nat), s.refusal (s.qsetPart q) d = 0 →
    (s.submit q h d).jobs = s.jobs ++ [⟨h, q, s.qsetPart q, d, .waiting, bits d 128 127, 1, (s.taskTable d).map taskOf, [], 0,
      0xFF, false, false, 0⟩] ∧ (s.submit q h d).mem = s.mem ∧ (s.submit q h d).cores = s.cores) ∧
  (∀ (s : State) (q h d : Nat), s.refusal (s.qsetPart q) d ≠ 0 →
    s.submit q h d = s.complete q (bits d 319 256) h (s.refusal (s.qsetPart q) d) stRefused 0xFF)

/-- JOB_CTL (R317, R321, R507): on a job of the function's own queue sets in the state the operation needs, it takes effect;
on any other it completes REFUSED with code 6 and the job is untouched. -/
def Sys2Proof.Claims.claimJobControl : Prop :=
  ∀ (f : FuncId) (v : BitVec 64) (s : State),
    let h := bits v.toNat 63 32
    (∀ j, s.jobOf h = some j → qsetFunc j.qset = f.val →
      (bits v.toNat 3 0 = 1 → j.st = .running → exec (.suspend f v) s =
        .next (((s.modJob j.handle (fun j => { j with st := .suspending })).needAll j.handle .suspend).trySuspended j.handle)) ∧
      (bits v.toNat 3 0 = 2 → j.st = .suspended → exec (.resume f v) s =
        .next ((s.resumeJob j).getD (s.modJob j.handle (fun j => { j with st := .resuming })))) ∧
      (bits v.toNat 3 0 = 3 → j.st = .faulted → exec (.release f v) s =
        .next ((s.completeJob j 0 stReleased 0xFF).endJob j.handle)) ∧
      (bits v.toNat 3 0 = 4 → exec (.setprio f v) s =
        .next ((s.modJob j.handle (fun j => { j with prio := bits v.toNat 7 6 })).completeJob j 0 stPrioSet 0xFF)) ∧
      (bits v.toNat 3 0 = 1 → j.st ≠ .running → exec (.suspend f v) s = .next (s.refuseCtl f.val h)) ∧
      (bits v.toNat 3 0 = 2 → j.st ≠ .suspended → exec (.resume f v) s = .next (s.refuseCtl f.val h)) ∧
      (bits v.toNat 3 0 = 3 → j.st ≠ .faulted → exec (.release f v) s = .next (s.refuseCtl f.val h))) ∧
    (s.jobOf h = none →
      (bits v.toNat 3 0 = 1 → exec (.suspend f v) s = .next (s.refuseCtl f.val h)) ∧
      (bits v.toNat 3 0 = 2 → exec (.resume f v) s = .next (s.refuseCtl f.val h)) ∧
      (bits v.toNat 3 0 = 3 → exec (.release f v) s = .next (s.refuseCtl f.val h)) ∧
      (bits v.toNat 3 0 = 4 → exec (.setprio f v) s = .next (s.refuseCtl f.val h)))

/-- Descriptors become jobs and JOB_CTL acts on them: the claims claimDescriptorsBecomeJobs, claimJobControl. -/
def Obligations.JobsFromDescriptors : Prop :=
  claimDescriptorsBecomeJobs ∧ claimJobControl

/-- Function resets, PERST#, a link down and BAR2 (R500, R508, R509): a reset function's rings are at reset values or disabled
and its mailbox gone; BAR2 bytes that map nothing read as ones and are dropped on writes. -/
def Sys2Proof.Claims.claimFunctionResetsAndBar2 : Prop :=
  ∀ s : State,
    (∀ f : FuncId, f.val ≠ 0 → exec (.functionLevelReset f) s = .next (s.resetFunction f.val)) ∧
    (∀ f : FuncId, f.val = 0 → exec (.functionLevelReset f) s = .next s.resetAllFunctions) ∧
    (∃ t, exec .perst s = .next t ∧ t.host.rings = [] ∧ t.host.mail = [] ∧ t.host.msixMask = [] ∧ t.host.msixPending = [] ∧
      (t.host.pcieUp = true ↔ s.power.level ≠ 0) ∧ t.mem = s.mem ∧ t.dict = s.dict ∧ t.time = s.time) ∧
    exec .pcieLinkDown s = .next { s with host := { s.host with pcieUp := false } } ∧
    (∀ (f : FuncId) (off len data : Nat), s.host.pcieUp = true →
      ((∀ i, i < len → s.bar2Addr f.val (off + i) = none) →
        exec (.bar2Access f true off len data) s = .next (s.countDev 0x052) ∧
        exec (.bar2Access f false off len data) s = .next (s.emit (.barData (256 ^ len - 1)))) ∧
      ((∃ i, i < len ∧ s.bar2Addr f.val (off + i) ≠ none) →
        exec (.bar2Access f true off len data) s = .next (s.bar2Write f.val off data len)) ∧
      ((∀ i a, i < len → s.bar2Addr f.val (off + i) = some a → s.poisoned a 1 = false) →
        exec (.bar2Access f false off len data) s = .next (s.emit (.barData (s.bar2Read f.val off len)))))

/-- Ring registers, function resets and BAR2: the claims claimRingRegisters, claimFunctionResetsAndBar2. -/
def Obligations.RingsAndFunctions : Prop :=
  claimRingRegisters ∧ claimFunctionResetsAndBar2

/-! ### Safety and availability -/

/-- MITTEN_COMPARE (R520, R521, R523, R524, R526): both cores of a pair have the tile behind them. Equal digests confirm it: the
leader's actions alone are performed, those that a full DMA or LITE queue stalls (R217, R228) before the pair goes on. Different ones raise MITTEN_MISMATCH and open a vote with a ready spare, or roll both
back; an unlogged tile faults the job. -/
def Sys2Proof.Claims.claimPairComparisonConfirmsOrVotes : Prop :=
  ∀ (p : CoreId) (s : State) (q : Pair), s.pairOf p.val = some q → q.spare = none →
    (∀ j, s.jobOf q.job = some j → j.st ≠ .faulted) →
    s.coreLost q.leader = false → s.coreLost q.follower = false →
    (s.coreAt q.leader).tileOver = true → (s.coreAt q.follower).tileOver = true →
    sameFault (s.coreAt q.leader) (s.coreAt q.follower) = false →
    let equal := (s.coreAt q.leader).goodDigest ≠ none ∧ (s.coreAt q.leader).goodDigest = (s.coreAt q.follower).goodDigest
    let told := s.warn 0x0160 (s.coreOwner q.leader) 1 q.leader (pairPayload q.leader q.follower)
    let unlogged := 0x80000 < (s.coreAt q.leader).undoBytes ∨ 0x80000 < (s.coreAt q.follower).undoBytes
    let s0 := s.actAll q.leader q.follower
    (equal → (s0.coreAt q.leader).held ≠ [] → exec (.mittenCompare p) s = .next s0) ∧
    (equal → (s0.coreAt q.leader).held = [] → q.retry = false →
      exec (.mittenCompare p) s = .next (s0.confirmTile q.leader q.leader q.follower)) ∧
    (equal → (s0.coreAt q.leader).held = [] → q.retry = true → exec (.mittenCompare p) s =
      .next (((s0.confirmTile q.leader q.leader q.follower).warn 0x0163 (s.coreOwner q.leader) 1 q.leader
        (pairPayload q.leader q.follower)).incOd 0x7000 4)) ∧
    (¬ equal → q.retry = true → exec (.mittenCompare p) s = .next (s.noVote q 0)) ∧
    (¬ equal → q.retry = false → unlogged → exec (.mittenCompare p) s =
      .next ((told.faultNotice 0x0164 (s.coreOwner q.leader) 1 q.leader (pairPayload q.leader q.follower)).failPair q 0x0164)) ∧
    (∀ sp, ¬ equal → q.retry = false → ¬ unlogged → s.voteSpare q = some sp →
      exec (.mittenCompare p) s = .next (told.openVote q q.follower sp)) ∧
    (¬ equal → q.retry = false → ¬ unlogged → s.voteSpare q = none → exec (.mittenCompare p) s =
      .next (((told.rollBack q q.leader).rollBack q q.follower).modPair q.leader (fun q => { q with retry := true })))

/-- VOTE_RERUN_DONE (R524, R525): the spare has run the tile. The core whose digest is the spare's alone wins, and its actions are performed, stalled by full queues as at a comparison; no winner or two
winners fail the job, and the spare is ready again. -/
def Sys2Proof.Claims.claimVoteDecidedByThirdDigest : Prop :=
  ∀ (p : CoreId) (s : State) (q : Pair), s.safety.pairs.find? (fun q => q.spare == some p.val) = some q →
    (s.core p).tileOver = true →
    let good := fun (x : Nat) => s.coreLost x = false ∧ (s.core p).goodDigest ≠ none ∧
      (s.coreAt x).goodDigest = (s.core p).goodDigest
    let acted := fun (x : Nat) => s.actAll x p.val
    (good q.leader → ¬ good q.follower →
      (((acted q.leader).coreAt q.leader).held = [] →
        exec (.voteRerunDone p) s = .next ((acted q.leader).voteWon q p.val q.leader q.follower)) ∧
      (((acted q.leader).coreAt q.leader).held ≠ [] → exec (.voteRerunDone p) s = .next (acted q.leader))) ∧
    (good q.follower → ¬ good q.leader →
      (((acted q.follower).coreAt q.follower).held = [] →
        exec (.voteRerunDone p) s = .next ((acted q.follower).voteWon q p.val q.follower q.leader)) ∧
      (((acted q.follower).coreAt q.follower).held ≠ [] → exec (.voteRerunDone p) s = .next (acted q.follower))) ∧
    ((good q.leader ↔ good q.follower) → exec (.voteRerunDone p) s =
      .next ((((s.noVote q p.val).clearCore p.val).setSpareSt (p.val / 9) .ready).modPair q.leader
        (fun q => { q with spare := none })))

/-- A pair's comparison confirms or votes; the third digest decides: the claims claimPairComparisonConfirmsOrVotes, claimVoteDecidedByThirdDigest. -/
def Obligations.PairsCompareAndVote : Prop :=
  claimPairComparisonConfirmsOrVotes ∧ claimVoteDecidedByThirdDigest

/-- GAUNTLET_ROTATION, GAUNTLET_SWAP and GAUNTLET_STALLED (R529, R530): the next core of the canton is due; a rotation still
outstanding is counted; a core that can be swapped moves to the spare; one in the middle of a tile is needed at its boundary
and keeps its task; a stalled canton is told. -/
def Sys2Proof.Claims.claimGauntletRotatesAtBoundaries : Prop :=
  ∀ (c : CantonId) (s : State),
    (∀ p, s.gauntletOn = true → s.safety.swapDue.length = 8 → s.nextTested c.val = some p →
      ∃ t, exec (.gauntletRotation c) s = .next t ∧ t.safety.swapDue.getD c.val none = some p ∧
        t.safety.skipped = s.safety.skipped + (if (s.safety.swapDue.getD c.val none).isSome then 1 else 0) ∧
        t.mem = s.mem ∧ t.jobs = s.jobs ∧ t.host = s.host ∧ t.power = s.power ∧ t.dict = s.dict) ∧
    (∀ p sp lent, s.safety.testing = [] → s.safety.swapDue.getD c.val none = some p → s.inService p = true →
      s.swapSpare p = some (sp, lent) → s.swappable p = true →
      exec (.gauntletSwap c) s = .next (s.swap p sp lent)) ∧
    (∀ p, s.safety.testing = [] → s.safety.swapDue.getD c.val none = some p → s.inService p = true →
      s.swappable p = false → exec (.gauntletSwap c) s = .next (s.needSwap p)) ∧
    exec (.gauntletStalled c) s = .next (s.warn 0x0166 none 3 c.val c.val)

/-- SELF_TEST_COMPLETE (R12, R529, R531): a core that passes is its canton's ready spare with a cleared memory, unless a
retirement consumed that spare meanwhile; where a spare lent to it stands in, it waits to take its place back; one that fails is
retired and its canton is left without a spare. -/
def Sys2Proof.Claims.claimSelfTestPassesOrRetires : Prop :=
  ∀ (p : CoreId) (part sp : Nat) (lent : Bool) (s : State),
    s.safety.testing.find? (fun t => t.core == p.val && t.passed == none) = some ⟨p.val, sp, lent, none⟩ →
    s.safety.spareSt.length = 8 → s.safety.spare.length = 8 →
    let spares := if s.safety.spare.getD (p.val / 9) none = some (p.val % 9) then s.safety.spareSt.set (p.val / 9) .ready
      else s.safety.spareSt
    let cleared := s.clearCore p.val
    let marked := if lent then cleared.safety.testing.map (fun x => if x.core = p.val then { x with passed := some false } else x)
      else cleared.safety.testing.filter (fun x => x.core != p.val)
    (lent = true → ∃ t, exec (.selfTestComplete p 0) s = .next t ∧ ⟨p.val, sp, true, some true⟩ ∈ t.safety.testing ∧
      t.safety.spareSt = spares ∧ t.safety.retired = s.safety.retired ∧ t.host = s.host ∧ t.jobs = s.jobs) ∧
    (lent = false → ∃ t, exec (.selfTestComplete p 0) s = .next t ∧ t.safety.spareSt = spares ∧
      t.safety.retired = s.safety.retired ∧ (∀ x ∈ t.safety.testing, x.core ≠ p.val) ∧ t.host = s.host ∧ t.jobs = s.jobs) ∧
    (part ≠ 0 → exec (.selfTestComplete p part) s =
      .next (State.retireCore { cleared with safety := { cleared.safety with testing := marked } } p.val part)) ∧
    (part ≠ 0 → (∀ x ∈ s.stalled, ∀ i, i < 4 → x.at_ (4 * p.val + i) = false) →
      ∃ t, exec (.selfTestComplete p part) s = .next t ∧ t.safety.retired = s.safety.retired ++ [p.val] ∧
      t.safety.spareSt.getD (p.val / 9) .ready = .none ∧ t.safety.spare.getD (p.val / 9) (some 0) = none ∧ t.jobs = s.jobs)

/-- CANTON_LOST, HBM_STACK_LOST and SIGNAL_QUAD_LOST (R533): the domain is lost once; in FULL the level becomes DEGRADED. -/
def Sys2Proof.Claims.claimDomainsLostOnce : Prop :=
  ∀ s : State,
    (∀ c : CantonId, s.safety.railOk.getD c.val false = true → exec (.cantonLost c) s = .next (s.loseCanton c.val)) ∧
    (∀ c : CantonId, s.safety.railOk.getD c.val false = false → exec (.cantonLost c) s = .next s) ∧
    (∀ k : Fin 4, k.val ∉ s.power.hbmLost → ∃ t, exec (.hbmStackLost k) s = .next t ∧
      t.power.hbmLost = s.power.hbmLost ++ [k.val] ∧ t.power.lostDomain = true ∧
      t.power.level = (if s.power.level = 4 then 5 else s.power.level) ∧ t.mem = s.mem ∧ t.cores = s.cores ∧ t.jobs = s.jobs) ∧
    (∀ k : Fin 4, k.val ∉ s.power.quadLost → exec (.signalQuadLost k) s = .next (s.loseQuad k.val)) ∧
    (∀ k : Fin 4, k.val ∈ s.power.hbmLost → exec (.hbmStackLost k) s = .next s) ∧
    (∀ k : Fin 4, k.val ∈ s.power.quadLost → exec (.signalQuadLost k) s = .next s) ∧
    (s.power.level = 4 → s.degrade.power.level = 5)

/-- CROWN_RESTART and CROWN_STATE_RESTORED (R535, R540): the restart raises CROWN_FAULT within 1 s of another, ends a firmware
trial, and touches no core, signal core, job, memory or collector; the restored Crown serves what waited, in order. -/
def Sys2Proof.Claims.claimCrownRestartLeavesWorkRunning : Prop :=
  ∀ (within1s : Bool) (s : State),
    (∃ t, exec (.crownRestart within1s) s = .next t ∧ t.safety.crown = .restarting ∧
      t.safety.crownFault = (s.safety.crownFault || within1s) ∧ t.safety.activeSlot = s.safety.bootDefault ∧
      t.cores = s.cores ∧ t.sigs = s.sigs ∧ t.jobs = s.jobs ∧ t.mem = s.mem ∧ t.collQ = s.collQ ∧ t.latches = s.latches ∧
      t.radio = s.radio ∧ t.time = s.time ∧ t.safety.pairs = s.safety.pairs) ∧
    (s.safety.crown = .restarting → exec .crownStateRestored s = .next (s.host.waiting.foldl State.perform
      (({ s with
        safety := { s.safety with crown := .running }
        host := { s.host with waiting := [] } }).warn 0x0169 none 0 0 0)))

/-- PWR_FAIL and its release (R536): from then on writes are refused and no job is admitted; persisted writes in progress are
abandoned; PWR_FAIL is raised and every notice so far is in the journal; cores and signal cores run on. -/
def Sys2Proof.Claims.claimPowerFailSavesJournal : Prop :=
  ∀ s : State,
    (s.power.powerFail = false → 1 ≤ s.power.level → ∃ t, exec .pwrFail s = .next t ∧ t.power.powerFail = true ∧
      t.admits = false ∧ t.host.persists = [] ∧ t.host.journalNew = [] ∧ t.dictP = s.dictP ∧
      s.host.journal ++ s.host.journalNew <+: t.host.journal ∧
      t.cores = s.cores ∧ t.sigs = s.sigs ∧ t.mem = s.mem ∧ t.jobs = s.jobs ∧ t.time = s.time) ∧
    exec .pwrFailRelease s = .next { s with power := { s.power with powerFail := false } }

/-- INSTALL_DONE, FW_HANDOVER, FW_REVERT and TRIAL_EXPIRY (R539, R540): a verified image waits in the inactive slot (status 4), a
failed one is status 3 and leaves the active slot; the handover runs the other slot, and one that raises a protocol minor
retrains every link (R457); an image that does not resume leaves the
running one; a trial that ends confirms the running slot. -/
def Sys2Proof.Claims.claimFirmwareSlots : Prop :=
  ∀ s : State,
    let ok := s.crownReads (s.od 0x7030 3) (s.od 0x7030 4) = true ∧ Config.imageVerifies (s.rd (s.od 0x7030 3) (s.od 0x7030 4)) = true
    (s.od 0x7030 2 = 2 → ¬ ok → exec .installDone s = .next (s.setOd 0x7030 2 3)) ∧
    (s.od 0x7030 2 = 2 → ok → s.power.level ≠ 6 → exec .installDone s =
      .next (({ s with safety := { s.safety with
        nextVersion := Config.imageVersion (s.rd (s.od 0x7030 3) (s.od 0x7030 4)) } }).setOd 0x7030 2 4)) ∧
    (s.safety.reqHandover = true → s.safety.crown = .running → ∃ t, exec .fwHandover s = .next t ∧
      t.safety.activeSlot = 1 - s.safety.activeSlot ∧ t.safety.bootDefault = s.safety.bootDefault ∧
      t.safety.reqHandover = false ∧ t.safety.oldVersion = s.safety.version ∧
      t.safety.minors = (if s.safety.reqRevert then s.safety.oldMinors else minorsOf s.safety.nextVersion) ∧
      (raises t.safety.minors s.safety.minors = true → ∀ l : LinkId, (s.link l).up = true → (t.link l).training = true) ∧
      (raises t.safety.minors s.safety.minors = false → t.fab = s.fab) ∧
      t.cores = s.cores ∧ t.sigs = s.sigs ∧ t.jobs = s.jobs ∧ t.mem = s.mem ∧ t.dictP = s.dictP) ∧
    (s.safety.reqHandover = true → ∃ t, exec .fwRevert s = .next t ∧ t.safety.activeSlot = s.safety.activeSlot ∧
      t.safety.reqHandover = false ∧ t.safety.version = s.safety.version ∧
      t.cores = s.cores ∧ t.sigs = s.sigs ∧ t.jobs = s.jobs ∧ t.mem = s.mem) ∧
    (s.safety.activeSlot ≠ s.safety.bootDefault → exec .trialExpiry s =
      .next (({ s with safety := { s.safety with bootDefault := s.safety.activeSlot } }).setOd 0x7030 2 0))

/-- Crown restarts, power failure and firmware slots: the claims claimCrownRestartLeavesWorkRunning, claimPowerFailSavesJournal, claimFirmwareSlots. -/
def Obligations.CrownAndPowerFail : Prop :=
  claimCrownRestartLeavesWorkRunning ∧ claimPowerFailSavesJournal ∧ claimFirmwareSlots

/-! ### Power, reset, bring-up, pins -/

/-- PORST (R549, R551, R558): the straps are sampled; everything is as at reset but the trip flag and stamp, the persisted
entries and the journal; the cause is a trip (3) or PORST# (1), and the stamp of a trip stands in 0x2300.03. PWR_GOOD_FALL
does the same with the straps as they stand. -/
def Sys2Proof.Claims.claimPorstKeepsOnlyTripAndFlash : Prop :=
  ∀ (straps : BitVec 4) (s : State),
    exec (.porst straps) s = .next (s.afterPorst straps.toNat) ∧
    exec .pwrGoodFall s = .next (s.afterPorst s.power.straps) ∧
    ∀ n : Nat,
      let t := s.afterPorst n
      t.power.straps = n ∧ t.power.level = 0 ∧ t.power.stopped = false ∧
      t.power.tripped = s.power.tripped ∧ t.power.tripTime = s.power.tripTime ∧
      t.power.cause = (if s.power.tripped then 3 else 1) ∧
      (s.power.tripped = true → swf s.dictP odDef → t.od 0x2300 3 = toTime96 s.power.tripTime) ∧
      (∀ index sub, s.power.tripped = false → t.od index sub = sget s.dictP odDef (odKey index sub)) ∧
      t.dictP = s.dictP ∧ t.host.journal = s.host.journal ∧ t.host.journalNew = [] ∧ t.host.persists = [] ∧
      t.mem = [] ∧ t.banks = [] ∧ t.cores = State.reset.cores ∧ t.sigs = State.reset.sigs ∧ t.jobs = [] ∧
      t.radio = State.reset.radio ∧ t.fr = State.reset.fr ∧ t.fab = State.reset.fab ∧ t.time = State.reset.time ∧
      t.visor = [] ∧ t.host.rings = [] ∧ t.safety.retired = [] ∧ t.safety.crownFault = false ∧
      t.safety.activeSlot = s.safety.bootDefault

/-- R460, whole: PORST# zeroes the timebase and puts TB_INC to its default; WARMRST# and PERST# leave both and the counting. -/
def Obligations.TimebaseOverResets : Prop :=
  ∀ (straps : BitVec 4) (s : State),
    (∃ t, exec (.porst straps) s = .next t ∧ t.time.now = 0 ∧ t.time.inc = 0x140000000) ∧
    (∃ t, exec .warmrst s = .next t ∧ t.time.now = s.time.now ∧ t.time.inc = s.time.inc ∧
      t.power.stopped = s.power.stopped) ∧
    (∃ t, exec .perst s = .next t ∧ t.time.now = s.time.now ∧ t.time.inc = s.time.inc ∧
      t.power.stopped = s.power.stopped)

/-- WARMRST (R549, R550) from CROWN on: jobs, cores, signal cores, links, rings and row entries are as at reset, the level is
CROWN, the cause 2; the timebase, HBM's bytes, the persisted entries, the straps and the journal are kept. -/
def Sys2Proof.Claims.claimWarmrstKeepsTimeHbmAndFlash : Prop :=
  ∀ s : State, s.power.stopped = false → 1 ≤ s.power.level → s.power.level ≤ 5 →
    ∃ t, exec .warmrst s = .next t ∧ t.power.level = 1 ∧ t.power.cause = 2 ∧ t.power.straps = s.power.straps ∧
      t.dictP = s.dictP ∧ t.host.journal = s.host.journal ∧ t.time.now = s.time.now ∧ t.time.inc = s.time.inc ∧
      t.jobs = [] ∧ t.cores = State.reset.cores ∧ t.sigs = State.reset.sigs ∧ t.fab = State.reset.fab ∧
      t.radio = State.reset.radio ∧ t.host.rings = [] ∧ t.host.persists = [] ∧ t.dmas = [] ∧
      (∀ index sub, keptOnWarm (odKey index sub) = false → t.od index sub = sget s.dictP odDef (odKey index sub)) ∧
      (∀ a, a < 96 * 2 ^ 30 → t.byte a = s.byte a) ∧
      (∀ a, 96 * 2 ^ 30 ≤ a → t.byte a = 0#8)

/-- What PORST# and WARMRST# keep and clear: the claims claimPorstKeepsOnlyTripAndFlash, claimWarmrstKeepsTimeHbmAndFlash. -/
def Obligations.PorstAndWarmrst : Prop :=
  claimPorstKeepsOnlyTripAndFlash ∧ claimWarmrstKeepsTimeHbmAndFlash

/-- BOOT_VERIFY (R553): with BOOT 0b10 the device enters RECOVERY; else the ROM verifies the default slot, then the other one,
then enters RECOVERY. Which slot verifies is the flash's: a free value (log 102). -/
def Sys2Proof.Claims.claimBootVerifyOutcomes : Prop :=
  ∀ s : State, s.power.level = 0 → s.power.verified = false → s.power.stopped = false →
    (s.power.straps % 4 = 2 →
      exec .bootVerify s = .next (({ s with host := { s.host with pcieUp := true } }).setLevel 6)) ∧
    (s.power.straps % 4 ≠ 2 → ∃ t, exec .bootVerify s = .next t ∧
      ((t.power.level = 0 ∧ t.power.verified = true ∧ t.power.otherSlot = s.power.otherSlot ∧
          t.safety.activeSlot = s.safety.activeSlot) ∨
       (t.power.level = 0 ∧ t.power.verified = true ∧ t.power.otherSlot = true ∧
          t.safety.activeSlot = 1 - s.safety.activeSlot) ∨
       (t.power.level = 6 ∧ t.power.verified = false)))

/-- SERVICE_LEVEL (R552 to R555, R558): each level follows the one before it; REDUCED only with REDUCED_EN. A canton's first
start makes position 8 its ready spare (the model's choice: log 151). At CROWN a trip's notice is raised and its flag cleared, and a failed slot and a held strap are told. -/
def Sys2Proof.Claims.claimServiceLevelsInOrder : Prop :=
  ∀ (ok : Bool) (s : State), s.power.stopped = false →
    let s1 := if ok then s else { s with power := { s.power with lostDomain := true } }
    (s.power.level = 0 → s.power.verified = true → exec (.serviceLevel ok) s =
      .next (({ s with host := { s.host with pcieUp := true } }).setLevel 1).crownUp) ∧
    (s.power.level = 1 → bit s.power.straps 3 = true →
      exec (.serviceLevel ok) s = .next ((s1.setLevel 2).cantonStart 0).fitAll.startClocks) ∧
    (s.power.level = 1 → bit s.power.straps 3 = false →
      exec (.serviceLevel ok) s = .next ((s1.setLevel 3).cantonStart 0).fitAll.startClocks) ∧
    (s.power.level = 2 → exec (.serviceLevel ok) s = .next (s1.setLevel 3).fitAll) ∧
    (s.power.level = 3 → s1.power.lostDomain = false →
      exec (.serviceLevel ok) s = .next (s1.setLevel 4).cantonsStart.fitAll.startClocks) ∧
    (s.power.level = 3 → s1.power.lostDomain = true →
      exec (.serviceLevel ok) s = .next (s1.setLevel 5).cantonsStart.fitAll.startClocks) ∧
    (s.power.level = 5 → ok = true →
      exec (.serviceLevel ok) s = .next (s.domainsBack.setLevel 4).fitAll.startClocks) ∧
    (∀ (x : State) (c : Nat), c < 8 → x.safety.spare.length = 8 → x.safety.railOk.length = 8 →
      x.safety.spareSt.length = 8 → x.safety.railOk.getD c false = false → x.safety.spare.getD c none = none →
      (∀ p ∈ x.safety.retired, p / 9 ≠ c) →
      (x.cantonStart c).safety.railOk.getD c false = true ∧ (x.cantonStart c).safety.spareSt.getD c .none = .ready ∧
      (x.cantonStart c).safety.spare.getD c none = some 8) ∧
    (∀ x : State, x.crownUp.power.tripped = false) ∧
    (∀ (x : State) (v : Nat), (x.setLevel v).power.level = v ∧ (x.setLevel v).mem = x.mem ∧ (x.setLevel v).cores = x.cores)

/-- Boot verification and the service levels in order: the claims claimBootVerifyOutcomes, claimServiceLevelsInOrder. -/
def Obligations.BootAndServiceLevels : Prop :=
  claimBootVerifyOutcomes ∧ claimServiceLevelsInOrder

/-- GOVERNOR_TICK in full service (R20, R547): above 340 W no core of partitions 1 to 15 is left with a limit above 800 MHz; no
limit falls below 800 MHz or rises above 1,600 MHz where it stood between them; only limits, the count of calm ticks, the
stored package power and what TIMING_BREAK tells may change. -/
def Sys2Proof.Claims.claimGovernorKeepsPackageLimit : Prop :=
  ∀ (p1 p2 : Nat) (cs : List Nat) (s : State), (s.power.level = 4 ∨ s.power.level = 5) → s.power.stopped = false →
    swf s.dict odDef →
    ∃ t, exec (.governorTick p1 p2 cs) s = .next t ∧
      (340000 < p1 → ∀ p k, p < 72 → s.coreOwner p = some k → k ≠ 0 → nth t.power.limit p ≤ 800) ∧
      ((∀ p, p < 72 → 800 ≤ nth s.power.limit p ∧ nth s.power.limit p ≤ 1600) →
        ∀ p, p < 72 → 800 ≤ nth t.power.limit p ∧ nth t.power.limit p ≤ 1600) ∧
      t.od 0x2100 10 = p2 / 1000 % 65536 ∧
      t.power.freq = s.power.freq ∧ t.mem = s.mem ∧ t.cores = s.cores ∧ t.sigs = s.sigs ∧ t.jobs = s.jobs ∧
      t.banks = s.banks ∧ t.fab = s.fab ∧ t.time = s.time ∧ t.safety = s.safety

/-- FREQUENCY_CHANGE (R546): a core in service without a task, or at a tile boundary, takes the lower of its partition's target
and the governor's limit (full service); one in the middle of a tile keeps its frequency and is needed at its boundary. -/
def Sys2Proof.Claims.claimFrequencyChangesAtBoundary : Prop :=
  ∀ (p : CoreId) (s : State), s.power.stopped = false → s.inService p.val = true →
    (s.power.level = 4 ∨ s.power.level = 5) → s.power.freq.length = 72 →
    let f := min (s.targetOf p.val) (nth s.power.limit p.val)
    nth s.power.freq p.val ≠ f →
    ((s.core p).job = none ∨ (((s.core p).mode = .boundary ∨ (s.core p).mode = .halted) ∧ (s.core p).tileEnds = []) →
      ∃ t, exec (.frequencyChange p) s = .next t ∧ nth t.power.freq p.val = f ∧
        (∀ q, q < 72 → q ≠ p.val → nth t.power.freq q = nth s.power.freq q) ∧
        Need.frequency ∉ (t.core p).needs ∧ t.mem = s.mem ∧ t.jobs = s.jobs ∧ t.host = s.host) ∧
    ((s.core p).job ≠ none → (s.core p).mode = .running →
      ∃ t, exec (.frequencyChange p) s = .next t ∧ t.power = s.power ∧ Need.frequency ∈ (t.core p).needs ∧
        t.mem = s.mem ∧ t.jobs = s.jobs ∧ t.host = s.host)

/-- The governor keeps the package limit; frequencies change at boundaries: the claims claimGovernorKeepsPackageLimit, claimFrequencyChangesAtBoundary. -/
def Obligations.GovernorAndFrequency : Prop :=
  claimGovernorKeepsPackageLimit ∧ claimFrequencyChangesAtBoundary

/-- POWER_CAP (R547): where a limit holds a core of partition k below its target, the WARN notice POWER_CAP is raised for k. -/
def Sys2Proof.Claims.claimPowerCapWarns : Prop :=
  ∀ (k : PartId) (s : State),
    (∃ p, p < 72 ∧ s.coreOwner p = some k.val ∧ nth s.power.limit p < s.targetOf p) →
    exec (.powerCap k) s = .next (s.warn 0x0173 (some k.val) 0 0 k.val)

/-- THERMAL_READ and THERMAL_THROTTLE_STEP (R556, R557): the hottest reading is stored; above the threshold THERMAL_HIGH is
raised once; each throttle step lowers the hot canton's cap; 5 degrees below the threshold every cap is restored and
THERMAL_OK is raised; between the two nothing but the reading changes. -/
def Sys2Proof.Claims.claimThermalThrottleAndRestore : Prop :=
  ∀ (l : List Int) (s : State), s.power.stopped = false →
    let r := hottest l
    let c := hottestCanton l
    let s1 := s.setOd 0x2300 2 (enc 16 r)
    (s.threshold < r → s.power.throttled = false → exec (.thermalRead l) s =
      .next (({ s1 with power := { s1.power with throttled := true, hotCanton := c } }).warn 0x0170 none 0 0 (thermalPayload c r))) ∧
    (s.threshold < r → s.power.throttled = true → exec (.thermalRead l) s =
      .next { s1 with power := { s1.power with throttled := true, hotCanton := c } }) ∧
    (r ≤ s.threshold → (s.power.throttled = false ∨ s.threshold - 40 < r) → exec (.thermalRead l) s = .next s1) ∧
    (r ≤ s.threshold - 40 → s.power.throttled = true → exec (.thermalRead l) s =
      .next (({ s1 with power := { s1.power with throttled := false, capSteps := List.replicate 8 0 } }).info 0x0171 none 0 0
        (thermalPayload c r))) ∧
    (s.power.throttled = true → s.threshold < sext 16 (s.od 0x2300 2) → exec .thermalThrottleStep s =
      .next { s with power := { s.power with
        capSteps := s.power.capSteps.set s.power.hotCanton (nth s.power.capSteps s.power.hotCanton + 1) } })

/-- THERMAL_TRIP (R558, R568): flag and stamp are set, FR_TXEN falls, FAULT# is low, the clocks stop, so that no command of a
stream is decoded, no signal core issues and the timebase stands. -/
def Sys2Proof.Claims.claimThermalTripStopsClocks : Prop :=
  ∀ s : State, s.power.stopped = false →
    ∃ t, exec .thermalTrip s = .next t ∧
      t = { s with
        power := { s.power with tripped := true, tripTime := s.time.now, stopped := true }
        fr := { s.fr with txEn := false } } ∧
      t.faultPin = true ∧
      (∀ p : CoreId, t.nextCmd p = none) ∧
      exec .timebaseTick t = .next t ∧
      (∀ (g : SigId) (mine : Nat → Bool) (k : State → Nat → SigR), t.issue g mine k = t)

/-- FAULT# (R568, whole): low exactly while the trip flag is set, CROWN_FAULT has been raised since PORST#, or the level is
RECOVERY. -/
def Sys2Proof.Claims.claimFaultPinConditions : Prop :=
  ∀ s : State, s.faultPin = true ↔ (s.power.tripped = true ∨ s.safety.crownFault = true ∨ s.power.level = 6)

/-- Power cap, thermal throttling and thermal trip: the claims claimPowerCapWarns, claimThermalThrottleAndRestore, claimThermalTripStopsClocks, claimFaultPinConditions. -/
def Obligations.PowerAndThermalWarnings : Prop :=
  claimPowerCapWarns ∧ claimThermalThrottleAndRestore ∧ claimThermalTripStopsClocks ∧ claimFaultPinConditions

/-- HBM_REFRESH (R286, R288 to R290): no partition with REFRESH_ALIGN on the stack: refreshed, nothing owed. One whose cores
are in the middle of tiles: postponed and counted, up to 8, and its cores are needed at their boundaries; then TIMING_BREAK for
a pinned one, whose cores' limits change to frequencies the spec does not give (log 152). At a boundary of every core: the
postponed are issued and no core is held for them. -/
def Sys2Proof.Claims.claimHbmRefreshPostponed : Prop :=
  ∀ (st : Fin 4) (s : State), s.power.refreshOwed.length = 4 →
    let aligned := fun k => s.refreshAlign k = true ∧ ∃ g ∈ s.segsOf k, sget s.segStack zeroD g = st.val + 1
    let owed := nth s.power.refreshOwed st.val
    ((∀ k, k < 16 → ¬ aligned k) → ∃ t, exec (.hbmRefresh st) s = .next t ∧ nth t.power.refreshOwed st.val = 0) ∧
    (∀ k, k < 16 → aligned k → (∀ j, j < k → ¬ aligned j) →
      (s.allAtBoundary k = true → ∃ t, exec (.hbmRefresh st) s = .next t ∧ nth t.power.refreshOwed st.val = 0 ∧
        t.host = s.host ∧
        (∀ p : CoreId, s.coreOwner p.val = some k → (s.core p).job ≠ none → Need.refresh ∉ (t.core p).needs)) ∧
      (s.allAtBoundary k = false → owed < 8 →
        ∃ t, exec (.hbmRefresh st) s = .next t ∧ nth t.power.refreshOwed st.val = owed + 1 ∧ t.host = s.host ∧
          t.mem = s.mem ∧
          (∀ p : CoreId, s.coreOwner p.val = some k → (s.core p).job ≠ none → Need.refresh ∈ (t.core p).needs)) ∧
      (s.allAtBoundary k = false → 8 ≤ owed → s.pinned k = true → ∃ u : State,
        exec (.hbmRefresh st) s = .next ((u.countDev 0x002 (some k)).warn 0x0107 (some k) 0 0 0) ∧
        u = { s with free := s.free + 1, power := { s.power with limit := u.power.limit } } ∧
        (∀ p, p < 72 → s.coreOwner p = some k → 800 ≤ nth u.power.limit p ∧ nth u.power.limit p ≤ 1600) ∧
        (∀ p, p < 72 → s.coreOwner p ≠ some k → nth u.power.limit p = nth s.power.limit p)) ∧
      (s.allAtBoundary k = false → 8 ≤ owed → s.pinned k = false → exec (.hbmRefresh st) s = .next s))

/-- TAP (R569): TDO is driven only in the two shift states; five TMS ones reach Test-Logic-Reset from anywhere; IDCODE carries
0x7200 in bits [27:12]; only the TAP and the free-value counter change. -/
def Sys2Proof.Claims.claimTapShiftsAndDrives : Prop :=
  (∀ (tms tdi : Bool) (s : State), ∃ t, exec (.tap tms tdi) s = .next t ∧
    t.tap.st = s.tap.st.next tms ∧
    (t.tap.tdo.isSome ↔ (t.tap.st = .shDr ∨ t.tap.st = .shIr)) ∧
    (t.tap.st = .reset → t.tap.ir = .idcode) ∧
    (s.tap.st = .capDr → s.tap.ir = .idcode → t.tap.dr = idcode) ∧
    (s.tap.st = .capDr → s.tap.ir = .bypass → t.tap.dr = 0) ∧
    (s.tap.st = .shDr → t.tap.dr = shiftIn s.tap.ir.length s.tap.dr tdi) ∧
    { t with tap := s.tap, free := s.free } = s) ∧
  (∀ x : TapSt, ((((x.next true).next true).next true).next true).next true = .reset) ∧
  idcode / 2 ^ 12 % 2 ^ 16 = 0x7200

/-- HBM refresh is postponed; the test access port shifts and drives: the claims claimHbmRefreshPostponed, claimTapShiftsAndDrives. -/
def Obligations.HbmRefreshAndTap : Prop :=
  claimHbmRefreshPostponed ∧ claimTapShiftsAndDrives

/-- RAIL_FAULT (R559), and the notices of a checker that does not fire (R532), each with its payload. -/
def Sys2Proof.Claims.claimRailAndCheckerFaultsTold : Prop :=
  (∀ (r : Fin 19) (status : BitVec 16) (s : State),
    exec (.railFault r status) s = .next (s.faultNotice 0x0174 none 0xB r.val (r.val * 2 ^ 16 + status.toNat))) ∧
  (∀ (row : Fin 6) (unit : Nat) (s : State), exec (.checkerTest row unit true) s = .next s) ∧
  (∀ (row : Fin 6) (unit : Nat) (s : State), exec (.checkerTest row unit false) s =
    .next ((s.faultNotice 0x0168 none 0 0 ((row.val + 1) * 2 ^ 16 + unit % 2 ^ 16)).guardedLost row.val unit)) ∧
  (∀ (s : State) (unit : Nat), s.guardedLost 3 unit = s ∧ s.guardedLost 4 unit = s ∧ s.guardedLost 5 unit = s)

/-- The Gauntlet, self-tests, lost domains and faults told: the claims claimGauntletRotatesAtBoundaries, claimSelfTestPassesOrRetires, claimDomainsLostOnce, claimRailAndCheckerFaultsTold. -/
def Obligations.GauntletAndDomains : Prop :=
  claimGauntletRotatesAtBoundaries ∧ claimSelfTestPassesOrRetires ∧ claimDomainsLostOnce ∧ claimRailAndCheckerFaultsTold

/-- x over 2^(e - 6), rounded half up (R33). -/
def Sys2Proof.Claims.s1Rounded (e : Nat) (x : Int) : Int := (128 * x + 2 ^ e) / 2 ^ (e + 1)

/-- Whether x fits I8 with the S8 code of 2^(e - 6). -/
def Sys2Proof.Claims.s1Fits (e : Nat) (x : Int) : Prop := -128 ≤ s1Rounded e x ∧ s1Rounded e x ≤ 127

/-- R369: an all-zero block of S1's output takes S8 0x00; another one the smallest power of two at which every element fits I8
after rounding, code 8 (e + 1) for 2^(e - 6), and each element's code is its rounded quotient. Where no power of two fits the
code is free (log 154) and nothing is said of it here. -/
def Sys2Proof.Claims.claimStageOneBlocks : Prop :=
  ∀ (f : Nat) (l : List Int),
    ((∀ x ∈ l, x = 0) → s1Block f l = (0, l.map (fun _ => 0))) ∧
    (∀ e < 15, (∃ x ∈ l, x ≠ 0) → (∀ x ∈ l, s1Fits e x) → (∀ d < e, ∃ x ∈ l, ¬ s1Fits d x) →
      s1Block f l = (8 * (e + 1), l.map (fun x => enc 8 (s1Rounded e x))))

/-- R370: S1's outputs of a slot are formed once, one for each of its 14 symbols, and stay until the slot's data are dropped,
which happens when its S6 completes or it is reported failed; the other slots' outputs then stay. -/
def Sys2Proof.Claims.claimStageOneKept : Prop :=
  ∀ (s : State) (c : CellId) (f : Int) (j : Nat),
    let own := fun e : S1Out => e.cell = c.val ∧ e.frame = f ∧ e.slot = j
    ((∀ e ∈ s.radio.s1out, ¬ own e) → ∃ l : List S1Out,
      (s.closeS1 c f j).radio.s1out = s.radio.s1out ++ l ∧ l.map (·.symbol) = List.range 14 ∧ ∀ e ∈ l, own e) ∧
    ((∃ e ∈ s.radio.s1out, own e) → s.closeS1 c f j = s) ∧
    (∀ e, e ∈ (s.dropSlotData c f j).radio.s1out ↔ e ∈ s.radio.s1out ∧ ¬ own e)

/-- R381 to R383: an empty frame changes nothing; a frame with the stream's last digest lengthens its run, and the run's FR_N-th
frame makes the stream frozen, with WARN FROZEN naming the job and one more in 0x5020.02; a frame with another digest begins a
run of one and ends a freeze with INFO FROZEN_CLEAR. The other streams are untouched. -/
def Sys2Proof.Claims.claimFrameStreamsFreeze : Prop :=
  ∀ (s : State) (h d : Nat),
    let x := s.frameStream h
    let part := (s.jobOf h).map (·.part)
    let t := s.compareFrame h d true
    s.compareFrame h d false = s ∧
    (x.prev = some d → (t.frameStream h).run = x.run + 1 ∧ (t.frameStream h).prev = some d ∧
      ((t.frameStream h).frozen = true ↔ x.frozen = true ∨ x.run + 1 = s.od 0x5020 1)) ∧
    (x.prev ≠ some d → (t.frameStream h).run = 1 ∧ (t.frameStream h).prev = some d ∧ (t.frameStream h).frozen = false) ∧
    (x.prev = some d → x.frozen = false → x.run + 1 = s.od 0x5020 1 → swf s.dict odDef → ∃ y : State,
      t = y.warn 0x0114 part 4 (part.getD 0) h ∧ y.od 0x5020 2 = (s.od 0x5020 2 + 1) % 2 ^ 32 ∧ y.host = s.host) ∧
    (x.prev ≠ some d → x.frozen = true → ∃ y : State,
      t = y.info 0x0115 part 4 (part.getD 0) h ∧ y.host = s.host ∧ y.dict = s.dict) ∧
    (x.prev = some d → (x.frozen = true ∨ x.run + 1 ≠ s.od 0x5020 1) → t.host = s.host ∧ t.dict = s.dict) ∧
    (∀ k, k ≠ h → t.frameStream k = s.frameStream k)

/-- S1's kept outputs and the frame streams' detector: the claims claimStageOneBlocks, claimStageOneKept, claimFrameStreamsFreeze. -/
def Obligations.StageOutputsAndFrameStreams : Prop :=
  claimStageOneBlocks ∧ claimStageOneKept ∧ claimFrameStreamsFreeze
end

