-- ==== Sys2Proof/Laws/SMap.lean ====
section
/-! SUPPORT. Laws of sparse maps: every operation keeps the canonical form, a key reads what was last put there, and two
canonical maps that read alike are equal. -/

namespace Sys2Proof.Machine

variable {α : Type}

@[simp] theorem sget_nil (d : Nat → α) (k : Nat) : sget [] d k = d k := rfl

theorem swf_nil (d : Nat → α) : swf [] d := by simp [swf]

/-- A key below every listed key reads as the default. -/
theorem sget_below {m : SMap α} {d : Nat → α} {k : Nat} (h : ∀ e ∈ m, k < e.1) : sget m d k = d k := by
  induction m with
  | nil => rfl
  | cons e t ih =>
    obtain ⟨k', v'⟩ := e
    have h1 : k < k' := h (k', v') (by simp)
    simp only [sget, if_neg (Nat.ne_of_gt h1)]
    exact ih fun e he => h e (by simp [he])

/-- A listed entry of a map with rising keys is what its key reads as. -/
theorem sget_of_mem {m : SMap α} {d : Nat → α} (hm : m.Pairwise (fun a b => a.1 < b.1)) {e : Nat × α} (he : e ∈ m) :
    sget m d e.1 = e.2 := by
  induction m with
  | nil => simp at he
  | cons x t ih =>
    obtain ⟨k', v'⟩ := x
    rw [List.pairwise_cons] at hm
    rcases List.mem_cons.1 he with rfl | h
    · simp [sget]
    · have := hm.1 e h
      simp only [sget, if_neg (Nat.ne_of_lt this)]
      exact ih hm.2 h

section
variable [DecidableEq α]

/-- The keys a put can list: the old ones and its own. -/
theorem mem_sput {m : SMap α} {d : Nat → α} {k : Nat} {v : α} {e : Nat × α} (h : e ∈ sput m d k v) :
    e = (k, v) ∧ v ≠ d k ∨ e ∈ m := by
  induction m with
  | nil =>
    simp only [sput] at h
    split at h <;> simp_all
  | cons x t ih =>
    obtain ⟨k', v'⟩ := x
    simp only [sput] at h
    split at h
    · split at h <;> simp_all
    · split at h
      · split at h <;> simp_all; tauto
      · rcases List.mem_cons.1 h with rfl | h
        · simp
        · rcases ih h with h | h <;> simp [h]

/-- A put keeps the canonical form. -/
theorem sput_wf {m : SMap α} {d : Nat → α} (hm : swf m d) (k : Nat) (v : α) : swf (sput m d k v) d := by
  refine ⟨?_, fun e he => ?_⟩
  · induction m with
    | nil => simp only [sput]; split <;> simp
    | cons x t ih =>
      obtain ⟨k', v'⟩ := x
      have h := List.pairwise_cons.1 hm.1
      have ht : swf t d := ⟨h.2, fun e he => hm.2 e (by simp [he])⟩
      simp only [sput]
      split
      · next hk =>
        split
        · exact hm.1
        · refine List.pairwise_cons.2 ⟨fun e he => ?_, hm.1⟩
          rcases List.mem_cons.1 he with rfl | he
          · exact hk
          · exact hk.trans (h.1 e he)
      · split
        · next hk =>
          subst hk
          split
          · exact h.2
          · exact List.pairwise_cons.2 ⟨h.1, h.2⟩
        · next h1 h2 =>
          refine List.pairwise_cons.2 ⟨fun e he => ?_, ih ht⟩
          rcases mem_sput he with ⟨rfl, _⟩ | he
          · exact lt_of_le_of_ne (not_lt.1 h1) (Ne.symm h2)
          · exact h.1 e he
  · rcases mem_sput he with ⟨rfl, h⟩ | h
    · exact h
    · exact hm.2 e h

/-- The key put reads the value put. -/
theorem sget_sput_same {m : SMap α} {d : Nat → α} (hm : m.Pairwise (fun a b => a.1 < b.1)) (k : Nat) (v : α) :
    sget (sput m d k v) d k = v := by
  induction m with
  | nil => simp only [sput]; split <;> simp_all [sget]
  | cons x t ih =>
    obtain ⟨k', v'⟩ := x
    have h := List.pairwise_cons.1 hm
    simp only [sput]
    split
    · next hk =>
      split
      · next hv =>
        rw [hv]
        exact sget_below fun e he => by
          rcases List.mem_cons.1 he with rfl | he
          · exact hk
          · exact hk.trans (h.1 e he)
      · simp [sget]
    · split
      · next hk =>
        subst hk
        split
        · next hv => rw [hv]; exact sget_below h.1
        · simp [sget]
      · next h1 h2 => simp only [sget, if_neg (Ne.symm h2)]; exact ih h.2

/-- Any other key reads as before. -/
theorem sget_sput_other {m : SMap α} {d : Nat → α} {k j : Nat} (v : α) (hj : j ≠ k) :
    sget (sput m d k v) d j = sget m d j := by
  induction m with
  | nil => simp only [sput]; split <;> simp [sget, Ne.symm hj]
  | cons x t ih =>
    obtain ⟨k', v'⟩ := x
    simp only [sput]
    split
    · split
      · rfl
      · simp [sget, Ne.symm hj]
    · split
      · next hk =>
        subst hk
        split <;> simp [sget, Ne.symm hj]
      · simp only [sget]
        split
        · rfl
        · exact ih

/-- A put read back at any key. -/
theorem sget_sput {m : SMap α} {d : Nat → α} (hm : m.Pairwise (fun a b => a.1 < b.1)) (k : Nat) (v : α) (j : Nat) :
    sget (sput m d k v) d j = if j = k then v else sget m d j := by
  split
  · next h => subst h; exact sget_sput_same hm j v
  · next h => exact sget_sput_other v h

end

/-- Clearing keeps the canonical form. -/
theorem sclear_wf {m : SMap α} {d : Nat → α} (hm : swf m d) (f : Nat → Bool) : swf (sclear m f) d :=
  ⟨hm.1.filter _, fun e he => hm.2 e (List.mem_filter.1 he).1⟩

/-- A cleared key reads as the default, any other as before. -/
theorem sget_sclear (m : SMap α) (d : Nat → α) (f : Nat → Bool) (k : Nat) :
    sget (sclear m f) d k = if f k then d k else sget m d k := by
  induction m with
  | nil => simp [sclear]
  | cons x t ih =>
    obtain ⟨k', v'⟩ := x
    simp only [sclear] at ih ⊢
    by_cases hk : k' = k
    · subst hk
      by_cases hf : f k' <;> simp_all [sget]
    · by_cases hf : f k' <;> simp_all [sget]

/-- Canonical maps that read alike are equal. -/
theorem swf_ext {m n : SMap α} {d : Nat → α} (hm : swf m d) (hn : swf n d) (h : ∀ k, sget m d k = sget n d k) : m = n := by
  induction m generalizing n with
  | nil =>
    cases n with
    | nil => rfl
    | cons e t =>
      have := sget_of_mem (d := d) hn.1 (List.mem_cons_self (a := e) (l := t))
      rw [← h] at this
      exact absurd this.symm (hn.2 e (by simp))
  | cons x t ih =>
    have hx := sget_of_mem (d := d) hm.1 (List.mem_cons_self (a := x) (l := t))
    cases n with
    | nil =>
      rw [h] at hx
      exact absurd hx.symm (hm.2 x (by simp))
    | cons y u =>
      have hy := sget_of_mem (d := d) hn.1 (List.mem_cons_self (a := y) (l := u))
      have pm := List.pairwise_cons.1 hm.1
      have pn := List.pairwise_cons.1 hn.1
      have hkey : x.1 = y.1 := by
        rcases Nat.lt_trichotomy x.1 y.1 with hl | he | hl
        · have : sget (y :: u) d x.1 = d x.1 := sget_below fun e he => by
            rcases List.mem_cons.1 he with rfl | he
            · exact hl
            · exact hl.trans (pn.1 e he)
          rw [h, this] at hx
          exact absurd hx.symm (hm.2 x (by simp))
        · exact he
        · have : sget (x :: t) d y.1 = d y.1 := sget_below fun e he => by
            rcases List.mem_cons.1 he with rfl | he
            · exact hl
            · exact hl.trans (pm.1 e he)
          rw [← h, this] at hy
          exact absurd hy.symm (hn.2 y (by simp))
      have hxy : x = y := by
        refine Prod.ext hkey ?_
        rw [← hx, ← hy, hkey, h]
      subst hxy
      have htu : t = u := by
        refine ih ⟨pm.2, fun e he => hm.2 e (by simp [he])⟩ ⟨pn.2, fun e he => hn.2 e (by simp [he])⟩ fun k => ?_
        by_cases hk : x.1 = k
        · rw [← hk, sget_below pm.1, sget_below pn.1]
        · have := h k
          obtain ⟨a, b⟩ := x
          simpa [sget, hk] using this
      rw [htu]

end Sys2Proof.Machine
end

