-- ==== Sys2Proof/Laws/State.lean ====
section
/-! SUPPORT. What each update of the state leaves as it was and what it sets, one lemma per field. -/

namespace Sys2Proof.Machine

/-! setCore -/

@[simp] theorem State.setCore_pending (s : State) (p : CoreId) (c : Core) : (s.setCore p c).pending = s.pending := rfl
@[simp] theorem State.setCore_out (s : State) (p : CoreId) (c : Core) : (s.setCore p c).out = s.out := rfl
@[simp] theorem State.setCore_free (s : State) (p : CoreId) (c : Core) : (s.setCore p c).free = s.free := rfl
@[simp] theorem State.setCore_mem (s : State) (p : CoreId) (c : Core) : (s.setCore p c).mem = s.mem := rfl
@[simp] theorem State.setCore_ecc (s : State) (p : CoreId) (c : Core) : (s.setCore p c).ecc = s.ecc := rfl
@[simp] theorem State.setCore_writeBack (s : State) (p : CoreId) (c : Core) : (s.setCore p c).writeBack = s.writeBack := rfl
@[simp] theorem State.setCore_banks (s : State) (p : CoreId) (c : Core) : (s.setCore p c).banks = s.banks := rfl
@[simp] theorem State.setCore_lost (s : State) (p : CoreId) (c : Core) : (s.setCore p c).lost = s.lost := rfl
@[simp] theorem State.setCore_dmaLast (s : State) (p : CoreId) (c : Core) : (s.setCore p c).dmaLast = s.dmaLast := rfl
@[simp] theorem State.setCore_stalled (s : State) (p : CoreId) (c : Core) : (s.setCore p c).stalled = s.stalled := rfl
@[simp] theorem State.setCore_cores (s : State) (p : CoreId) (c : Core) : (s.setCore p c).cores = s.cores.set p.val c := rfl
@[simp] theorem State.setCore_sems (s : State) (p : CoreId) (c : Core) : (s.setCore p c).sems = s.sems := rfl
@[simp] theorem State.setCore_semOwner (s : State) (p : CoreId) (c : Core) : (s.setCore p c).semOwner = s.semOwner := rfl
@[simp] theorem State.setCore_waiters (s : State) (p : CoreId) (c : Core) : (s.setCore p c).waiters = s.waiters := rfl
@[simp] theorem State.setCore_ticket (s : State) (p : CoreId) (c : Core) : (s.setCore p c).ticket = s.ticket := rfl
@[simp] theorem State.setCore_dmas (s : State) (p : CoreId) (c : Core) : (s.setCore p c).dmas = s.dmas := rfl
@[simp] theorem State.setCore_roleGen (s : State) (p : CoreId) (c : Core) : (s.setCore p c).roleGen = s.roleGen := rfl
@[simp] theorem State.setCore_dict (s : State) (p : CoreId) (c : Core) : (s.setCore p c).dict = s.dict := rfl
@[simp] theorem State.setCore_dictP (s : State) (p : CoreId) (c : Core) : (s.setCore p c).dictP = s.dictP := rfl
@[simp] theorem State.setCore_logical (s : State) (p : CoreId) (c : Core) : (s.setCore p c).logical = s.logical := rfl
@[simp] theorem State.setCore_segOwner (s : State) (p : CoreId) (c : Core) : (s.setCore p c).segOwner = s.segOwner := rfl
@[simp] theorem State.setCore_segStack (s : State) (p : CoreId) (c : Core) : (s.setCore p c).segStack = s.segStack := rfl
@[simp] theorem State.setCore_bankOwner (s : State) (p : CoreId) (c : Core) : (s.setCore p c).bankOwner = s.bankOwner := rfl
@[simp] theorem State.setCore_jobs (s : State) (p : CoreId) (c : Core) : (s.setCore p c).jobs = s.jobs := rfl
@[simp] theorem State.setCore_loans (s : State) (p : CoreId) (c : Core) : (s.setCore p c).loans = s.loans := rfl
@[simp] theorem State.setCore_latches (s : State) (p : CoreId) (c : Core) : (s.setCore p c).latches = s.latches := rfl
@[simp] theorem State.setCore_latchHeld (s : State) (p : CoreId) (c : Core) : (s.setCore p c).latchHeld = s.latchHeld := rfl
@[simp] theorem State.setCore_collQ (s : State) (p : CoreId) (c : Core) : (s.setCore p c).collQ = s.collQ := rfl
@[simp] theorem State.setCore_collCycle (s : State) (p : CoreId) (c : Core) : (s.setCore p c).collCycle = s.collCycle := rfl
@[simp] theorem State.setCore_sigs (s : State) (p : CoreId) (c : Core) : (s.setCore p c).sigs = s.sigs := rfl
@[simp] theorem State.setCore_radio (s : State) (p : CoreId) (c : Core) : (s.setCore p c).radio = s.radio := rfl
@[simp] theorem State.setCore_fr (s : State) (p : CoreId) (c : Core) : (s.setCore p c).fr = s.fr := rfl
@[simp] theorem State.setCore_fab (s : State) (p : CoreId) (c : Core) : (s.setCore p c).fab = s.fab := rfl
@[simp] theorem State.setCore_time (s : State) (p : CoreId) (c : Core) : (s.setCore p c).time = s.time := rfl
@[simp] theorem State.setCore_host (s : State) (p : CoreId) (c : Core) : (s.setCore p c).host = s.host := rfl
@[simp] theorem State.setCore_visor (s : State) (p : CoreId) (c : Core) : (s.setCore p c).visor = s.visor := rfl
@[simp] theorem State.setCore_safety (s : State) (p : CoreId) (c : Core) : (s.setCore p c).safety = s.safety := rfl
@[simp] theorem State.setCore_power (s : State) (p : CoreId) (c : Core) : (s.setCore p c).power = s.power := rfl
@[simp] theorem State.setCore_tap (s : State) (p : CoreId) (c : Core) : (s.setCore p c).tap = s.tap := rfl

/-! setSig -/

@[simp] theorem State.setSig_pending (s : State) (g : SigId) (c : Sig) : (s.setSig g c).pending = s.pending := rfl
@[simp] theorem State.setSig_out (s : State) (g : SigId) (c : Sig) : (s.setSig g c).out = s.out := rfl
@[simp] theorem State.setSig_free (s : State) (g : SigId) (c : Sig) : (s.setSig g c).free = s.free := rfl
@[simp] theorem State.setSig_mem (s : State) (g : SigId) (c : Sig) : (s.setSig g c).mem = s.mem := rfl
@[simp] theorem State.setSig_ecc (s : State) (g : SigId) (c : Sig) : (s.setSig g c).ecc = s.ecc := rfl
@[simp] theorem State.setSig_writeBack (s : State) (g : SigId) (c : Sig) : (s.setSig g c).writeBack = s.writeBack := rfl
@[simp] theorem State.setSig_banks (s : State) (g : SigId) (c : Sig) : (s.setSig g c).banks = s.banks := rfl
@[simp] theorem State.setSig_lost (s : State) (g : SigId) (c : Sig) : (s.setSig g c).lost = s.lost := rfl
@[simp] theorem State.setSig_dmaLast (s : State) (g : SigId) (c : Sig) : (s.setSig g c).dmaLast = s.dmaLast := rfl
@[simp] theorem State.setSig_stalled (s : State) (g : SigId) (c : Sig) : (s.setSig g c).stalled = s.stalled := rfl
@[simp] theorem State.setSig_cores (s : State) (g : SigId) (c : Sig) : (s.setSig g c).cores = s.cores := rfl
@[simp] theorem State.setSig_sems (s : State) (g : SigId) (c : Sig) : (s.setSig g c).sems = s.sems := rfl
@[simp] theorem State.setSig_semOwner (s : State) (g : SigId) (c : Sig) : (s.setSig g c).semOwner = s.semOwner := rfl
@[simp] theorem State.setSig_waiters (s : State) (g : SigId) (c : Sig) : (s.setSig g c).waiters = s.waiters := rfl
@[simp] theorem State.setSig_ticket (s : State) (g : SigId) (c : Sig) : (s.setSig g c).ticket = s.ticket := rfl
@[simp] theorem State.setSig_dmas (s : State) (g : SigId) (c : Sig) : (s.setSig g c).dmas = s.dmas := rfl
@[simp] theorem State.setSig_roleGen (s : State) (g : SigId) (c : Sig) : (s.setSig g c).roleGen = s.roleGen := rfl
@[simp] theorem State.setSig_dict (s : State) (g : SigId) (c : Sig) : (s.setSig g c).dict = s.dict := rfl
@[simp] theorem State.setSig_dictP (s : State) (g : SigId) (c : Sig) : (s.setSig g c).dictP = s.dictP := rfl
@[simp] theorem State.setSig_logical (s : State) (g : SigId) (c : Sig) : (s.setSig g c).logical = s.logical := rfl
@[simp] theorem State.setSig_segOwner (s : State) (g : SigId) (c : Sig) : (s.setSig g c).segOwner = s.segOwner := rfl
@[simp] theorem State.setSig_segStack (s : State) (g : SigId) (c : Sig) : (s.setSig g c).segStack = s.segStack := rfl
@[simp] theorem State.setSig_bankOwner (s : State) (g : SigId) (c : Sig) : (s.setSig g c).bankOwner = s.bankOwner := rfl
@[simp] theorem State.setSig_jobs (s : State) (g : SigId) (c : Sig) : (s.setSig g c).jobs = s.jobs := rfl
@[simp] theorem State.setSig_loans (s : State) (g : SigId) (c : Sig) : (s.setSig g c).loans = s.loans := rfl
@[simp] theorem State.setSig_latches (s : State) (g : SigId) (c : Sig) : (s.setSig g c).latches = s.latches := rfl
@[simp] theorem State.setSig_latchHeld (s : State) (g : SigId) (c : Sig) : (s.setSig g c).latchHeld = s.latchHeld := rfl
@[simp] theorem State.setSig_collQ (s : State) (g : SigId) (c : Sig) : (s.setSig g c).collQ = s.collQ := rfl
@[simp] theorem State.setSig_collCycle (s : State) (g : SigId) (c : Sig) : (s.setSig g c).collCycle = s.collCycle := rfl
@[simp] theorem State.setSig_sigs (s : State) (g : SigId) (c : Sig) : (s.setSig g c).sigs = s.sigs.set g.val c := rfl
@[simp] theorem State.setSig_radio (s : State) (g : SigId) (c : Sig) : (s.setSig g c).radio = s.radio := rfl
@[simp] theorem State.setSig_fr (s : State) (g : SigId) (c : Sig) : (s.setSig g c).fr = s.fr := rfl
@[simp] theorem State.setSig_fab (s : State) (g : SigId) (c : Sig) : (s.setSig g c).fab = s.fab := rfl
@[simp] theorem State.setSig_time (s : State) (g : SigId) (c : Sig) : (s.setSig g c).time = s.time := rfl
@[simp] theorem State.setSig_host (s : State) (g : SigId) (c : Sig) : (s.setSig g c).host = s.host := rfl
@[simp] theorem State.setSig_visor (s : State) (g : SigId) (c : Sig) : (s.setSig g c).visor = s.visor := rfl
@[simp] theorem State.setSig_safety (s : State) (g : SigId) (c : Sig) : (s.setSig g c).safety = s.safety := rfl
@[simp] theorem State.setSig_power (s : State) (g : SigId) (c : Sig) : (s.setSig g c).power = s.power := rfl
@[simp] theorem State.setSig_tap (s : State) (g : SigId) (c : Sig) : (s.setSig g c).tap = s.tap := rfl

/-! emit -/

@[simp] theorem State.emit_pending (s : State) (e : Emission) : (s.emit e).pending = s.pending := rfl
@[simp] theorem State.emit_out (s : State) (e : Emission) : (s.emit e).out = s.out ++ [e] := rfl
@[simp] theorem State.emit_free (s : State) (e : Emission) : (s.emit e).free = s.free := rfl
@[simp] theorem State.emit_mem (s : State) (e : Emission) : (s.emit e).mem = s.mem := rfl
@[simp] theorem State.emit_ecc (s : State) (e : Emission) : (s.emit e).ecc = s.ecc := rfl
@[simp] theorem State.emit_writeBack (s : State) (e : Emission) : (s.emit e).writeBack = s.writeBack := rfl
@[simp] theorem State.emit_banks (s : State) (e : Emission) : (s.emit e).banks = s.banks := rfl
@[simp] theorem State.emit_lost (s : State) (e : Emission) : (s.emit e).lost = s.lost := rfl
@[simp] theorem State.emit_dmaLast (s : State) (e : Emission) : (s.emit e).dmaLast = s.dmaLast := rfl
@[simp] theorem State.emit_stalled (s : State) (e : Emission) : (s.emit e).stalled = s.stalled := rfl
@[simp] theorem State.emit_cores (s : State) (e : Emission) : (s.emit e).cores = s.cores := rfl
@[simp] theorem State.emit_sems (s : State) (e : Emission) : (s.emit e).sems = s.sems := rfl
@[simp] theorem State.emit_semOwner (s : State) (e : Emission) : (s.emit e).semOwner = s.semOwner := rfl
@[simp] theorem State.emit_waiters (s : State) (e : Emission) : (s.emit e).waiters = s.waiters := rfl
@[simp] theorem State.emit_ticket (s : State) (e : Emission) : (s.emit e).ticket = s.ticket := rfl
@[simp] theorem State.emit_dmas (s : State) (e : Emission) : (s.emit e).dmas = s.dmas := rfl
@[simp] theorem State.emit_roleGen (s : State) (e : Emission) : (s.emit e).roleGen = s.roleGen := rfl
@[simp] theorem State.emit_dict (s : State) (e : Emission) : (s.emit e).dict = s.dict := rfl
@[simp] theorem State.emit_dictP (s : State) (e : Emission) : (s.emit e).dictP = s.dictP := rfl
@[simp] theorem State.emit_logical (s : State) (e : Emission) : (s.emit e).logical = s.logical := rfl
@[simp] theorem State.emit_segOwner (s : State) (e : Emission) : (s.emit e).segOwner = s.segOwner := rfl
@[simp] theorem State.emit_segStack (s : State) (e : Emission) : (s.emit e).segStack = s.segStack := rfl
@[simp] theorem State.emit_bankOwner (s : State) (e : Emission) : (s.emit e).bankOwner = s.bankOwner := rfl
@[simp] theorem State.emit_jobs (s : State) (e : Emission) : (s.emit e).jobs = s.jobs := rfl
@[simp] theorem State.emit_loans (s : State) (e : Emission) : (s.emit e).loans = s.loans := rfl
@[simp] theorem State.emit_latches (s : State) (e : Emission) : (s.emit e).latches = s.latches := rfl
@[simp] theorem State.emit_latchHeld (s : State) (e : Emission) : (s.emit e).latchHeld = s.latchHeld := rfl
@[simp] theorem State.emit_collQ (s : State) (e : Emission) : (s.emit e).collQ = s.collQ := rfl
@[simp] theorem State.emit_collCycle (s : State) (e : Emission) : (s.emit e).collCycle = s.collCycle := rfl
@[simp] theorem State.emit_sigs (s : State) (e : Emission) : (s.emit e).sigs = s.sigs := rfl
@[simp] theorem State.emit_radio (s : State) (e : Emission) : (s.emit e).radio = s.radio := rfl
@[simp] theorem State.emit_fr (s : State) (e : Emission) : (s.emit e).fr = s.fr := rfl
@[simp] theorem State.emit_fab (s : State) (e : Emission) : (s.emit e).fab = s.fab := rfl
@[simp] theorem State.emit_time (s : State) (e : Emission) : (s.emit e).time = s.time := rfl
@[simp] theorem State.emit_host (s : State) (e : Emission) : (s.emit e).host = s.host := rfl
@[simp] theorem State.emit_visor (s : State) (e : Emission) : (s.emit e).visor = s.visor := rfl
@[simp] theorem State.emit_safety (s : State) (e : Emission) : (s.emit e).safety = s.safety := rfl
@[simp] theorem State.emit_power (s : State) (e : Emission) : (s.emit e).power = s.power := rfl
@[simp] theorem State.emit_tap (s : State) (e : Emission) : (s.emit e).tap = s.tap := rfl

/-! takeFree -/

@[simp] theorem State.takeFree_pending (s : State) : (s.takeFree.2).pending = s.pending := rfl
@[simp] theorem State.takeFree_out (s : State) : (s.takeFree.2).out = s.out := rfl
@[simp] theorem State.takeFree_free (s : State) : (s.takeFree.2).free = s.free + 1 := rfl
@[simp] theorem State.takeFree_mem (s : State) : (s.takeFree.2).mem = s.mem := rfl
@[simp] theorem State.takeFree_ecc (s : State) : (s.takeFree.2).ecc = s.ecc := rfl
@[simp] theorem State.takeFree_writeBack (s : State) : (s.takeFree.2).writeBack = s.writeBack := rfl
@[simp] theorem State.takeFree_banks (s : State) : (s.takeFree.2).banks = s.banks := rfl
@[simp] theorem State.takeFree_lost (s : State) : (s.takeFree.2).lost = s.lost := rfl
@[simp] theorem State.takeFree_dmaLast (s : State) : (s.takeFree.2).dmaLast = s.dmaLast := rfl
@[simp] theorem State.takeFree_stalled (s : State) : (s.takeFree.2).stalled = s.stalled := rfl
@[simp] theorem State.takeFree_cores (s : State) : (s.takeFree.2).cores = s.cores := rfl
@[simp] theorem State.takeFree_sems (s : State) : (s.takeFree.2).sems = s.sems := rfl
@[simp] theorem State.takeFree_semOwner (s : State) : (s.takeFree.2).semOwner = s.semOwner := rfl
@[simp] theorem State.takeFree_waiters (s : State) : (s.takeFree.2).waiters = s.waiters := rfl
@[simp] theorem State.takeFree_ticket (s : State) : (s.takeFree.2).ticket = s.ticket := rfl
@[simp] theorem State.takeFree_dmas (s : State) : (s.takeFree.2).dmas = s.dmas := rfl
@[simp] theorem State.takeFree_roleGen (s : State) : (s.takeFree.2).roleGen = s.roleGen := rfl
@[simp] theorem State.takeFree_dict (s : State) : (s.takeFree.2).dict = s.dict := rfl
@[simp] theorem State.takeFree_dictP (s : State) : (s.takeFree.2).dictP = s.dictP := rfl
@[simp] theorem State.takeFree_logical (s : State) : (s.takeFree.2).logical = s.logical := rfl
@[simp] theorem State.takeFree_segOwner (s : State) : (s.takeFree.2).segOwner = s.segOwner := rfl
@[simp] theorem State.takeFree_segStack (s : State) : (s.takeFree.2).segStack = s.segStack := rfl
@[simp] theorem State.takeFree_bankOwner (s : State) : (s.takeFree.2).bankOwner = s.bankOwner := rfl
@[simp] theorem State.takeFree_jobs (s : State) : (s.takeFree.2).jobs = s.jobs := rfl
@[simp] theorem State.takeFree_loans (s : State) : (s.takeFree.2).loans = s.loans := rfl
@[simp] theorem State.takeFree_latches (s : State) : (s.takeFree.2).latches = s.latches := rfl
@[simp] theorem State.takeFree_latchHeld (s : State) : (s.takeFree.2).latchHeld = s.latchHeld := rfl
@[simp] theorem State.takeFree_collQ (s : State) : (s.takeFree.2).collQ = s.collQ := rfl
@[simp] theorem State.takeFree_collCycle (s : State) : (s.takeFree.2).collCycle = s.collCycle := rfl
@[simp] theorem State.takeFree_sigs (s : State) : (s.takeFree.2).sigs = s.sigs := rfl
@[simp] theorem State.takeFree_radio (s : State) : (s.takeFree.2).radio = s.radio := rfl
@[simp] theorem State.takeFree_fr (s : State) : (s.takeFree.2).fr = s.fr := rfl
@[simp] theorem State.takeFree_fab (s : State) : (s.takeFree.2).fab = s.fab := rfl
@[simp] theorem State.takeFree_time (s : State) : (s.takeFree.2).time = s.time := rfl
@[simp] theorem State.takeFree_host (s : State) : (s.takeFree.2).host = s.host := rfl
@[simp] theorem State.takeFree_visor (s : State) : (s.takeFree.2).visor = s.visor := rfl
@[simp] theorem State.takeFree_safety (s : State) : (s.takeFree.2).safety = s.safety := rfl
@[simp] theorem State.takeFree_power (s : State) : (s.takeFree.2).power = s.power := rfl
@[simp] theorem State.takeFree_tap (s : State) : (s.takeFree.2).tap = s.tap := rfl

/-! setOd -/

@[simp] theorem State.setOd_pending (s : State) (i j v : Nat) : (s.setOd i j v).pending = s.pending := rfl
@[simp] theorem State.setOd_out (s : State) (i j v : Nat) : (s.setOd i j v).out = s.out := rfl
@[simp] theorem State.setOd_free (s : State) (i j v : Nat) : (s.setOd i j v).free = s.free := rfl
@[simp] theorem State.setOd_mem (s : State) (i j v : Nat) : (s.setOd i j v).mem = s.mem := rfl
@[simp] theorem State.setOd_ecc (s : State) (i j v : Nat) : (s.setOd i j v).ecc = s.ecc := rfl
@[simp] theorem State.setOd_writeBack (s : State) (i j v : Nat) : (s.setOd i j v).writeBack = s.writeBack := rfl
@[simp] theorem State.setOd_banks (s : State) (i j v : Nat) : (s.setOd i j v).banks = s.banks := rfl
@[simp] theorem State.setOd_lost (s : State) (i j v : Nat) : (s.setOd i j v).lost = s.lost := rfl
@[simp] theorem State.setOd_dmaLast (s : State) (i j v : Nat) : (s.setOd i j v).dmaLast = s.dmaLast := rfl
@[simp] theorem State.setOd_stalled (s : State) (i j v : Nat) : (s.setOd i j v).stalled = s.stalled := rfl
@[simp] theorem State.setOd_cores (s : State) (i j v : Nat) : (s.setOd i j v).cores = s.cores := rfl
@[simp] theorem State.setOd_sems (s : State) (i j v : Nat) : (s.setOd i j v).sems = s.sems := rfl
@[simp] theorem State.setOd_semOwner (s : State) (i j v : Nat) : (s.setOd i j v).semOwner = s.semOwner := rfl
@[simp] theorem State.setOd_waiters (s : State) (i j v : Nat) : (s.setOd i j v).waiters = s.waiters := rfl
@[simp] theorem State.setOd_ticket (s : State) (i j v : Nat) : (s.setOd i j v).ticket = s.ticket := rfl
@[simp] theorem State.setOd_dmas (s : State) (i j v : Nat) : (s.setOd i j v).dmas = s.dmas := rfl
@[simp] theorem State.setOd_roleGen (s : State) (i j v : Nat) : (s.setOd i j v).roleGen = s.roleGen := rfl
@[simp] theorem State.setOd_dict (s : State) (i j v : Nat) : (s.setOd i j v).dict = sput s.dict odDef (odKey i j) v := rfl
@[simp] theorem State.setOd_dictP (s : State) (i j v : Nat) : (s.setOd i j v).dictP = s.dictP := rfl
@[simp] theorem State.setOd_logical (s : State) (i j v : Nat) : (s.setOd i j v).logical = s.logical := rfl
@[simp] theorem State.setOd_segOwner (s : State) (i j v : Nat) : (s.setOd i j v).segOwner = s.segOwner := rfl
@[simp] theorem State.setOd_segStack (s : State) (i j v : Nat) : (s.setOd i j v).segStack = s.segStack := rfl
@[simp] theorem State.setOd_bankOwner (s : State) (i j v : Nat) : (s.setOd i j v).bankOwner = s.bankOwner := rfl
@[simp] theorem State.setOd_jobs (s : State) (i j v : Nat) : (s.setOd i j v).jobs = s.jobs := rfl
@[simp] theorem State.setOd_loans (s : State) (i j v : Nat) : (s.setOd i j v).loans = s.loans := rfl
@[simp] theorem State.setOd_latches (s : State) (i j v : Nat) : (s.setOd i j v).latches = s.latches := rfl
@[simp] theorem State.setOd_latchHeld (s : State) (i j v : Nat) : (s.setOd i j v).latchHeld = s.latchHeld := rfl
@[simp] theorem State.setOd_collQ (s : State) (i j v : Nat) : (s.setOd i j v).collQ = s.collQ := rfl
@[simp] theorem State.setOd_collCycle (s : State) (i j v : Nat) : (s.setOd i j v).collCycle = s.collCycle := rfl
@[simp] theorem State.setOd_sigs (s : State) (i j v : Nat) : (s.setOd i j v).sigs = s.sigs := rfl
@[simp] theorem State.setOd_radio (s : State) (i j v : Nat) : (s.setOd i j v).radio = s.radio := rfl
@[simp] theorem State.setOd_fr (s : State) (i j v : Nat) : (s.setOd i j v).fr = s.fr := rfl
@[simp] theorem State.setOd_fab (s : State) (i j v : Nat) : (s.setOd i j v).fab = s.fab := rfl
@[simp] theorem State.setOd_time (s : State) (i j v : Nat) : (s.setOd i j v).time = s.time := rfl
@[simp] theorem State.setOd_host (s : State) (i j v : Nat) : (s.setOd i j v).host = s.host := rfl
@[simp] theorem State.setOd_visor (s : State) (i j v : Nat) : (s.setOd i j v).visor = s.visor := rfl
@[simp] theorem State.setOd_safety (s : State) (i j v : Nat) : (s.setOd i j v).safety = s.safety := rfl
@[simp] theorem State.setOd_power (s : State) (i j v : Nat) : (s.setOd i j v).power = s.power := rfl
@[simp] theorem State.setOd_tap (s : State) (i j v : Nat) : (s.setOd i j v).tap = s.tap := rfl

/-! setBank -/

@[simp] theorem State.setBank_pending (s : State) (b : Nat) (x : Bank) : (s.setBank b x).pending = s.pending := rfl
@[simp] theorem State.setBank_out (s : State) (b : Nat) (x : Bank) : (s.setBank b x).out = s.out := rfl
@[simp] theorem State.setBank_free (s : State) (b : Nat) (x : Bank) : (s.setBank b x).free = s.free := rfl
@[simp] theorem State.setBank_mem (s : State) (b : Nat) (x : Bank) : (s.setBank b x).mem = s.mem := rfl
@[simp] theorem State.setBank_ecc (s : State) (b : Nat) (x : Bank) : (s.setBank b x).ecc = s.ecc := rfl
@[simp] theorem State.setBank_writeBack (s : State) (b : Nat) (x : Bank) : (s.setBank b x).writeBack = s.writeBack := rfl
@[simp] theorem State.setBank_banks (s : State) (b : Nat) (x : Bank) : (s.setBank b x).banks = sput s.banks (fun _ => Bank.reset) b x := rfl
@[simp] theorem State.setBank_lost (s : State) (b : Nat) (x : Bank) : (s.setBank b x).lost = s.lost := rfl
@[simp] theorem State.setBank_dmaLast (s : State) (b : Nat) (x : Bank) : (s.setBank b x).dmaLast = s.dmaLast := rfl
@[simp] theorem State.setBank_stalled (s : State) (b : Nat) (x : Bank) : (s.setBank b x).stalled = s.stalled := rfl
@[simp] theorem State.setBank_cores (s : State) (b : Nat) (x : Bank) : (s.setBank b x).cores = s.cores := rfl
@[simp] theorem State.setBank_sems (s : State) (b : Nat) (x : Bank) : (s.setBank b x).sems = s.sems := rfl
@[simp] theorem State.setBank_semOwner (s : State) (b : Nat) (x : Bank) : (s.setBank b x).semOwner = s.semOwner := rfl
@[simp] theorem State.setBank_waiters (s : State) (b : Nat) (x : Bank) : (s.setBank b x).waiters = s.waiters := rfl
@[simp] theorem State.setBank_ticket (s : State) (b : Nat) (x : Bank) : (s.setBank b x).ticket = s.ticket := rfl
@[simp] theorem State.setBank_dmas (s : State) (b : Nat) (x : Bank) : (s.setBank b x).dmas = s.dmas := rfl
@[simp] theorem State.setBank_roleGen (s : State) (b : Nat) (x : Bank) : (s.setBank b x).roleGen = s.roleGen := rfl
@[simp] theorem State.setBank_dict (s : State) (b : Nat) (x : Bank) : (s.setBank b x).dict = s.dict := rfl
@[simp] theorem State.setBank_dictP (s : State) (b : Nat) (x : Bank) : (s.setBank b x).dictP = s.dictP := rfl
@[simp] theorem State.setBank_logical (s : State) (b : Nat) (x : Bank) : (s.setBank b x).logical = s.logical := rfl
@[simp] theorem State.setBank_segOwner (s : State) (b : Nat) (x : Bank) : (s.setBank b x).segOwner = s.segOwner := rfl
@[simp] theorem State.setBank_segStack (s : State) (b : Nat) (x : Bank) : (s.setBank b x).segStack = s.segStack := rfl
@[simp] theorem State.setBank_bankOwner (s : State) (b : Nat) (x : Bank) : (s.setBank b x).bankOwner = s.bankOwner := rfl
@[simp] theorem State.setBank_jobs (s : State) (b : Nat) (x : Bank) : (s.setBank b x).jobs = s.jobs := rfl
@[simp] theorem State.setBank_loans (s : State) (b : Nat) (x : Bank) : (s.setBank b x).loans = s.loans := rfl
@[simp] theorem State.setBank_latches (s : State) (b : Nat) (x : Bank) : (s.setBank b x).latches = s.latches := rfl
@[simp] theorem State.setBank_latchHeld (s : State) (b : Nat) (x : Bank) : (s.setBank b x).latchHeld = s.latchHeld := rfl
@[simp] theorem State.setBank_collQ (s : State) (b : Nat) (x : Bank) : (s.setBank b x).collQ = s.collQ := rfl
@[simp] theorem State.setBank_collCycle (s : State) (b : Nat) (x : Bank) : (s.setBank b x).collCycle = s.collCycle := rfl
@[simp] theorem State.setBank_sigs (s : State) (b : Nat) (x : Bank) : (s.setBank b x).sigs = s.sigs := rfl
@[simp] theorem State.setBank_radio (s : State) (b : Nat) (x : Bank) : (s.setBank b x).radio = s.radio := rfl
@[simp] theorem State.setBank_fr (s : State) (b : Nat) (x : Bank) : (s.setBank b x).fr = s.fr := rfl
@[simp] theorem State.setBank_fab (s : State) (b : Nat) (x : Bank) : (s.setBank b x).fab = s.fab := rfl
@[simp] theorem State.setBank_time (s : State) (b : Nat) (x : Bank) : (s.setBank b x).time = s.time := rfl
@[simp] theorem State.setBank_host (s : State) (b : Nat) (x : Bank) : (s.setBank b x).host = s.host := rfl
@[simp] theorem State.setBank_visor (s : State) (b : Nat) (x : Bank) : (s.setBank b x).visor = s.visor := rfl
@[simp] theorem State.setBank_safety (s : State) (b : Nat) (x : Bank) : (s.setBank b x).safety = s.safety := rfl
@[simp] theorem State.setBank_power (s : State) (b : Nat) (x : Bank) : (s.setBank b x).power = s.power := rfl
@[simp] theorem State.setBank_tap (s : State) (b : Nat) (x : Bank) : (s.setBank b x).tap = s.tap := rfl

/-! setMapByte -/

@[simp] theorem State.setMapByte_pending (s : State) (k l v : Nat) : (s.setMapByte k l v).pending = s.pending := rfl
@[simp] theorem State.setMapByte_out (s : State) (k l v : Nat) : (s.setMapByte k l v).out = s.out := rfl
@[simp] theorem State.setMapByte_free (s : State) (k l v : Nat) : (s.setMapByte k l v).free = s.free := rfl
@[simp] theorem State.setMapByte_mem (s : State) (k l v : Nat) : (s.setMapByte k l v).mem = s.mem := rfl
@[simp] theorem State.setMapByte_ecc (s : State) (k l v : Nat) : (s.setMapByte k l v).ecc = s.ecc := rfl
@[simp] theorem State.setMapByte_writeBack (s : State) (k l v : Nat) : (s.setMapByte k l v).writeBack = s.writeBack := rfl
@[simp] theorem State.setMapByte_banks (s : State) (k l v : Nat) : (s.setMapByte k l v).banks = s.banks := rfl
@[simp] theorem State.setMapByte_lost (s : State) (k l v : Nat) : (s.setMapByte k l v).lost = s.lost := rfl
@[simp] theorem State.setMapByte_dmaLast (s : State) (k l v : Nat) : (s.setMapByte k l v).dmaLast = s.dmaLast := rfl
@[simp] theorem State.setMapByte_stalled (s : State) (k l v : Nat) : (s.setMapByte k l v).stalled = s.stalled := rfl
@[simp] theorem State.setMapByte_cores (s : State) (k l v : Nat) : (s.setMapByte k l v).cores = s.cores := rfl
@[simp] theorem State.setMapByte_sems (s : State) (k l v : Nat) : (s.setMapByte k l v).sems = s.sems := rfl
@[simp] theorem State.setMapByte_semOwner (s : State) (k l v : Nat) : (s.setMapByte k l v).semOwner = s.semOwner := rfl
@[simp] theorem State.setMapByte_waiters (s : State) (k l v : Nat) : (s.setMapByte k l v).waiters = s.waiters := rfl
@[simp] theorem State.setMapByte_ticket (s : State) (k l v : Nat) : (s.setMapByte k l v).ticket = s.ticket := rfl
@[simp] theorem State.setMapByte_dmas (s : State) (k l v : Nat) : (s.setMapByte k l v).dmas = s.dmas := rfl
@[simp] theorem State.setMapByte_roleGen (s : State) (k l v : Nat) : (s.setMapByte k l v).roleGen = s.roleGen := rfl
@[simp] theorem State.setMapByte_dict (s : State) (k l v : Nat) : (s.setMapByte k l v).dict = s.dict := rfl
@[simp] theorem State.setMapByte_dictP (s : State) (k l v : Nat) : (s.setMapByte k l v).dictP = s.dictP := rfl
@[simp] theorem State.setMapByte_logical (s : State) (k l v : Nat) : (s.setMapByte k l v).logical = sput s.logical (fun _ => 0xFF) (64 * k + l) v := rfl
@[simp] theorem State.setMapByte_segOwner (s : State) (k l v : Nat) : (s.setMapByte k l v).segOwner = s.segOwner := rfl
@[simp] theorem State.setMapByte_segStack (s : State) (k l v : Nat) : (s.setMapByte k l v).segStack = s.segStack := rfl
@[simp] theorem State.setMapByte_bankOwner (s : State) (k l v : Nat) : (s.setMapByte k l v).bankOwner = s.bankOwner := rfl
@[simp] theorem State.setMapByte_jobs (s : State) (k l v : Nat) : (s.setMapByte k l v).jobs = s.jobs := rfl
@[simp] theorem State.setMapByte_loans (s : State) (k l v : Nat) : (s.setMapByte k l v).loans = s.loans := rfl
@[simp] theorem State.setMapByte_latches (s : State) (k l v : Nat) : (s.setMapByte k l v).latches = s.latches := rfl
@[simp] theorem State.setMapByte_latchHeld (s : State) (k l v : Nat) : (s.setMapByte k l v).latchHeld = s.latchHeld := rfl
@[simp] theorem State.setMapByte_collQ (s : State) (k l v : Nat) : (s.setMapByte k l v).collQ = s.collQ := rfl
@[simp] theorem State.setMapByte_collCycle (s : State) (k l v : Nat) : (s.setMapByte k l v).collCycle = s.collCycle := rfl
@[simp] theorem State.setMapByte_sigs (s : State) (k l v : Nat) : (s.setMapByte k l v).sigs = s.sigs := rfl
@[simp] theorem State.setMapByte_radio (s : State) (k l v : Nat) : (s.setMapByte k l v).radio = s.radio := rfl
@[simp] theorem State.setMapByte_fr (s : State) (k l v : Nat) : (s.setMapByte k l v).fr = s.fr := rfl
@[simp] theorem State.setMapByte_fab (s : State) (k l v : Nat) : (s.setMapByte k l v).fab = s.fab := rfl
@[simp] theorem State.setMapByte_time (s : State) (k l v : Nat) : (s.setMapByte k l v).time = s.time := rfl
@[simp] theorem State.setMapByte_host (s : State) (k l v : Nat) : (s.setMapByte k l v).host = s.host := rfl
@[simp] theorem State.setMapByte_visor (s : State) (k l v : Nat) : (s.setMapByte k l v).visor = s.visor := rfl
@[simp] theorem State.setMapByte_safety (s : State) (k l v : Nat) : (s.setMapByte k l v).safety = s.safety := rfl
@[simp] theorem State.setMapByte_power (s : State) (k l v : Nat) : (s.setMapByte k l v).power = s.power := rfl
@[simp] theorem State.setMapByte_tap (s : State) (k l v : Nat) : (s.setMapByte k l v).tap = s.tap := rfl

/-! setRing -/

@[simp] theorem State.setRing_pending (s : State) (f off : Nat) (r : Ring) : (s.setRing f off r).pending = s.pending := rfl
@[simp] theorem State.setRing_out (s : State) (f off : Nat) (r : Ring) : (s.setRing f off r).out = s.out := rfl
@[simp] theorem State.setRing_free (s : State) (f off : Nat) (r : Ring) : (s.setRing f off r).free = s.free := rfl
@[simp] theorem State.setRing_mem (s : State) (f off : Nat) (r : Ring) : (s.setRing f off r).mem = s.mem := rfl
@[simp] theorem State.setRing_ecc (s : State) (f off : Nat) (r : Ring) : (s.setRing f off r).ecc = s.ecc := rfl
@[simp] theorem State.setRing_writeBack (s : State) (f off : Nat) (r : Ring) : (s.setRing f off r).writeBack = s.writeBack := rfl
@[simp] theorem State.setRing_banks (s : State) (f off : Nat) (r : Ring) : (s.setRing f off r).banks = s.banks := rfl
@[simp] theorem State.setRing_lost (s : State) (f off : Nat) (r : Ring) : (s.setRing f off r).lost = s.lost := rfl
@[simp] theorem State.setRing_dmaLast (s : State) (f off : Nat) (r : Ring) : (s.setRing f off r).dmaLast = s.dmaLast := rfl
@[simp] theorem State.setRing_stalled (s : State) (f off : Nat) (r : Ring) : (s.setRing f off r).stalled = s.stalled := rfl
@[simp] theorem State.setRing_cores (s : State) (f off : Nat) (r : Ring) : (s.setRing f off r).cores = s.cores := rfl
@[simp] theorem State.setRing_sems (s : State) (f off : Nat) (r : Ring) : (s.setRing f off r).sems = s.sems := rfl
@[simp] theorem State.setRing_semOwner (s : State) (f off : Nat) (r : Ring) : (s.setRing f off r).semOwner = s.semOwner := rfl
@[simp] theorem State.setRing_waiters (s : State) (f off : Nat) (r : Ring) : (s.setRing f off r).waiters = s.waiters := rfl
@[simp] theorem State.setRing_ticket (s : State) (f off : Nat) (r : Ring) : (s.setRing f off r).ticket = s.ticket := rfl
@[simp] theorem State.setRing_dmas (s : State) (f off : Nat) (r : Ring) : (s.setRing f off r).dmas = s.dmas := rfl
@[simp] theorem State.setRing_roleGen (s : State) (f off : Nat) (r : Ring) : (s.setRing f off r).roleGen = s.roleGen := rfl
@[simp] theorem State.setRing_dict (s : State) (f off : Nat) (r : Ring) : (s.setRing f off r).dict = s.dict := rfl
@[simp] theorem State.setRing_dictP (s : State) (f off : Nat) (r : Ring) : (s.setRing f off r).dictP = s.dictP := rfl
@[simp] theorem State.setRing_logical (s : State) (f off : Nat) (r : Ring) : (s.setRing f off r).logical = s.logical := rfl
@[simp] theorem State.setRing_segOwner (s : State) (f off : Nat) (r : Ring) : (s.setRing f off r).segOwner = s.segOwner := rfl
@[simp] theorem State.setRing_segStack (s : State) (f off : Nat) (r : Ring) : (s.setRing f off r).segStack = s.segStack := rfl
@[simp] theorem State.setRing_bankOwner (s : State) (f off : Nat) (r : Ring) : (s.setRing f off r).bankOwner = s.bankOwner := rfl
@[simp] theorem State.setRing_jobs (s : State) (f off : Nat) (r : Ring) : (s.setRing f off r).jobs = s.jobs := rfl
@[simp] theorem State.setRing_loans (s : State) (f off : Nat) (r : Ring) : (s.setRing f off r).loans = s.loans := rfl
@[simp] theorem State.setRing_latches (s : State) (f off : Nat) (r : Ring) : (s.setRing f off r).latches = s.latches := rfl
@[simp] theorem State.setRing_latchHeld (s : State) (f off : Nat) (r : Ring) : (s.setRing f off r).latchHeld = s.latchHeld := rfl
@[simp] theorem State.setRing_collQ (s : State) (f off : Nat) (r : Ring) : (s.setRing f off r).collQ = s.collQ := rfl
@[simp] theorem State.setRing_collCycle (s : State) (f off : Nat) (r : Ring) : (s.setRing f off r).collCycle = s.collCycle := rfl
@[simp] theorem State.setRing_sigs (s : State) (f off : Nat) (r : Ring) : (s.setRing f off r).sigs = s.sigs := rfl
@[simp] theorem State.setRing_radio (s : State) (f off : Nat) (r : Ring) : (s.setRing f off r).radio = s.radio := rfl
@[simp] theorem State.setRing_fr (s : State) (f off : Nat) (r : Ring) : (s.setRing f off r).fr = s.fr := rfl
@[simp] theorem State.setRing_fab (s : State) (f off : Nat) (r : Ring) : (s.setRing f off r).fab = s.fab := rfl
@[simp] theorem State.setRing_time (s : State) (f off : Nat) (r : Ring) : (s.setRing f off r).time = s.time := rfl
@[simp] theorem State.setRing_visor (s : State) (f off : Nat) (r : Ring) : (s.setRing f off r).visor = s.visor := rfl
@[simp] theorem State.setRing_safety (s : State) (f off : Nat) (r : Ring) : (s.setRing f off r).safety = s.safety := rfl
@[simp] theorem State.setRing_power (s : State) (f off : Nat) (r : Ring) : (s.setRing f off r).power = s.power := rfl
@[simp] theorem State.setRing_tap (s : State) (f off : Nat) (r : Ring) : (s.setRing f off r).tap = s.tap := rfl

/-! modJob -/

@[simp] theorem State.modJob_pending (s : State) (h : Nat) (f : Job → Job) : (s.modJob h f).pending = s.pending := rfl
@[simp] theorem State.modJob_out (s : State) (h : Nat) (f : Job → Job) : (s.modJob h f).out = s.out := rfl
@[simp] theorem State.modJob_free (s : State) (h : Nat) (f : Job → Job) : (s.modJob h f).free = s.free := rfl
@[simp] theorem State.modJob_mem (s : State) (h : Nat) (f : Job → Job) : (s.modJob h f).mem = s.mem := rfl
@[simp] theorem State.modJob_ecc (s : State) (h : Nat) (f : Job → Job) : (s.modJob h f).ecc = s.ecc := rfl
@[simp] theorem State.modJob_writeBack (s : State) (h : Nat) (f : Job → Job) : (s.modJob h f).writeBack = s.writeBack := rfl
@[simp] theorem State.modJob_banks (s : State) (h : Nat) (f : Job → Job) : (s.modJob h f).banks = s.banks := rfl
@[simp] theorem State.modJob_lost (s : State) (h : Nat) (f : Job → Job) : (s.modJob h f).lost = s.lost := rfl
@[simp] theorem State.modJob_dmaLast (s : State) (h : Nat) (f : Job → Job) : (s.modJob h f).dmaLast = s.dmaLast := rfl
@[simp] theorem State.modJob_stalled (s : State) (h : Nat) (f : Job → Job) : (s.modJob h f).stalled = s.stalled := rfl
@[simp] theorem State.modJob_cores (s : State) (h : Nat) (f : Job → Job) : (s.modJob h f).cores = s.cores := rfl
@[simp] theorem State.modJob_sems (s : State) (h : Nat) (f : Job → Job) : (s.modJob h f).sems = s.sems := rfl
@[simp] theorem State.modJob_semOwner (s : State) (h : Nat) (f : Job → Job) : (s.modJob h f).semOwner = s.semOwner := rfl
@[simp] theorem State.modJob_waiters (s : State) (h : Nat) (f : Job → Job) : (s.modJob h f).waiters = s.waiters := rfl
@[simp] theorem State.modJob_ticket (s : State) (h : Nat) (f : Job → Job) : (s.modJob h f).ticket = s.ticket := rfl
@[simp] theorem State.modJob_dmas (s : State) (h : Nat) (f : Job → Job) : (s.modJob h f).dmas = s.dmas := rfl
@[simp] theorem State.modJob_roleGen (s : State) (h : Nat) (f : Job → Job) : (s.modJob h f).roleGen = s.roleGen := rfl
@[simp] theorem State.modJob_dict (s : State) (h : Nat) (f : Job → Job) : (s.modJob h f).dict = s.dict := rfl
@[simp] theorem State.modJob_dictP (s : State) (h : Nat) (f : Job → Job) : (s.modJob h f).dictP = s.dictP := rfl
@[simp] theorem State.modJob_logical (s : State) (h : Nat) (f : Job → Job) : (s.modJob h f).logical = s.logical := rfl
@[simp] theorem State.modJob_segOwner (s : State) (h : Nat) (f : Job → Job) : (s.modJob h f).segOwner = s.segOwner := rfl
@[simp] theorem State.modJob_segStack (s : State) (h : Nat) (f : Job → Job) : (s.modJob h f).segStack = s.segStack := rfl
@[simp] theorem State.modJob_bankOwner (s : State) (h : Nat) (f : Job → Job) : (s.modJob h f).bankOwner = s.bankOwner := rfl
@[simp] theorem State.modJob_jobs (s : State) (h : Nat) (f : Job → Job) : (s.modJob h f).jobs = s.jobs.map (fun j => if j.handle = h then f j else j) := rfl
@[simp] theorem State.modJob_loans (s : State) (h : Nat) (f : Job → Job) : (s.modJob h f).loans = s.loans := rfl
@[simp] theorem State.modJob_latches (s : State) (h : Nat) (f : Job → Job) : (s.modJob h f).latches = s.latches := rfl
@[simp] theorem State.modJob_latchHeld (s : State) (h : Nat) (f : Job → Job) : (s.modJob h f).latchHeld = s.latchHeld := rfl
@[simp] theorem State.modJob_collQ (s : State) (h : Nat) (f : Job → Job) : (s.modJob h f).collQ = s.collQ := rfl
@[simp] theorem State.modJob_collCycle (s : State) (h : Nat) (f : Job → Job) : (s.modJob h f).collCycle = s.collCycle := rfl
@[simp] theorem State.modJob_sigs (s : State) (h : Nat) (f : Job → Job) : (s.modJob h f).sigs = s.sigs := rfl
@[simp] theorem State.modJob_radio (s : State) (h : Nat) (f : Job → Job) : (s.modJob h f).radio = s.radio := rfl
@[simp] theorem State.modJob_fr (s : State) (h : Nat) (f : Job → Job) : (s.modJob h f).fr = s.fr := rfl
@[simp] theorem State.modJob_fab (s : State) (h : Nat) (f : Job → Job) : (s.modJob h f).fab = s.fab := rfl
@[simp] theorem State.modJob_time (s : State) (h : Nat) (f : Job → Job) : (s.modJob h f).time = s.time := rfl
@[simp] theorem State.modJob_host (s : State) (h : Nat) (f : Job → Job) : (s.modJob h f).host = s.host := rfl
@[simp] theorem State.modJob_visor (s : State) (h : Nat) (f : Job → Job) : (s.modJob h f).visor = s.visor := rfl
@[simp] theorem State.modJob_safety (s : State) (h : Nat) (f : Job → Job) : (s.modJob h f).safety = s.safety := rfl
@[simp] theorem State.modJob_power (s : State) (h : Nat) (f : Job → Job) : (s.modJob h f).power = s.power := rfl
@[simp] theorem State.modJob_tap (s : State) (h : Nat) (f : Job → Job) : (s.modJob h f).tap = s.tap := rfl
@[simp] theorem State.setRing_host_mail (s : State) (f off : Nat) (r : Ring) : (s.setRing f off r).host.mail = s.host.mail := rfl
@[simp] theorem State.setRing_host_window (s : State) (f off : Nat) (r : Ring) : (s.setRing f off r).host.window = s.host.window := rfl
@[simp] theorem State.setRing_host_xfers (s : State) (f off : Nat) (r : Ring) : (s.setRing f off r).host.xfers = s.host.xfers := rfl
@[simp] theorem State.setRing_host_chans (s : State) (f off : Nat) (r : Ring) : (s.setRing f off r).host.chans = s.host.chans := rfl
@[simp] theorem State.setRing_host_held (s : State) (f off : Nat) (r : Ring) : (s.setRing f off r).host.held = s.host.held := rfl
@[simp] theorem State.setRing_host_pcieUp (s : State) (f off : Nat) (r : Ring) : (s.setRing f off r).host.pcieUp = s.host.pcieUp := rfl
@[simp] theorem State.setRing_host_msixMask (s : State) (f off : Nat) (r : Ring) : (s.setRing f off r).host.msixMask = s.host.msixMask := rfl
@[simp] theorem State.setRing_host_msixPending (s : State) (f off : Nat) (r : Ring) : (s.setRing f off r).host.msixPending = s.host.msixPending := rfl
@[simp] theorem State.setRing_host_persists (s : State) (f off : Nat) (r : Ring) : (s.setRing f off r).host.persists = s.host.persists := rfl
@[simp] theorem State.setRing_host_waiting (s : State) (f off : Nat) (r : Ring) : (s.setRing f off r).host.waiting = s.host.waiting := rfl
@[simp] theorem State.setRing_host_journal (s : State) (f off : Nat) (r : Ring) : (s.setRing f off r).host.journal = s.host.journal := rfl
@[simp] theorem State.setRing_host_journalNew (s : State) (f off : Nat) (r : Ring) : (s.setRing f off r).host.journalNew = s.host.journalNew := rfl
@[simp] theorem State.setRing_host_rings (s : State) (f off : Nat) (r : Ring) : (s.setRing f off r).host.rings = sput s.host.rings (fun _ => Ring.reset) (ringKey f off) r := rfl

/-! modCoreAt -/

@[simp] theorem State.modCoreAt_pending (s : State) (n : Nat) (g : Core → Core) : (s.modCoreAt n g).pending = s.pending := by unfold State.modCoreAt; split <;> rfl
@[simp] theorem State.modCoreAt_out (s : State) (n : Nat) (g : Core → Core) : (s.modCoreAt n g).out = s.out := by unfold State.modCoreAt; split <;> rfl
@[simp] theorem State.modCoreAt_free (s : State) (n : Nat) (g : Core → Core) : (s.modCoreAt n g).free = s.free := by unfold State.modCoreAt; split <;> rfl
@[simp] theorem State.modCoreAt_mem (s : State) (n : Nat) (g : Core → Core) : (s.modCoreAt n g).mem = s.mem := by unfold State.modCoreAt; split <;> rfl
@[simp] theorem State.modCoreAt_ecc (s : State) (n : Nat) (g : Core → Core) : (s.modCoreAt n g).ecc = s.ecc := by unfold State.modCoreAt; split <;> rfl
@[simp] theorem State.modCoreAt_writeBack (s : State) (n : Nat) (g : Core → Core) : (s.modCoreAt n g).writeBack = s.writeBack := by unfold State.modCoreAt; split <;> rfl
@[simp] theorem State.modCoreAt_banks (s : State) (n : Nat) (g : Core → Core) : (s.modCoreAt n g).banks = s.banks := by unfold State.modCoreAt; split <;> rfl
@[simp] theorem State.modCoreAt_lost (s : State) (n : Nat) (g : Core → Core) : (s.modCoreAt n g).lost = s.lost := by unfold State.modCoreAt; split <;> rfl
@[simp] theorem State.modCoreAt_dmaLast (s : State) (n : Nat) (g : Core → Core) : (s.modCoreAt n g).dmaLast = s.dmaLast := by unfold State.modCoreAt; split <;> rfl
@[simp] theorem State.modCoreAt_stalled (s : State) (n : Nat) (g : Core → Core) : (s.modCoreAt n g).stalled = s.stalled := by unfold State.modCoreAt; split <;> rfl
@[simp] theorem State.modCoreAt_sems (s : State) (n : Nat) (g : Core → Core) : (s.modCoreAt n g).sems = s.sems := by unfold State.modCoreAt; split <;> rfl
@[simp] theorem State.modCoreAt_semOwner (s : State) (n : Nat) (g : Core → Core) : (s.modCoreAt n g).semOwner = s.semOwner := by unfold State.modCoreAt; split <;> rfl
@[simp] theorem State.modCoreAt_waiters (s : State) (n : Nat) (g : Core → Core) : (s.modCoreAt n g).waiters = s.waiters := by unfold State.modCoreAt; split <;> rfl
@[simp] theorem State.modCoreAt_ticket (s : State) (n : Nat) (g : Core → Core) : (s.modCoreAt n g).ticket = s.ticket := by unfold State.modCoreAt; split <;> rfl
@[simp] theorem State.modCoreAt_dmas (s : State) (n : Nat) (g : Core → Core) : (s.modCoreAt n g).dmas = s.dmas := by unfold State.modCoreAt; split <;> rfl
@[simp] theorem State.modCoreAt_roleGen (s : State) (n : Nat) (g : Core → Core) : (s.modCoreAt n g).roleGen = s.roleGen := by unfold State.modCoreAt; split <;> rfl
@[simp] theorem State.modCoreAt_dict (s : State) (n : Nat) (g : Core → Core) : (s.modCoreAt n g).dict = s.dict := by unfold State.modCoreAt; split <;> rfl
@[simp] theorem State.modCoreAt_dictP (s : State) (n : Nat) (g : Core → Core) : (s.modCoreAt n g).dictP = s.dictP := by unfold State.modCoreAt; split <;> rfl
@[simp] theorem State.modCoreAt_logical (s : State) (n : Nat) (g : Core → Core) : (s.modCoreAt n g).logical = s.logical := by unfold State.modCoreAt; split <;> rfl
@[simp] theorem State.modCoreAt_segOwner (s : State) (n : Nat) (g : Core → Core) : (s.modCoreAt n g).segOwner = s.segOwner := by unfold State.modCoreAt; split <;> rfl
@[simp] theorem State.modCoreAt_segStack (s : State) (n : Nat) (g : Core → Core) : (s.modCoreAt n g).segStack = s.segStack := by unfold State.modCoreAt; split <;> rfl
@[simp] theorem State.modCoreAt_bankOwner (s : State) (n : Nat) (g : Core → Core) : (s.modCoreAt n g).bankOwner = s.bankOwner := by unfold State.modCoreAt; split <;> rfl
@[simp] theorem State.modCoreAt_jobs (s : State) (n : Nat) (g : Core → Core) : (s.modCoreAt n g).jobs = s.jobs := by unfold State.modCoreAt; split <;> rfl
@[simp] theorem State.modCoreAt_loans (s : State) (n : Nat) (g : Core → Core) : (s.modCoreAt n g).loans = s.loans := by unfold State.modCoreAt; split <;> rfl
@[simp] theorem State.modCoreAt_latches (s : State) (n : Nat) (g : Core → Core) : (s.modCoreAt n g).latches = s.latches := by unfold State.modCoreAt; split <;> rfl
@[simp] theorem State.modCoreAt_latchHeld (s : State) (n : Nat) (g : Core → Core) : (s.modCoreAt n g).latchHeld = s.latchHeld := by unfold State.modCoreAt; split <;> rfl
@[simp] theorem State.modCoreAt_collQ (s : State) (n : Nat) (g : Core → Core) : (s.modCoreAt n g).collQ = s.collQ := by unfold State.modCoreAt; split <;> rfl
@[simp] theorem State.modCoreAt_collCycle (s : State) (n : Nat) (g : Core → Core) : (s.modCoreAt n g).collCycle = s.collCycle := by unfold State.modCoreAt; split <;> rfl
@[simp] theorem State.modCoreAt_sigs (s : State) (n : Nat) (g : Core → Core) : (s.modCoreAt n g).sigs = s.sigs := by unfold State.modCoreAt; split <;> rfl
@[simp] theorem State.modCoreAt_radio (s : State) (n : Nat) (g : Core → Core) : (s.modCoreAt n g).radio = s.radio := by unfold State.modCoreAt; split <;> rfl
@[simp] theorem State.modCoreAt_fr (s : State) (n : Nat) (g : Core → Core) : (s.modCoreAt n g).fr = s.fr := by unfold State.modCoreAt; split <;> rfl
@[simp] theorem State.modCoreAt_fab (s : State) (n : Nat) (g : Core → Core) : (s.modCoreAt n g).fab = s.fab := by unfold State.modCoreAt; split <;> rfl
@[simp] theorem State.modCoreAt_time (s : State) (n : Nat) (g : Core → Core) : (s.modCoreAt n g).time = s.time := by unfold State.modCoreAt; split <;> rfl
@[simp] theorem State.modCoreAt_host (s : State) (n : Nat) (g : Core → Core) : (s.modCoreAt n g).host = s.host := by unfold State.modCoreAt; split <;> rfl
@[simp] theorem State.modCoreAt_visor (s : State) (n : Nat) (g : Core → Core) : (s.modCoreAt n g).visor = s.visor := by unfold State.modCoreAt; split <;> rfl
@[simp] theorem State.modCoreAt_safety (s : State) (n : Nat) (g : Core → Core) : (s.modCoreAt n g).safety = s.safety := by unfold State.modCoreAt; split <;> rfl
@[simp] theorem State.modCoreAt_power (s : State) (n : Nat) (g : Core → Core) : (s.modCoreAt n g).power = s.power := by unfold State.modCoreAt; split <;> rfl
@[simp] theorem State.modCoreAt_tap (s : State) (n : Nat) (g : Core → Core) : (s.modCoreAt n g).tap = s.tap := by unfold State.modCoreAt; split <;> rfl

/-! visorCount -/

@[simp] theorem State.visorCount_pending (s : State) (i n e : Nat) (p : Option Nat) (b : Nat) : (s.visorCount i n e p b).pending = s.pending := by unfold State.visorCount; split <;> rfl
@[simp] theorem State.visorCount_out (s : State) (i n e : Nat) (p : Option Nat) (b : Nat) : (s.visorCount i n e p b).out = s.out := by unfold State.visorCount; split <;> rfl
@[simp] theorem State.visorCount_free (s : State) (i n e : Nat) (p : Option Nat) (b : Nat) : (s.visorCount i n e p b).free = s.free := by unfold State.visorCount; split <;> rfl
@[simp] theorem State.visorCount_mem (s : State) (i n e : Nat) (p : Option Nat) (b : Nat) : (s.visorCount i n e p b).mem = s.mem := by unfold State.visorCount; split <;> rfl
@[simp] theorem State.visorCount_ecc (s : State) (i n e : Nat) (p : Option Nat) (b : Nat) : (s.visorCount i n e p b).ecc = s.ecc := by unfold State.visorCount; split <;> rfl
@[simp] theorem State.visorCount_writeBack (s : State) (i n e : Nat) (p : Option Nat) (b : Nat) : (s.visorCount i n e p b).writeBack = s.writeBack := by unfold State.visorCount; split <;> rfl
@[simp] theorem State.visorCount_banks (s : State) (i n e : Nat) (p : Option Nat) (b : Nat) : (s.visorCount i n e p b).banks = s.banks := by unfold State.visorCount; split <;> rfl
@[simp] theorem State.visorCount_lost (s : State) (i n e : Nat) (p : Option Nat) (b : Nat) : (s.visorCount i n e p b).lost = s.lost := by unfold State.visorCount; split <;> rfl
@[simp] theorem State.visorCount_dmaLast (s : State) (i n e : Nat) (p : Option Nat) (b : Nat) : (s.visorCount i n e p b).dmaLast = s.dmaLast := by unfold State.visorCount; split <;> rfl
@[simp] theorem State.visorCount_stalled (s : State) (i n e : Nat) (p : Option Nat) (b : Nat) : (s.visorCount i n e p b).stalled = s.stalled := by unfold State.visorCount; split <;> rfl
@[simp] theorem State.visorCount_cores (s : State) (i n e : Nat) (p : Option Nat) (b : Nat) : (s.visorCount i n e p b).cores = s.cores := by unfold State.visorCount; split <;> rfl
@[simp] theorem State.visorCount_sems (s : State) (i n e : Nat) (p : Option Nat) (b : Nat) : (s.visorCount i n e p b).sems = s.sems := by unfold State.visorCount; split <;> rfl
@[simp] theorem State.visorCount_semOwner (s : State) (i n e : Nat) (p : Option Nat) (b : Nat) : (s.visorCount i n e p b).semOwner = s.semOwner := by unfold State.visorCount; split <;> rfl
@[simp] theorem State.visorCount_waiters (s : State) (i n e : Nat) (p : Option Nat) (b : Nat) : (s.visorCount i n e p b).waiters = s.waiters := by unfold State.visorCount; split <;> rfl
@[simp] theorem State.visorCount_ticket (s : State) (i n e : Nat) (p : Option Nat) (b : Nat) : (s.visorCount i n e p b).ticket = s.ticket := by unfold State.visorCount; split <;> rfl
@[simp] theorem State.visorCount_dmas (s : State) (i n e : Nat) (p : Option Nat) (b : Nat) : (s.visorCount i n e p b).dmas = s.dmas := by unfold State.visorCount; split <;> rfl
@[simp] theorem State.visorCount_roleGen (s : State) (i n e : Nat) (p : Option Nat) (b : Nat) : (s.visorCount i n e p b).roleGen = s.roleGen := by unfold State.visorCount; split <;> rfl
@[simp] theorem State.visorCount_dict (s : State) (i n e : Nat) (p : Option Nat) (b : Nat) : (s.visorCount i n e p b).dict = s.dict := by unfold State.visorCount; split <;> rfl
@[simp] theorem State.visorCount_dictP (s : State) (i n e : Nat) (p : Option Nat) (b : Nat) : (s.visorCount i n e p b).dictP = s.dictP := by unfold State.visorCount; split <;> rfl
@[simp] theorem State.visorCount_logical (s : State) (i n e : Nat) (p : Option Nat) (b : Nat) : (s.visorCount i n e p b).logical = s.logical := by unfold State.visorCount; split <;> rfl
@[simp] theorem State.visorCount_segOwner (s : State) (i n e : Nat) (p : Option Nat) (b : Nat) : (s.visorCount i n e p b).segOwner = s.segOwner := by unfold State.visorCount; split <;> rfl
@[simp] theorem State.visorCount_segStack (s : State) (i n e : Nat) (p : Option Nat) (b : Nat) : (s.visorCount i n e p b).segStack = s.segStack := by unfold State.visorCount; split <;> rfl
@[simp] theorem State.visorCount_bankOwner (s : State) (i n e : Nat) (p : Option Nat) (b : Nat) : (s.visorCount i n e p b).bankOwner = s.bankOwner := by unfold State.visorCount; split <;> rfl
@[simp] theorem State.visorCount_jobs (s : State) (i n e : Nat) (p : Option Nat) (b : Nat) : (s.visorCount i n e p b).jobs = s.jobs := by unfold State.visorCount; split <;> rfl
@[simp] theorem State.visorCount_loans (s : State) (i n e : Nat) (p : Option Nat) (b : Nat) : (s.visorCount i n e p b).loans = s.loans := by unfold State.visorCount; split <;> rfl
@[simp] theorem State.visorCount_latches (s : State) (i n e : Nat) (p : Option Nat) (b : Nat) : (s.visorCount i n e p b).latches = s.latches := by unfold State.visorCount; split <;> rfl
@[simp] theorem State.visorCount_latchHeld (s : State) (i n e : Nat) (p : Option Nat) (b : Nat) : (s.visorCount i n e p b).latchHeld = s.latchHeld := by unfold State.visorCount; split <;> rfl
@[simp] theorem State.visorCount_collQ (s : State) (i n e : Nat) (p : Option Nat) (b : Nat) : (s.visorCount i n e p b).collQ = s.collQ := by unfold State.visorCount; split <;> rfl
@[simp] theorem State.visorCount_collCycle (s : State) (i n e : Nat) (p : Option Nat) (b : Nat) : (s.visorCount i n e p b).collCycle = s.collCycle := by unfold State.visorCount; split <;> rfl
@[simp] theorem State.visorCount_sigs (s : State) (i n e : Nat) (p : Option Nat) (b : Nat) : (s.visorCount i n e p b).sigs = s.sigs := by unfold State.visorCount; split <;> rfl
@[simp] theorem State.visorCount_radio (s : State) (i n e : Nat) (p : Option Nat) (b : Nat) : (s.visorCount i n e p b).radio = s.radio := by unfold State.visorCount; split <;> rfl
@[simp] theorem State.visorCount_fr (s : State) (i n e : Nat) (p : Option Nat) (b : Nat) : (s.visorCount i n e p b).fr = s.fr := by unfold State.visorCount; split <;> rfl
@[simp] theorem State.visorCount_fab (s : State) (i n e : Nat) (p : Option Nat) (b : Nat) : (s.visorCount i n e p b).fab = s.fab := by unfold State.visorCount; split <;> rfl
@[simp] theorem State.visorCount_time (s : State) (i n e : Nat) (p : Option Nat) (b : Nat) : (s.visorCount i n e p b).time = s.time := by unfold State.visorCount; split <;> rfl
@[simp] theorem State.visorCount_host (s : State) (i n e : Nat) (p : Option Nat) (b : Nat) : (s.visorCount i n e p b).host = s.host := by unfold State.visorCount; split <;> rfl
@[simp] theorem State.visorCount_safety (s : State) (i n e : Nat) (p : Option Nat) (b : Nat) : (s.visorCount i n e p b).safety = s.safety := by unfold State.visorCount; split <;> rfl
@[simp] theorem State.visorCount_power (s : State) (i n e : Nat) (p : Option Nat) (b : Nat) : (s.visorCount i n e p b).power = s.power := by unfold State.visorCount; split <;> rfl
@[simp] theorem State.visorCount_tap (s : State) (i n e : Nat) (p : Option Nat) (b : Nat) : (s.visorCount i n e p b).tap = s.tap := by unfold State.visorCount; split <;> rfl

/-! raiseAt -/

@[simp] theorem State.raiseAt_pending (s : State) (t : Nat) (n : Notice) : (s.raiseAt t n).pending = s.pending := by unfold State.raiseAt; simp only []; split <;> simp [State.countDev]
@[simp] theorem State.raiseAt_out (s : State) (t : Nat) (n : Notice) : (s.raiseAt t n).out = s.out := by unfold State.raiseAt; simp only []; split <;> simp [State.countDev]
@[simp] theorem State.raiseAt_free (s : State) (t : Nat) (n : Notice) : (s.raiseAt t n).free = s.free := by unfold State.raiseAt; simp only []; split <;> simp [State.countDev]
@[simp] theorem State.raiseAt_mem (s : State) (t : Nat) (n : Notice) : (s.raiseAt t n).mem = s.mem := by unfold State.raiseAt; simp only []; split <;> simp [State.countDev]
@[simp] theorem State.raiseAt_ecc (s : State) (t : Nat) (n : Notice) : (s.raiseAt t n).ecc = s.ecc := by unfold State.raiseAt; simp only []; split <;> simp [State.countDev]
@[simp] theorem State.raiseAt_writeBack (s : State) (t : Nat) (n : Notice) : (s.raiseAt t n).writeBack = s.writeBack := by unfold State.raiseAt; simp only []; split <;> simp [State.countDev]
@[simp] theorem State.raiseAt_banks (s : State) (t : Nat) (n : Notice) : (s.raiseAt t n).banks = s.banks := by unfold State.raiseAt; simp only []; split <;> simp [State.countDev]
@[simp] theorem State.raiseAt_lost (s : State) (t : Nat) (n : Notice) : (s.raiseAt t n).lost = s.lost := by unfold State.raiseAt; simp only []; split <;> simp [State.countDev]
@[simp] theorem State.raiseAt_dmaLast (s : State) (t : Nat) (n : Notice) : (s.raiseAt t n).dmaLast = s.dmaLast := by unfold State.raiseAt; simp only []; split <;> simp [State.countDev]
@[simp] theorem State.raiseAt_stalled (s : State) (t : Nat) (n : Notice) : (s.raiseAt t n).stalled = s.stalled := by unfold State.raiseAt; simp only []; split <;> simp [State.countDev]
@[simp] theorem State.raiseAt_cores (s : State) (t : Nat) (n : Notice) : (s.raiseAt t n).cores = s.cores := by unfold State.raiseAt; simp only []; split <;> simp [State.countDev]
@[simp] theorem State.raiseAt_sems (s : State) (t : Nat) (n : Notice) : (s.raiseAt t n).sems = s.sems := by unfold State.raiseAt; simp only []; split <;> simp [State.countDev]
@[simp] theorem State.raiseAt_semOwner (s : State) (t : Nat) (n : Notice) : (s.raiseAt t n).semOwner = s.semOwner := by unfold State.raiseAt; simp only []; split <;> simp [State.countDev]
@[simp] theorem State.raiseAt_waiters (s : State) (t : Nat) (n : Notice) : (s.raiseAt t n).waiters = s.waiters := by unfold State.raiseAt; simp only []; split <;> simp [State.countDev]
@[simp] theorem State.raiseAt_ticket (s : State) (t : Nat) (n : Notice) : (s.raiseAt t n).ticket = s.ticket := by unfold State.raiseAt; simp only []; split <;> simp [State.countDev]
@[simp] theorem State.raiseAt_dmas (s : State) (t : Nat) (n : Notice) : (s.raiseAt t n).dmas = s.dmas := by unfold State.raiseAt; simp only []; split <;> simp [State.countDev]
@[simp] theorem State.raiseAt_roleGen (s : State) (t : Nat) (n : Notice) : (s.raiseAt t n).roleGen = s.roleGen := by unfold State.raiseAt; simp only []; split <;> simp [State.countDev]
@[simp] theorem State.raiseAt_dict (s : State) (t : Nat) (n : Notice) : (s.raiseAt t n).dict = s.dict := by unfold State.raiseAt; simp only []; split <;> simp [State.countDev]
@[simp] theorem State.raiseAt_dictP (s : State) (t : Nat) (n : Notice) : (s.raiseAt t n).dictP = s.dictP := by unfold State.raiseAt; simp only []; split <;> simp [State.countDev]
@[simp] theorem State.raiseAt_logical (s : State) (t : Nat) (n : Notice) : (s.raiseAt t n).logical = s.logical := by unfold State.raiseAt; simp only []; split <;> simp [State.countDev]
@[simp] theorem State.raiseAt_segOwner (s : State) (t : Nat) (n : Notice) : (s.raiseAt t n).segOwner = s.segOwner := by unfold State.raiseAt; simp only []; split <;> simp [State.countDev]
@[simp] theorem State.raiseAt_segStack (s : State) (t : Nat) (n : Notice) : (s.raiseAt t n).segStack = s.segStack := by unfold State.raiseAt; simp only []; split <;> simp [State.countDev]
@[simp] theorem State.raiseAt_bankOwner (s : State) (t : Nat) (n : Notice) : (s.raiseAt t n).bankOwner = s.bankOwner := by unfold State.raiseAt; simp only []; split <;> simp [State.countDev]
@[simp] theorem State.raiseAt_jobs (s : State) (t : Nat) (n : Notice) : (s.raiseAt t n).jobs = s.jobs := by unfold State.raiseAt; simp only []; split <;> simp [State.countDev]
@[simp] theorem State.raiseAt_loans (s : State) (t : Nat) (n : Notice) : (s.raiseAt t n).loans = s.loans := by unfold State.raiseAt; simp only []; split <;> simp [State.countDev]
@[simp] theorem State.raiseAt_latches (s : State) (t : Nat) (n : Notice) : (s.raiseAt t n).latches = s.latches := by unfold State.raiseAt; simp only []; split <;> simp [State.countDev]
@[simp] theorem State.raiseAt_latchHeld (s : State) (t : Nat) (n : Notice) : (s.raiseAt t n).latchHeld = s.latchHeld := by unfold State.raiseAt; simp only []; split <;> simp [State.countDev]
@[simp] theorem State.raiseAt_collQ (s : State) (t : Nat) (n : Notice) : (s.raiseAt t n).collQ = s.collQ := by unfold State.raiseAt; simp only []; split <;> simp [State.countDev]
@[simp] theorem State.raiseAt_collCycle (s : State) (t : Nat) (n : Notice) : (s.raiseAt t n).collCycle = s.collCycle := by unfold State.raiseAt; simp only []; split <;> simp [State.countDev]
@[simp] theorem State.raiseAt_sigs (s : State) (t : Nat) (n : Notice) : (s.raiseAt t n).sigs = s.sigs := by unfold State.raiseAt; simp only []; split <;> simp [State.countDev]
@[simp] theorem State.raiseAt_radio (s : State) (t : Nat) (n : Notice) : (s.raiseAt t n).radio = s.radio := by unfold State.raiseAt; simp only []; split <;> simp [State.countDev]
@[simp] theorem State.raiseAt_fr (s : State) (t : Nat) (n : Notice) : (s.raiseAt t n).fr = s.fr := by unfold State.raiseAt; simp only []; split <;> simp [State.countDev]
@[simp] theorem State.raiseAt_fab (s : State) (t : Nat) (n : Notice) : (s.raiseAt t n).fab = s.fab := by unfold State.raiseAt; simp only []; split <;> simp [State.countDev]
@[simp] theorem State.raiseAt_time (s : State) (t : Nat) (n : Notice) : (s.raiseAt t n).time = s.time := by unfold State.raiseAt; simp only []; split <;> simp [State.countDev]
@[simp] theorem State.raiseAt_safety (s : State) (t : Nat) (n : Notice) : (s.raiseAt t n).safety = s.safety := by unfold State.raiseAt; simp only []; split <;> simp [State.countDev]
@[simp] theorem State.raiseAt_tap (s : State) (t : Nat) (n : Notice) : (s.raiseAt t n).tap = s.tap := by unfold State.raiseAt; simp only []; split <;> simp [State.countDev]
@[simp] theorem State.raiseAt_host_mail (s : State) (t : Nat) (n : Notice) : (s.raiseAt t n).host.mail = s.host.mail := by unfold State.raiseAt; simp only []; split <;> simp [State.countDev]
@[simp] theorem State.raiseAt_host_window (s : State) (t : Nat) (n : Notice) : (s.raiseAt t n).host.window = s.host.window := by unfold State.raiseAt; simp only []; split <;> simp [State.countDev]
@[simp] theorem State.raiseAt_host_xfers (s : State) (t : Nat) (n : Notice) : (s.raiseAt t n).host.xfers = s.host.xfers := by unfold State.raiseAt; simp only []; split <;> simp [State.countDev]
@[simp] theorem State.raiseAt_host_rings (s : State) (t : Nat) (n : Notice) : (s.raiseAt t n).host.rings = s.host.rings := by unfold State.raiseAt; simp only []; split <;> simp [State.countDev]
@[simp] theorem State.raiseAt_host_held (s : State) (t : Nat) (n : Notice) : (s.raiseAt t n).host.held = s.host.held := by unfold State.raiseAt; simp only []; split <;> simp [State.countDev]
@[simp] theorem State.raiseAt_host_pcieUp (s : State) (t : Nat) (n : Notice) : (s.raiseAt t n).host.pcieUp = s.host.pcieUp := by unfold State.raiseAt; simp only []; split <;> simp [State.countDev]
@[simp] theorem State.raiseAt_host_msixMask (s : State) (t : Nat) (n : Notice) : (s.raiseAt t n).host.msixMask = s.host.msixMask := by unfold State.raiseAt; simp only []; split <;> simp [State.countDev]
@[simp] theorem State.raiseAt_host_msixPending (s : State) (t : Nat) (n : Notice) : (s.raiseAt t n).host.msixPending = s.host.msixPending := by unfold State.raiseAt; simp only []; split <;> simp [State.countDev]
@[simp] theorem State.raiseAt_host_persists (s : State) (t : Nat) (n : Notice) : (s.raiseAt t n).host.persists = s.host.persists := by unfold State.raiseAt; simp only []; split <;> simp [State.countDev]
@[simp] theorem State.raiseAt_host_waiting (s : State) (t : Nat) (n : Notice) : (s.raiseAt t n).host.waiting = s.host.waiting := by unfold State.raiseAt; simp only []; split <;> simp [State.countDev]
@[simp] theorem State.raiseAt_host_journal (s : State) (t : Nat) (n : Notice) : (s.raiseAt t n).host.journal = s.host.journal := by unfold State.raiseAt; simp only []; split <;> simp [State.countDev]
@[simp] theorem State.raiseAt_power_level (s : State) (t : Nat) (n : Notice) : (s.raiseAt t n).power.level = s.power.level := by unfold State.raiseAt; simp only []; split <;> simp [State.countDev]
@[simp] theorem State.raiseAt_power_limit (s : State) (t : Nat) (n : Notice) : (s.raiseAt t n).power.limit = s.power.limit := by unfold State.raiseAt; simp only []; split <;> simp [State.countDev]
@[simp] theorem State.raiseAt_power_freq (s : State) (t : Nat) (n : Notice) : (s.raiseAt t n).power.freq = s.power.freq := by unfold State.raiseAt; simp only []; split <;> simp [State.countDev]
@[simp] theorem State.raiseAt_power_calm (s : State) (t : Nat) (n : Notice) : (s.raiseAt t n).power.calm = s.power.calm := by unfold State.raiseAt; simp only []; split <;> simp [State.countDev]
@[simp] theorem State.raiseAt_power_throttled (s : State) (t : Nat) (n : Notice) : (s.raiseAt t n).power.throttled = s.power.throttled := by unfold State.raiseAt; simp only []; split <;> simp [State.countDev]
@[simp] theorem State.raiseAt_power_hotCanton (s : State) (t : Nat) (n : Notice) : (s.raiseAt t n).power.hotCanton = s.power.hotCanton := by unfold State.raiseAt; simp only []; split <;> simp [State.countDev]
@[simp] theorem State.raiseAt_power_lostDomain (s : State) (t : Nat) (n : Notice) : (s.raiseAt t n).power.lostDomain = s.power.lostDomain := by unfold State.raiseAt; simp only []; split <;> simp [State.countDev]
@[simp] theorem State.raiseAt_power_capSteps (s : State) (t : Nat) (n : Notice) : (s.raiseAt t n).power.capSteps = s.power.capSteps := by unfold State.raiseAt; simp only []; split <;> simp [State.countDev]
@[simp] theorem State.raiseAt_power_railMv (s : State) (t : Nat) (n : Notice) : (s.raiseAt t n).power.railMv = s.power.railMv := by unfold State.raiseAt; simp only []; split <;> simp [State.countDev]
@[simp] theorem State.raiseAt_power_tripped (s : State) (t : Nat) (n : Notice) : (s.raiseAt t n).power.tripped = s.power.tripped := by unfold State.raiseAt; simp only []; split <;> simp [State.countDev]
@[simp] theorem State.raiseAt_power_tripTime (s : State) (t : Nat) (n : Notice) : (s.raiseAt t n).power.tripTime = s.power.tripTime := by unfold State.raiseAt; simp only []; split <;> simp [State.countDev]
@[simp] theorem State.raiseAt_power_stopped (s : State) (t : Nat) (n : Notice) : (s.raiseAt t n).power.stopped = s.power.stopped := by unfold State.raiseAt; simp only []; split <;> simp [State.countDev]
@[simp] theorem State.raiseAt_power_cause (s : State) (t : Nat) (n : Notice) : (s.raiseAt t n).power.cause = s.power.cause := by unfold State.raiseAt; simp only []; split <;> simp [State.countDev]
@[simp] theorem State.raiseAt_power_otherSlot (s : State) (t : Nat) (n : Notice) : (s.raiseAt t n).power.otherSlot = s.power.otherSlot := by unfold State.raiseAt; simp only []; split <;> simp [State.countDev]
@[simp] theorem State.raiseAt_power_powerFail (s : State) (t : Nat) (n : Notice) : (s.raiseAt t n).power.powerFail = s.power.powerFail := by unfold State.raiseAt; simp only []; split <;> simp [State.countDev]
@[simp] theorem State.raiseAt_power_straps (s : State) (t : Nat) (n : Notice) : (s.raiseAt t n).power.straps = s.power.straps := by unfold State.raiseAt; simp only []; split <;> simp [State.countDev]
@[simp] theorem State.raiseAt_power_verified (s : State) (t : Nat) (n : Notice) : (s.raiseAt t n).power.verified = s.power.verified := by unfold State.raiseAt; simp only []; split <;> simp [State.countDev]
@[simp] theorem State.raiseAt_power_hbmLost (s : State) (t : Nat) (n : Notice) : (s.raiseAt t n).power.hbmLost = s.power.hbmLost := by unfold State.raiseAt; simp only []; split <;> simp [State.countDev]
@[simp] theorem State.raiseAt_power_quadLost (s : State) (t : Nat) (n : Notice) : (s.raiseAt t n).power.quadLost = s.power.quadLost := by unfold State.raiseAt; simp only []; split <;> simp [State.countDev]
@[simp] theorem State.raiseAt_power_refreshOwed (s : State) (t : Nat) (n : Notice) : (s.raiseAt t n).power.refreshOwed = s.power.refreshOwed := by unfold State.raiseAt; simp only []; split <;> simp [State.countDev]

/-! setSem -/

@[simp] theorem State.setSem_pending (s : State) (n v : Nat) : (s.setSem n v).pending = s.pending := by unfold State.setSem State.semWatch; split <;> rfl
@[simp] theorem State.setSem_out (s : State) (n v : Nat) : (s.setSem n v).out = s.out := by unfold State.setSem State.semWatch; split <;> rfl
@[simp] theorem State.setSem_free (s : State) (n v : Nat) : (s.setSem n v).free = s.free := by unfold State.setSem State.semWatch; split <;> rfl
@[simp] theorem State.setSem_mem (s : State) (n v : Nat) : (s.setSem n v).mem = s.mem := by unfold State.setSem State.semWatch; split <;> rfl
@[simp] theorem State.setSem_ecc (s : State) (n v : Nat) : (s.setSem n v).ecc = s.ecc := by unfold State.setSem State.semWatch; split <;> rfl
@[simp] theorem State.setSem_writeBack (s : State) (n v : Nat) : (s.setSem n v).writeBack = s.writeBack := by unfold State.setSem State.semWatch; split <;> rfl
@[simp] theorem State.setSem_banks (s : State) (n v : Nat) : (s.setSem n v).banks = s.banks := by unfold State.setSem State.semWatch; split <;> rfl
@[simp] theorem State.setSem_lost (s : State) (n v : Nat) : (s.setSem n v).lost = s.lost := by unfold State.setSem State.semWatch; split <;> rfl
@[simp] theorem State.setSem_dmaLast (s : State) (n v : Nat) : (s.setSem n v).dmaLast = s.dmaLast := by unfold State.setSem State.semWatch; split <;> rfl
@[simp] theorem State.setSem_stalled (s : State) (n v : Nat) : (s.setSem n v).stalled = s.stalled := by unfold State.setSem State.semWatch; split <;> rfl
@[simp] theorem State.setSem_cores (s : State) (n v : Nat) : (s.setSem n v).cores = s.cores := by unfold State.setSem State.semWatch; split <;> rfl
@[simp] theorem State.setSem_semOwner (s : State) (n v : Nat) : (s.setSem n v).semOwner = s.semOwner := by unfold State.setSem State.semWatch; split <;> rfl
@[simp] theorem State.setSem_waiters (s : State) (n v : Nat) : (s.setSem n v).waiters = s.waiters := by unfold State.setSem State.semWatch; split <;> rfl
@[simp] theorem State.setSem_ticket (s : State) (n v : Nat) : (s.setSem n v).ticket = s.ticket := by unfold State.setSem State.semWatch; split <;> rfl
@[simp] theorem State.setSem_dmas (s : State) (n v : Nat) : (s.setSem n v).dmas = s.dmas := by unfold State.setSem State.semWatch; split <;> rfl
@[simp] theorem State.setSem_roleGen (s : State) (n v : Nat) : (s.setSem n v).roleGen = s.roleGen := by unfold State.setSem State.semWatch; split <;> rfl
@[simp] theorem State.setSem_dict (s : State) (n v : Nat) : (s.setSem n v).dict = s.dict := by unfold State.setSem State.semWatch; split <;> rfl
@[simp] theorem State.setSem_dictP (s : State) (n v : Nat) : (s.setSem n v).dictP = s.dictP := by unfold State.setSem State.semWatch; split <;> rfl
@[simp] theorem State.setSem_logical (s : State) (n v : Nat) : (s.setSem n v).logical = s.logical := by unfold State.setSem State.semWatch; split <;> rfl
@[simp] theorem State.setSem_segOwner (s : State) (n v : Nat) : (s.setSem n v).segOwner = s.segOwner := by unfold State.setSem State.semWatch; split <;> rfl
@[simp] theorem State.setSem_segStack (s : State) (n v : Nat) : (s.setSem n v).segStack = s.segStack := by unfold State.setSem State.semWatch; split <;> rfl
@[simp] theorem State.setSem_bankOwner (s : State) (n v : Nat) : (s.setSem n v).bankOwner = s.bankOwner := by unfold State.setSem State.semWatch; split <;> rfl
@[simp] theorem State.setSem_jobs (s : State) (n v : Nat) : (s.setSem n v).jobs = s.jobs := by unfold State.setSem State.semWatch; split <;> rfl
@[simp] theorem State.setSem_loans (s : State) (n v : Nat) : (s.setSem n v).loans = s.loans := by unfold State.setSem State.semWatch; split <;> rfl
@[simp] theorem State.setSem_latches (s : State) (n v : Nat) : (s.setSem n v).latches = s.latches := by unfold State.setSem State.semWatch; split <;> rfl
@[simp] theorem State.setSem_latchHeld (s : State) (n v : Nat) : (s.setSem n v).latchHeld = s.latchHeld := by unfold State.setSem State.semWatch; split <;> rfl
@[simp] theorem State.setSem_collQ (s : State) (n v : Nat) : (s.setSem n v).collQ = s.collQ := by unfold State.setSem State.semWatch; split <;> rfl
@[simp] theorem State.setSem_collCycle (s : State) (n v : Nat) : (s.setSem n v).collCycle = s.collCycle := by unfold State.setSem State.semWatch; split <;> rfl
@[simp] theorem State.setSem_radio (s : State) (n v : Nat) : (s.setSem n v).radio = s.radio := by unfold State.setSem State.semWatch; split <;> rfl
@[simp] theorem State.setSem_fr (s : State) (n v : Nat) : (s.setSem n v).fr = s.fr := by unfold State.setSem State.semWatch; split <;> rfl
@[simp] theorem State.setSem_fab (s : State) (n v : Nat) : (s.setSem n v).fab = s.fab := by unfold State.setSem State.semWatch; split <;> rfl
@[simp] theorem State.setSem_time (s : State) (n v : Nat) : (s.setSem n v).time = s.time := by unfold State.setSem State.semWatch; split <;> rfl
@[simp] theorem State.setSem_host (s : State) (n v : Nat) : (s.setSem n v).host = s.host := by unfold State.setSem State.semWatch; split <;> rfl
@[simp] theorem State.setSem_visor (s : State) (n v : Nat) : (s.setSem n v).visor = s.visor := by unfold State.setSem State.semWatch; split <;> rfl
@[simp] theorem State.setSem_safety (s : State) (n v : Nat) : (s.setSem n v).safety = s.safety := by unfold State.setSem State.semWatch; split <;> rfl
@[simp] theorem State.setSem_power (s : State) (n v : Nat) : (s.setSem n v).power = s.power := by unfold State.setSem State.semWatch; split <;> rfl
@[simp] theorem State.setSem_tap (s : State) (n v : Nat) : (s.setSem n v).tap = s.tap := by unfold State.setSem State.semWatch; split <;> rfl
@[simp] theorem State.setSem_sems (s : State) (n v : Nat) : (s.setSem n v).sems = sput s.sems zeroD n v := by unfold State.setSem State.semWatch; split <;> rfl

/-! A write touches the bytes, their check bits and write-backs, the rows' valid bits and Visor's counts: nothing else. -/

/-- Marking a row valid changes the banks, the latent errors and the pending write-backs, nothing else (R193). -/
theorem State.touchRow_frame (s : State) (a : Nat) :
    s.touchRow a = { s with banks := (s.touchRow a).banks, ecc := (s.touchRow a).ecc, writeBack := (s.touchRow a).writeBack } := by
  unfold State.touchRow; split <;> [(simp only []; split <;> rfl); rfl]

theorem State.touchRows_frame (s : State) (a n : Nat) :
    s.touchRows a n =
      { s with banks := (s.touchRows a n).banks, ecc := (s.touchRows a n).ecc, writeBack := (s.touchRows a n).writeBack } := by
  unfold State.touchRows
  split
  · rfl
  · rename_i h
    clear h
    generalize probes 64 a n = l
    induction l generalizing s with
    | nil => rfl
    | cons x xs ih =>
      rw [List.foldl_cons, ih, State.touchRow_frame s x]

/-- Counting an ECC error changes Visor only (R185, R560). -/
theorem State.countEcc_frame (s : State) (a : Nat) (b : Bool) :
    s.countEcc a b = { s with visor := (s.countEcc a b).visor } := by
  have hv : ∀ i n e p b, s.visorCount i n e p b = { s with visor := (s.visorCount i n e p b).visor } := by
    intro i n e p b; unfold State.visorCount; split <;> rfl
  unfold State.countEcc State.countCore State.countCanton State.countDev
  split
  · split
    · exact hv ..
    · split <;> exact hv ..
  · exact hv ..
  · rfl

theorem State.eccMerge_frame (s : State) (a n : Nat) :
    s.eccMerge a n = { s with visor := (s.eccMerge a n).visor } := by
  suffices h : ∀ (l : SMap EccErr) (f : State → Nat × EccErr → State), (∀ t e, f t e = { t with visor := (f t e).visor }) →
      ∀ t : State, l.foldl f t = { t with visor := (l.foldl f t).visor } by
    refine h _ _ (fun t e => ?_) s
    split
    · exact State.countEcc_frame ..
    · rfl
  intro l f hf
  induction l with
  | nil => intro t; rfl
  | cons x xs ih => intro t; rw [List.foldl_cons, ih, hf]

/-- What a write changes: the bytes, the latent errors, the write-backs, the rows' valid bits and Visor's counts. -/
theorem State.wr_frame (s : State) (a n v : Nat) :
    s.wr a n v =
      { s with
        mem := writeMem s.mem a n v, ecc := (s.wr a n v).ecc, writeBack := (s.wr a n v).writeBack
        banks := (s.touchRows a n).banks, visor := (s.wr a n v).visor } := by
  simp only [State.wr]
  rw [State.eccMerge_frame, State.touchRows_frame]

/-! touchRow -/

@[simp] theorem State.touchRow_pending (s : State) (a : Nat) : (s.touchRow a).pending = s.pending := by rw [State.touchRow_frame]
@[simp] theorem State.touchRow_out (s : State) (a : Nat) : (s.touchRow a).out = s.out := by rw [State.touchRow_frame]
@[simp] theorem State.touchRow_free (s : State) (a : Nat) : (s.touchRow a).free = s.free := by rw [State.touchRow_frame]
@[simp] theorem State.touchRow_mem (s : State) (a : Nat) : (s.touchRow a).mem = s.mem := by rw [State.touchRow_frame]
@[simp] theorem State.touchRow_lost (s : State) (a : Nat) : (s.touchRow a).lost = s.lost := by rw [State.touchRow_frame]
@[simp] theorem State.touchRow_dmaLast (s : State) (a : Nat) : (s.touchRow a).dmaLast = s.dmaLast := by rw [State.touchRow_frame]
@[simp] theorem State.touchRow_stalled (s : State) (a : Nat) : (s.touchRow a).stalled = s.stalled := by rw [State.touchRow_frame]
@[simp] theorem State.touchRow_cores (s : State) (a : Nat) : (s.touchRow a).cores = s.cores := by rw [State.touchRow_frame]
@[simp] theorem State.touchRow_sems (s : State) (a : Nat) : (s.touchRow a).sems = s.sems := by rw [State.touchRow_frame]
@[simp] theorem State.touchRow_semOwner (s : State) (a : Nat) : (s.touchRow a).semOwner = s.semOwner := by rw [State.touchRow_frame]
@[simp] theorem State.touchRow_waiters (s : State) (a : Nat) : (s.touchRow a).waiters = s.waiters := by rw [State.touchRow_frame]
@[simp] theorem State.touchRow_ticket (s : State) (a : Nat) : (s.touchRow a).ticket = s.ticket := by rw [State.touchRow_frame]
@[simp] theorem State.touchRow_dmas (s : State) (a : Nat) : (s.touchRow a).dmas = s.dmas := by rw [State.touchRow_frame]
@[simp] theorem State.touchRow_roleGen (s : State) (a : Nat) : (s.touchRow a).roleGen = s.roleGen := by rw [State.touchRow_frame]
@[simp] theorem State.touchRow_dict (s : State) (a : Nat) : (s.touchRow a).dict = s.dict := by rw [State.touchRow_frame]
@[simp] theorem State.touchRow_dictP (s : State) (a : Nat) : (s.touchRow a).dictP = s.dictP := by rw [State.touchRow_frame]
@[simp] theorem State.touchRow_logical (s : State) (a : Nat) : (s.touchRow a).logical = s.logical := by rw [State.touchRow_frame]
@[simp] theorem State.touchRow_segOwner (s : State) (a : Nat) : (s.touchRow a).segOwner = s.segOwner := by rw [State.touchRow_frame]
@[simp] theorem State.touchRow_segStack (s : State) (a : Nat) : (s.touchRow a).segStack = s.segStack := by rw [State.touchRow_frame]
@[simp] theorem State.touchRow_bankOwner (s : State) (a : Nat) : (s.touchRow a).bankOwner = s.bankOwner := by rw [State.touchRow_frame]
@[simp] theorem State.touchRow_jobs (s : State) (a : Nat) : (s.touchRow a).jobs = s.jobs := by rw [State.touchRow_frame]
@[simp] theorem State.touchRow_loans (s : State) (a : Nat) : (s.touchRow a).loans = s.loans := by rw [State.touchRow_frame]
@[simp] theorem State.touchRow_latches (s : State) (a : Nat) : (s.touchRow a).latches = s.latches := by rw [State.touchRow_frame]
@[simp] theorem State.touchRow_latchHeld (s : State) (a : Nat) : (s.touchRow a).latchHeld = s.latchHeld := by rw [State.touchRow_frame]
@[simp] theorem State.touchRow_collQ (s : State) (a : Nat) : (s.touchRow a).collQ = s.collQ := by rw [State.touchRow_frame]
@[simp] theorem State.touchRow_collCycle (s : State) (a : Nat) : (s.touchRow a).collCycle = s.collCycle := by rw [State.touchRow_frame]
@[simp] theorem State.touchRow_sigs (s : State) (a : Nat) : (s.touchRow a).sigs = s.sigs := by rw [State.touchRow_frame]
@[simp] theorem State.touchRow_radio (s : State) (a : Nat) : (s.touchRow a).radio = s.radio := by rw [State.touchRow_frame]
@[simp] theorem State.touchRow_fr (s : State) (a : Nat) : (s.touchRow a).fr = s.fr := by rw [State.touchRow_frame]
@[simp] theorem State.touchRow_fab (s : State) (a : Nat) : (s.touchRow a).fab = s.fab := by rw [State.touchRow_frame]
@[simp] theorem State.touchRow_time (s : State) (a : Nat) : (s.touchRow a).time = s.time := by rw [State.touchRow_frame]
@[simp] theorem State.touchRow_host (s : State) (a : Nat) : (s.touchRow a).host = s.host := by rw [State.touchRow_frame]
@[simp] theorem State.touchRow_visor (s : State) (a : Nat) : (s.touchRow a).visor = s.visor := by rw [State.touchRow_frame]
@[simp] theorem State.touchRow_safety (s : State) (a : Nat) : (s.touchRow a).safety = s.safety := by rw [State.touchRow_frame]
@[simp] theorem State.touchRow_power (s : State) (a : Nat) : (s.touchRow a).power = s.power := by rw [State.touchRow_frame]
@[simp] theorem State.touchRow_tap (s : State) (a : Nat) : (s.touchRow a).tap = s.tap := by rw [State.touchRow_frame]

/-! wr -/

@[simp] theorem State.wr_pending (s : State) (a n v : Nat) : (s.wr a n v).pending = s.pending := by rw [State.wr_frame]
@[simp] theorem State.wr_out (s : State) (a n v : Nat) : (s.wr a n v).out = s.out := by rw [State.wr_frame]
@[simp] theorem State.wr_free (s : State) (a n v : Nat) : (s.wr a n v).free = s.free := by rw [State.wr_frame]
@[simp] theorem State.wr_lost (s : State) (a n v : Nat) : (s.wr a n v).lost = s.lost := by rw [State.wr_frame]
@[simp] theorem State.wr_dmaLast (s : State) (a n v : Nat) : (s.wr a n v).dmaLast = s.dmaLast := by rw [State.wr_frame]
@[simp] theorem State.wr_stalled (s : State) (a n v : Nat) : (s.wr a n v).stalled = s.stalled := by rw [State.wr_frame]
@[simp] theorem State.wr_cores (s : State) (a n v : Nat) : (s.wr a n v).cores = s.cores := by rw [State.wr_frame]
@[simp] theorem State.wr_sems (s : State) (a n v : Nat) : (s.wr a n v).sems = s.sems := by rw [State.wr_frame]
@[simp] theorem State.wr_semOwner (s : State) (a n v : Nat) : (s.wr a n v).semOwner = s.semOwner := by rw [State.wr_frame]
@[simp] theorem State.wr_waiters (s : State) (a n v : Nat) : (s.wr a n v).waiters = s.waiters := by rw [State.wr_frame]
@[simp] theorem State.wr_ticket (s : State) (a n v : Nat) : (s.wr a n v).ticket = s.ticket := by rw [State.wr_frame]
@[simp] theorem State.wr_dmas (s : State) (a n v : Nat) : (s.wr a n v).dmas = s.dmas := by rw [State.wr_frame]
@[simp] theorem State.wr_roleGen (s : State) (a n v : Nat) : (s.wr a n v).roleGen = s.roleGen := by rw [State.wr_frame]
@[simp] theorem State.wr_dict (s : State) (a n v : Nat) : (s.wr a n v).dict = s.dict := by rw [State.wr_frame]
@[simp] theorem State.wr_dictP (s : State) (a n v : Nat) : (s.wr a n v).dictP = s.dictP := by rw [State.wr_frame]
@[simp] theorem State.wr_logical (s : State) (a n v : Nat) : (s.wr a n v).logical = s.logical := by rw [State.wr_frame]
@[simp] theorem State.wr_segOwner (s : State) (a n v : Nat) : (s.wr a n v).segOwner = s.segOwner := by rw [State.wr_frame]
@[simp] theorem State.wr_segStack (s : State) (a n v : Nat) : (s.wr a n v).segStack = s.segStack := by rw [State.wr_frame]
@[simp] theorem State.wr_bankOwner (s : State) (a n v : Nat) : (s.wr a n v).bankOwner = s.bankOwner := by rw [State.wr_frame]
@[simp] theorem State.wr_jobs (s : State) (a n v : Nat) : (s.wr a n v).jobs = s.jobs := by rw [State.wr_frame]
@[simp] theorem State.wr_loans (s : State) (a n v : Nat) : (s.wr a n v).loans = s.loans := by rw [State.wr_frame]
@[simp] theorem State.wr_latches (s : State) (a n v : Nat) : (s.wr a n v).latches = s.latches := by rw [State.wr_frame]
@[simp] theorem State.wr_latchHeld (s : State) (a n v : Nat) : (s.wr a n v).latchHeld = s.latchHeld := by rw [State.wr_frame]
@[simp] theorem State.wr_collQ (s : State) (a n v : Nat) : (s.wr a n v).collQ = s.collQ := by rw [State.wr_frame]
@[simp] theorem State.wr_collCycle (s : State) (a n v : Nat) : (s.wr a n v).collCycle = s.collCycle := by rw [State.wr_frame]
@[simp] theorem State.wr_sigs (s : State) (a n v : Nat) : (s.wr a n v).sigs = s.sigs := by rw [State.wr_frame]
@[simp] theorem State.wr_radio (s : State) (a n v : Nat) : (s.wr a n v).radio = s.radio := by rw [State.wr_frame]
@[simp] theorem State.wr_fr (s : State) (a n v : Nat) : (s.wr a n v).fr = s.fr := by rw [State.wr_frame]
@[simp] theorem State.wr_fab (s : State) (a n v : Nat) : (s.wr a n v).fab = s.fab := by rw [State.wr_frame]
@[simp] theorem State.wr_time (s : State) (a n v : Nat) : (s.wr a n v).time = s.time := by rw [State.wr_frame]
@[simp] theorem State.wr_host (s : State) (a n v : Nat) : (s.wr a n v).host = s.host := by rw [State.wr_frame]
@[simp] theorem State.wr_safety (s : State) (a n v : Nat) : (s.wr a n v).safety = s.safety := by rw [State.wr_frame]
@[simp] theorem State.wr_power (s : State) (a n v : Nat) : (s.wr a n v).power = s.power := by rw [State.wr_frame]
@[simp] theorem State.wr_tap (s : State) (a n v : Nat) : (s.wr a n v).tap = s.tap := by rw [State.wr_frame]
@[simp] theorem State.wr_mem (s : State) (a n v : Nat) : (s.wr a n v).mem = writeMem s.mem a n v := by rw [State.wr_frame]
@[simp] theorem State.wr_banks (s : State) (a n v : Nat) : (s.wr a n v).banks = (s.touchRows a n).banks := by rw [State.wr_frame]

end Sys2Proof.Machine
end

