-- ==== Sys2Proof/Laws/Memory.lean ====
section
/-! SUPPORT. Laws of memory: every operation on it keeps the canonical form, a write stores exactly its bytes, and
reset's memory has the form. -/

namespace Sys2Proof.Machine

theorem Memory.wf_nil : Memory.wf [] := swf_nil _

/-- Memory after reset is in canonical form. -/
theorem State.reset_mem_wf : Memory.wf State.reset.mem := by
  show Memory.wf []
  exact Memory.wf_nil

/-- Bytes stored keep the canonical form. -/
theorem writeMem_wf {m : SMap Byte} (hm : Memory.wf m) (a n v : Nat) : Memory.wf (writeMem m a n v) := by
  induction n generalizing m a v with
  | zero => exact hm
  | succ n ih => exact ih (sput_wf hm a _) (a + 1) (v / 256)

/-- Bytes cleared keep the canonical form. -/
theorem zeroMem_wf {m : SMap Byte} (hm : Memory.wf m) (a n : Nat) : Memory.wf (zeroMem m a n) := sclear_wf hm _

/-- Every write of the memory keeps the canonical form. -/
theorem State.wr_wf {s : State} (hs : Memory.wf s.mem) (a n v : Nat) : Memory.wf (s.wr a n v).mem := by
  rw [State.wr_mem]; exact writeMem_wf hs a n v

/-- Byte b after n bytes of v are stored from a: byte b - a of v inside them, as before outside. -/
theorem sget_writeMem {m : SMap Byte} (hm : Memory.wf m) (a n v b : Nat) :
    sget (writeMem m a n v) memDef b =
      if a ≤ b ∧ b < a + n then BitVec.ofNat 8 (v / 256 ^ (b - a)) else sget m memDef b := by
  induction n generalizing m a v with
  | zero => rw [if_neg (by omega)]; rfl
  | succ n ih =>
    show sget (writeMem (sput m memDef a (BitVec.ofNat 8 v)) (a + 1) n (v / 256)) memDef b = _
    rw [ih (sput_wf hm a _), sget_sput hm.1]
    by_cases h1 : b = a
    · subst h1
      rw [if_neg (by omega), if_pos rfl, if_pos (by omega), Nat.sub_self, pow_zero, Nat.div_one]
    · by_cases h2 : a + 1 ≤ b ∧ b < a + 1 + n
      · rw [if_pos h2, if_pos (by omega), Nat.div_div_eq_div_mul, ← pow_succ']
        congr 3
        omega
      · rw [if_neg h2, if_neg h1, if_neg (by omega)]

/-- A byte outside the bytes stored reads as before. -/
theorem State.byte_wr_outside {s : State} (hs : Memory.wf s.mem) {a n v b : Nat} (h : b < a ∨ a + n ≤ b) :
    (s.wr a n v).byte b = s.byte b := by
  simp only [State.byte, State.wr_mem]
  rw [sget_writeMem hs, if_neg (by omega)]

/-- A byte among those stored reads as its part of the value. -/
theorem State.byte_wr_inside {s : State} (hs : Memory.wf s.mem) {a n v b : Nat} (h1 : a ≤ b) (h2 : b < a + n) :
    (s.wr a n v).byte b = BitVec.ofNat 8 (v / 256 ^ (b - a)) := by
  simp only [State.byte, State.wr_mem]
  rw [sget_writeMem hs, if_pos ⟨h1, h2⟩]

/-- A byte cleared reads as zero, any other as before. -/
theorem sget_zeroMem (m : SMap Byte) (a n b : Nat) :
    sget (zeroMem m a n) memDef b = if a ≤ b ∧ b < a + n then 0#8 else sget m memDef b := by
  rw [zeroMem, sget_sclear]
  simp [memDef]

/-- Memories that agree on the bytes from a read alike there. -/
theorem readMem_congr {m k : SMap Byte} {a n : Nat} (h : ∀ b, a ≤ b → b < a + n → sget m memDef b = sget k memDef b) :
    readMem m a n = readMem k a n := by
  induction n generalizing a with
  | zero => rfl
  | succ n ih =>
    simp only [readMem]
    rw [h a (Nat.le_refl a) (by omega), ih fun b h1 h2 => h b (by omega) (by omega)]

/-- n bytes read are below 256^n. -/
theorem readMem_lt (m : SMap Byte) (a n : Nat) : readMem m a n < 256 ^ n := by
  induction n generalizing a with
  | zero => simp [readMem]
  | succ n ih =>
    have h := ih (a + 1)
    have h1 : (sget m memDef a).toNat < 256 := (sget m memDef a).isLt
    simp only [readMem]
    rw [pow_succ]
    omega

/-- What was stored is what is read. -/
theorem readMem_writeMem_same {m : SMap Byte} (hm : Memory.wf m) (a n v : Nat) :
    readMem (writeMem m a n v) a n = v % 256 ^ n := by
  induction n generalizing m a v with
  | zero => simp [readMem, Nat.mod_one]
  | succ n ih =>
    have e : readMem (writeMem m a (n + 1) v) (a + 1) n = v / 256 % 256 ^ n := ih (sput_wf hm a _) (a + 1) (v / 256)
    simp only [readMem]
    rw [e, sget_writeMem hm, if_pos ⟨le_refl _, by omega⟩]
    simp only [Nat.sub_self, pow_zero, Nat.div_one, BitVec.toNat_ofNat]
    rw [pow_succ' 256 n, Nat.mod_mul, show (2 : Nat) ^ 8 = 256 from rfl]

/-- A range apart from the bytes stored reads as before. -/
theorem readMem_writeMem_apart {m : SMap Byte} (hm : Memory.wf m) {a n v b k : Nat} (h : b + k ≤ a ∨ a + n ≤ b) :
    readMem (writeMem m a n v) b k = readMem m b k :=
  readMem_congr fun c h1 h2 => by rw [sget_writeMem hm, if_neg (by omega)]

end Sys2Proof.Machine
end

