-- ==== Sys2Proof/Laws/Ops.lean ====
section
/-! SUPPORT. What each shared operation does, said once: reads after updates of the units of the state, and the shape of
the state after a count, a notice, a semaphore update, a write and a command fault. -/

namespace Sys2Proof.Machine

/-! ### Reads after updates -/

@[simp] theorem State.core_setCore_same (s : State) (p : CoreId) (c : Core) : (s.setCore p c).core p = c := by
  simp [State.core]

theorem State.core_setCore_other (s : State) {p q : CoreId} (h : q ≠ p) (c : Core) :
    (s.setCore p c).core q = s.core q := by
  have : p.val ≠ q.val := fun e => h (Fin.ext e.symm)
  simp [State.core, Vector.getElem_set_ne _ _ this]

@[simp] theorem State.sig_setSig_same (s : State) (g : SigId) (c : Sig) : (s.setSig g c).sig g = c := by
  simp [State.sig]

theorem State.sig_setSig_other (s : State) {g h : SigId} (hn : h ≠ g) (c : Sig) : (s.setSig g c).sig h = s.sig h := by
  have : g.val ≠ h.val := fun e => hn (Fin.ext e.symm)
  simp [State.sig, Vector.getElem_set_ne _ _ this]

theorem State.coreAt_of_lt (s : State) {n : Nat} (h : n < 72) : s.coreAt n = s.core ⟨n, h⟩ := by
  simp [State.coreAt, h]

theorem State.modCoreAt_of_lt (s : State) {n : Nat} (h : n < 72) (f : Core → Core) :
    s.modCoreAt n f = s.setCore ⟨n, h⟩ (f (s.core ⟨n, h⟩)) := by
  simp [State.modCoreAt, h]

theorem State.modCoreAt_of_ge (s : State) {n : Nat} (h : 72 ≤ n) (f : Core → Core) : s.modCoreAt n f = s := by
  simp [State.modCoreAt, Nat.not_lt.2 h]

theorem State.coreAt_modCoreAt_same (s : State) {n : Nat} (h : n < 72) (f : Core → Core) :
    (s.modCoreAt n f).coreAt n = f (s.coreAt n) := by
  rw [s.modCoreAt_of_lt h, State.coreAt_of_lt _ h, s.coreAt_of_lt h, State.core_setCore_same]

theorem State.coreAt_modCoreAt_other (s : State) {n k : Nat} (h : k ≠ n) (f : Core → Core) :
    (s.modCoreAt n f).coreAt k = s.coreAt k := by
  by_cases hn : n < 72
  · rw [s.modCoreAt_of_lt hn]
    by_cases hk : k < 72
    · rw [State.coreAt_of_lt _ hk, s.coreAt_of_lt hk]
      exact s.core_setCore_other (fun e => h (Fin.mk.inj_iff.1 e)) _
    · simp [State.coreAt, hk]
  · rw [s.modCoreAt_of_ge (Nat.not_lt.1 hn)]

/-- A stored entry reads what was stored. -/
theorem State.od_setOd_same {s : State} (hs : swf s.dict odDef) (i j v : Nat) : (s.setOd i j v).od i j = v := by
  simp only [State.od, State.setOd_dict]
  exact sget_sput_same hs.1 _ _

/-- An entry with another key reads as before. -/
theorem State.od_setOd_other (s : State) {i j k l : Nat} (h : odKey k l ≠ odKey i j) (v : Nat) :
    (s.setOd i j v).od k l = s.od k l := by
  simp only [State.od, State.setOd_dict]
  exact sget_sput_other _ h

/-- Index and sub-index are read off a key. -/
theorem odKey_inj {i j k l : Nat} (hj : j < 256) (hl : l < 256) (h : odKey i j = odKey k l) : i = k ∧ j = l := by
  simp only [odKey] at h
  omega

theorem State.setOd_dict_wf {s : State} (hs : swf s.dict odDef) (i j v : Nat) : swf (s.setOd i j v).dict odDef := by
  rw [State.setOd_dict]; exact sput_wf hs _ _

theorem State.semCount_setSem_same {s : State} (hs : swf s.sems zeroD) (n v : Nat) : (s.setSem n v).semCount n = v := by
  simp only [State.semCount, State.setSem_sems]
  exact sget_sput_same hs.1 _ _

theorem State.semCount_setSem_other (s : State) {n k : Nat} (h : k ≠ n) (v : Nat) :
    (s.setSem n v).semCount k = s.semCount k := by
  simp only [State.semCount, State.setSem_sems]
  exact sget_sput_other _ h

theorem State.setSem_sems_wf {s : State} (hs : swf s.sems zeroD) (n v : Nat) : swf (s.setSem n v).sems zeroD := by
  rw [State.setSem_sems]; exact sput_wf hs _ _

theorem State.bank_setBank_same {s : State} (hs : swf s.banks (fun _ => Bank.reset)) (b : Nat) (x : Bank) :
    (s.setBank b x).bank b = x := by
  simp only [State.bank, State.setBank_banks]
  exact sget_sput_same hs.1 _ _

theorem State.bank_setBank_other (s : State) {b c : Nat} (h : c ≠ b) (x : Bank) : (s.setBank b x).bank c = s.bank c := by
  simp only [State.bank, State.setBank_banks]
  exact sget_sput_other _ h

theorem State.setBank_banks_wf {s : State} (hs : swf s.banks (fun _ => Bank.reset)) (b : Nat) (x : Bank) :
    swf (s.setBank b x).banks (fun _ => Bank.reset) := by
  rw [State.setBank_banks]; exact sput_wf hs _ _

theorem State.ring_setRing_other (s : State) {f off g p : Nat} (h : ringKey g p ≠ ringKey f off) (r : Ring) :
    (s.setRing f off r).ring g p = s.ring g p := by
  simp only [State.ring, State.setRing_host_rings]
  exact sget_sput_other _ h

/-! ### Shapes -/

/-- A Visor count changes Visor's counters alone. -/
theorem State.visorCount_eq (s : State) (i n e : Nat) (p : Option Nat) (b : Nat) :
    s.visorCount i n e p b = { s with visor := (s.visorCount i n e p b).visor } := by
  unfold State.visorCount
  split <;> rfl

/-- While the counters hold, an event counts nowhere (R510). -/
theorem State.visorCount_held (s : State) (h : s.od 0x8000 1 = 1) (i n e : Nat) (p : Option Nat) (b : Nat) :
    s.visorCount i n e p b = s := by
  simp [State.visorCount, h]

/-- A notice changes its channels, the journal's records not yet written, ALERT# and Visor's counters alone. -/
theorem State.raiseAt_eq (s : State) (time : Nat) (n : Notice) :
    s.raiseAt time n = { s with
      host := { s.host with
        chans := Vector.ofFn (fun i : Fin 19 =>
          if s.meantFor n i.val then s.host.chans[i.val].offer time n else s.host.chans[i.val])
        journalNew := s.host.journalNew ++ [noticeBits time ((s.host.chans[0].seq + 1) % 2 ^ 16) n] }
      power := { s.power with
        alertLow := s.power.alertLow || (decide (s.od 0x2400 1 ≤ n.sev) && decide (s.od 0x2400 1 ≠ 3)) }
      visor := (s.raiseAt time n).visor } := by
  unfold State.raiseAt
  simp only []
  split
  · rfl
  · exact State.visorCount_eq _ _ _ _ _ _

@[simp] theorem State.raiseAt_host_journalNew (s : State) (time : Nat) (n : Notice) :
    (s.raiseAt time n).host.journalNew =
      s.host.journalNew ++ [noticeBits time ((s.host.chans[0].seq + 1) % 2 ^ 16) n] := by
  rw [s.raiseAt_eq]

@[simp] theorem State.raiseAt_power_alertLow (s : State) (time : Nat) (n : Notice) :
    (s.raiseAt time n).power.alertLow =
      (s.power.alertLow || (decide (s.od 0x2400 1 ≤ n.sev) && decide (s.od 0x2400 1 ≠ 3))) := by
  rw [s.raiseAt_eq]

/-- What a channel is after a notice (R495, R497). -/
theorem State.raiseAt_chan (s : State) (time : Nat) (n : Notice) (i : Fin 19) :
    (s.raiseAt time n).host.chans[i.val] =
      if s.meantFor n i.val then s.host.chans[i.val].offer time n else s.host.chans[i.val] := by
  rw [s.raiseAt_eq]
  simp

/-- A semaphore update within range raises nothing; beyond it the count is clamped and SEM_SAT raised (R259). -/
theorem State.semAdd_cases (s : State) (n : Nat) (d : Int) :
    (0 ≤ (s.semCount n : Int) + d ∧ (s.semCount n : Int) + d ≤ 2 ^ 32 - 1 ∧
      s.semAdd n d = s.setSem n ((s.semCount n : Int) + d).toNat) ∨
    ((s.semCount n : Int) + d < 0 ∧ s.semAdd n d = (s.setSem n 0).warn 0x0102 (s.semPart n) 3 (n / 8192) n) ∨
    (2 ^ 32 - 1 < (s.semCount n : Int) + d ∧
      s.semAdd n d = (s.setSem n (2 ^ 32 - 1)).warn 0x0102 (s.semPart n) 3 (n / 8192) n) := by
  unfold State.semAdd
  simp only []
  generalize (s.semCount n : Int) + d = r
  by_cases h1 : r < 0
  · exact .inr (.inl ⟨h1, by simp [h1, clampI]⟩)
  · by_cases h2 : 2 ^ 32 - 1 < r
    · refine .inr (.inr ⟨h2, ?_⟩)
      rw [if_pos (.inr h2)]
      simp only [clampI, if_neg h1, if_pos h2]
      rfl
    · refine .inl ⟨by omega, by omega, ?_⟩
      rw [if_neg (by omega)]
      simp only [clampI, if_neg h1, if_neg h2]

/-- What a write does: the rows' valid bits and what its read-modify-write finds, then the bytes, their check bits and the
write-backs that it makes void (R174, R185, R193). -/
theorem State.wr_eq (s : State) (a n v : Nat) :
    s.wr a n v = { s with
      mem := writeMem s.mem a n v
      ecc := eccAfter (s.touchRows a n).ecc a n
      writeBack := (s.touchRows a n).writeBack.filter (fun w => decide (8 * w + 8 ≤ a ∨ a + n ≤ 8 * w))
      banks := (s.touchRows a n).banks
      visor := ((s.touchRows a n).eccMerge a n).visor } := by
  simp only [State.wr]
  rw [State.eccMerge_frame, State.touchRows_frame]

theorem State.touchRow_banks_wf {s : State} (hs : swf s.banks (fun _ => Bank.reset)) (a : Nat) :
    swf (s.touchRow a).banks (fun _ => Bank.reset) := by
  unfold State.touchRow
  split
  · simp only []
    split
    · exact State.setBank_banks_wf hs _ _
    · exact hs
  · exact hs

theorem State.touchRows_banks_wf {s : State} (hs : swf s.banks (fun _ => Bank.reset)) (a n : Nat) :
    swf (s.touchRows a n).banks (fun _ => Bank.reset) := by
  unfold State.touchRows
  split
  · exact hs
  · rename_i h
    clear h
    generalize probes 64 a n = l
    induction l generalizing s with
    | nil => exact hs
    | cons x xs ih => exact ih (State.touchRow_banks_wf hs x)

theorem State.wr_banks_wf {s : State} (hs : swf s.banks (fun _ => Bank.reset)) (a n v : Nat) :
    swf (s.wr a n v).banks (fun _ => Bank.reset) := by
  rw [State.wr_banks]; exact State.touchRows_banks_wf hs a n

/-! ### Canonical forms kept -/

theorem State.canonical_emit {s : State} (h : s.canonical) (e : Emission) : (s.emit e).canonical := h
theorem State.canonical_setCore {s : State} (h : s.canonical) (p : CoreId) (c : Core) : (s.setCore p c).canonical := h
theorem State.canonical_setSig {s : State} (h : s.canonical) (g : SigId) (c : Sig) : (s.setSig g c).canonical := h
theorem State.canonical_takeFree {s : State} (h : s.canonical) : s.takeFree.2.canonical := h
theorem State.canonical_setRing {s : State} (h : s.canonical) (f o : Nat) (r : Ring) : (s.setRing f o r).canonical := h
theorem State.canonical_modJob {s : State} (h : s.canonical) (n : Nat) (f : Job → Job) : (s.modJob n f).canonical := h
theorem State.canonical_setMapByte {s : State} (h : s.canonical) (k l v : Nat) : (s.setMapByte k l v).canonical := h

theorem State.canonical_setOd {s : State} (h : s.canonical) (i j v : Nat) : (s.setOd i j v).canonical :=
  ⟨h.1, State.setOd_dict_wf h.2.1 i j v, h.2.2.1, h.2.2.2.1, h.2.2.2.2⟩

theorem State.canonical_setBank {s : State} (h : s.canonical) (b : Nat) (x : Bank) : (s.setBank b x).canonical :=
  ⟨h.1, h.2.1, h.2.2.1, h.2.2.2.1, State.setBank_banks_wf h.2.2.2.2 b x⟩

theorem State.canonical_setSem {s : State} (h : s.canonical) (n v : Nat) : (s.setSem n v).canonical := by
  refine ⟨?_, ?_, ?_, State.setSem_sems_wf h.2.2.2.1 n v, ?_⟩ <;> simp only [State.setSem_mem, State.setSem_dict,
    State.setSem_dictP, State.setSem_banks]
  exacts [h.1, h.2.1, h.2.2.1, h.2.2.2.2]

theorem State.canonical_visorCount {s : State} (h : s.canonical) (i n e : Nat) (p : Option Nat) (b : Nat) :
    (s.visorCount i n e p b).canonical := by
  rw [s.visorCount_eq]; exact h

theorem State.canonical_raiseAt {s : State} (h : s.canonical) (t : Nat) (n : Notice) : (s.raiseAt t n).canonical := by
  rw [s.raiseAt_eq]; exact h

theorem State.canonical_wr {s : State} (h : s.canonical) (a n v : Nat) : (s.wr a n v).canonical := by
  refine ⟨State.wr_wf h.1 a n v, ?_, ?_, ?_, State.wr_banks_wf h.2.2.2.2 a n v⟩ <;> simp only [State.wr_dict,
    State.wr_dictP, State.wr_sems]
  exacts [h.2.1, h.2.2.1, h.2.2.2.1]

theorem State.canonical_modCoreAt {s : State} (h : s.canonical) (n : Nat) (f : Core → Core) :
    (s.modCoreAt n f).canonical := by
  unfold State.modCoreAt
  split
  · exact State.canonical_setCore h _ _
  · exact h

end Sys2Proof.Machine
end

