-- ==== Sys2Proof/Laws/Cycle.lean ====
section
/-! SUPPORT. Laws of the accesses of one cycle: what `memCycle` does with none, and with one alone that is refused, waits, or
lies outside the banks; a release where nothing waits. -/

namespace Sys2Proof.Machine

/-- With no access nothing happens. -/
@[simp] theorem State.memServe_nil (s : State) : s.memServe [] = (s, []) := by
  simp [State.memServe, State.runLarge, State.runSmall, responseOrder]

/-- With no access nothing happens. -/
@[simp] theorem State.memCycle_nil (s : State) : s.memCycle [] = s := by simp [State.memCycle]

/-- The lowest of one code is that code. -/
@[simp] theorem leastCode_one (c : Nat) : leastCode [(c != 0, c)] = c := by
  by_cases h : c = 0 <;> simp [leastCode, h]

/-- One access alone that is refused is answered its code, and nothing else changes (R182). -/
theorem State.memCycle_refused (s : State) (x : MemAccess) (hi : issuedAccess x = true)
    (h : s.judged (settledAccess x) ≠ 0) :
    s.memCycle [x] =
      s.emit (.memResp (settledAccess x).req.master (settledAccess x).req.core (s.judged (settledAccess x)) 0) := by
  simp [State.memCycle, State.memServe, hi, h, State.runLarge, State.runSmall, responseOrder, respond, List.range_succ, List.zip,
    State.respondTo, State.noteLost, leastCode]

/-- One access alone that must wait stands at its bank, which begins to wake; it has no response yet (R190 to R192). -/
theorem State.memCycle_waits (s : State) (x : MemAccess) (hi : issuedAccess x = true)
    (h : s.judged (settledAccess x) = 0) (hw : s.mustWait (settledAccess x).req = true) :
    s.memCycle [x] = s.stall (settledAccess x) := by
  simp [State.memCycle, State.memServe, hi, h, hw, State.runLarge, State.runSmall, responseOrder, respond, List.range_succ,
    List.zip]

/-- One access alone outside the banks is done at once (R182). -/
theorem State.memCycle_outside (s : State) (x : MemAccess) (hi : issuedAccess x = true)
    (h : s.judged (settledAccess x) = 0) (hw : s.mustWait (settledAccess x).req = false)
    (ho : (placeOf (settledAccess x).req.addr).isSram = false) (hs : smallAccess (settledAccess x) = false) :
    let r := s.aloneAccess (settledAccess x)
    s.memCycle [x] = r.s.emit (.memResp (settledAccess x).req.master (settledAccess x).req.core r.code r.data) := by
  simp [State.memCycle, State.memServe, hi, h, hw, ho, hs, State.runLarge, State.runSmall, responseOrder, respond,
    List.range_succ, List.zip, State.respondTo, State.noteLost]

/-- A bank at which nothing waits has nothing to release. -/
theorem State.release_none (s : State) (b : Nat) (h : ∀ x ∈ s.stalled, x.at_ b = false) : s.release b = s := by
  have h1 : s.stalled.filter (fun (x : Stalled) => x.at_ b) = [] := by simpa using h
  have h2 : s.stalled.filter (fun (x : Stalled) => !x.at_ b) = s.stalled := by simpa using h
  simp [State.release, h1, h2]

end Sys2Proof.Machine
end

