-- ==== Sys2Proof/Laws/Step.lean ====
section
/-! SUPPORT. No command stops the device: every step has a next state. -/

namespace Sys2Proof.Machine

/-- Every command completes, whatever its operands and the state. -/
theorem exec_next (c : Instr) (s : State) : ∃ t, exec c s = .next t := by
  cases c <;> exact ⟨_, rfl⟩

/-- Every step has a next state. -/
theorem step_next (s : State) : ∃ t, step s = .next t := by
  unfold step
  split
  · exact ⟨s, rfl⟩
  · exact exec_next _ _

end Sys2Proof.Machine
end

