-- ==== Sys2Proof/WellFormed.lean ====
section
/-! DEFINITION. Which commands are well formed: the operands that the outside supplies lie in the ranges the spec
gives them. exec is total and does not ask; statements may. -/

namespace Sys2Proof

/-- A memory access: a 52-bit address (R166) and at most the 256 bytes that a large bank moves in a cycle (R161). -/
def MemReq.wf (r : MemReq) : Bool := r.addr < 2 ^ 52 && 0 < r.len && r.len ≤ 256 && r.core < 72

/-- The accesses that ask for the memories together with one. -/
def rivalsWf (l : List MemAccess) : Bool := l.all (fun x => x.req.wf)

/-- A PRB carries 24 mantissas: I and Q of 12 subcarriers (R366). -/
def Prb.wf (p : Prb) : Bool := p.mantissas.length == 24 && p.exponent < 16

/-- A section's PRBs. -/
def USection.wf (u : USection) : Bool := u.prbs.all Prb.wf

/-- A U-plane frame: a slot of 0.5 ms has symbols 0 to 13. -/
def UFrame.wf (f : UFrame) : Bool := f.symbol < 14 && f.sections.all USection.wf

/-- An access frame carries at most 62 data bytes on CAN and 1,024 in-band (R488, R491). -/
def AccFrame.wf (f : AccFrame) : Bool := f.cmd < 256 && f.index < 65536 && f.sub < 256 && f.dlen ≤ 1024 && f.len ≤ 4096

/-- A message's payload holds the 8 x LEN bytes that its header counts (R427). -/
def Msg.wf (m : Msg) : Bool := decide (m.payload < 2 ^ (64 * 256))

/-- A bit error falls in one of 64 columns, at a stage of its check point (R126). -/
def BitError.wf (e : BitError) (landing : Bool) : Bool :=
  e.col < 64 && (if landing then 8 ≤ e.stage && e.stage ≤ 11 else e.stage == 0 && e.unit == 0)

/-- An access and those of its cycle. -/
def MemTurn.wf (x : MemTurn) : Bool := x.req.wf && rivalsWf x.others

/-- A descriptor that Crown submits is 64 bytes (R218). -/
def DmaFrom.wf : DmaFrom → Bool
  | .core _ => true
  | .crown _ desc => decide (desc < 2 ^ 512)

/-- The check of a command's operands. -/
def Instr.wf : Instr → Bool
  | .memRead r _ => r.wf
  | .memWrite r others => r.wf && rivalsWf others
  | .setWrite r => r.wf
  | .clrWrite r => r.wf
  | .contributionLand _ errs => errs.all (fun e => e.wf true)
  | .drainRowRead _ errs => errs.all (fun e => e.wf false)
  | .dma by_ => by_.wf
  | .post x => rivalsWf x.others
  | .uPlaneFrame f => f.wf
  | .canRead _ f => f.wf
  | .canWrite _ f => f.wf
  | .writeStart _ f => f.wf
  | .segment _ f => f.wf
  | .nextBlock _ f => f.wf
  | .abortTransfer _ f => f.wf
  | .inBandDatagram d => d.frame.wf
  | .symbolDemod m _ energies _ _ => 6 ≤ m && m ≤ 14 && energies.length == 2 ^ m
  | .messageForward m => m.wf
  | _ => true

end Sys2Proof
end

