-- ==== Sys2Proof/Tests/Slice0.lean ====
section
/-! SUPPORT. Tests: ill-formed operands are refused by the check, and for the statements' hypotheses concrete states and
operands that meet them, most with the outcome of the one step that the statement names. Expected values come from the rules
of spec/ that the theorems' comments or the statements cite. -/

namespace Sys2Proof.Tests

set_option Elab.async false

open Sys2Proof Sys2Proof.Machine Sys2Proof.Claims

/-! ### Well-formedness: one ill-formed operand for each check -/

def tReq (a n : Nat) : MemReq := { master := .network, who := .crown, core := 0, seq := false, addr := a, len := n, data := 0 }

theorem test_wf_memReq_accepts : (Instr.memRead ⟨tReq 0 64, []⟩ .none).wf = true := by decide
theorem test_wf_memReq_address : (Instr.memRead ⟨tReq (2 ^ 52) 1, []⟩ .none).wf = false := by decide
theorem test_wf_memReq_length : (Instr.setWrite ⟨tReq 0 0, []⟩).wf = false ∧ (Instr.clrWrite ⟨tReq 0 257, []⟩).wf = false := by
  decide
theorem test_wf_memReq_others : (Instr.memWrite (tReq 0 8) [⟨.write, tReq 0 0⟩]).wf = false ∧
    (Instr.post ⟨0, [⟨.read, tReq 0 0⟩]⟩).wf = false := by decide
theorem test_wf_memReq_core : (Instr.memRead ⟨{ tReq 0 8 with core := 72 }, []⟩ .none).wf = false := by decide
theorem test_wf_dma : (Instr.dma (.crown 0 (2 ^ 512))).wf = false ∧ (Instr.dma (.core 0)).wf = true := by decide +kernel
theorem test_wf_bitErrors : (Instr.contributionLand 0 [⟨64, 0, 8, 1⟩]).wf = false ∧
    (Instr.contributionLand 0 [⟨63, 0, 12, 1⟩]).wf = false ∧ (Instr.drainRowRead 0 [⟨0, 0, 8, 1⟩]).wf = false ∧
    (Instr.contributionLand 0 [⟨63, 0, 11, 1⟩]).wf = true ∧ (Instr.drainRowRead 0 [⟨63, 0, 0, 1⟩]).wf = true := by decide

def tPrb (n e : Nat) : Prb := ⟨e, List.replicate n 0⟩
def tUFrame (symbol : Nat) (p : Prb) : UFrame := ⟨0x10, 0, 0, symbol, false, [⟨0, 9, 0, 0, [p]⟩]⟩

theorem test_wf_uFrame_accepts : (Instr.uPlaneFrame (tUFrame 13 (tPrb 24 15))).wf = true := by decide
theorem test_wf_uFrame_symbol : (Instr.uPlaneFrame (tUFrame 14 (tPrb 24 0))).wf = false := by decide
theorem test_wf_prb_mantissas : (Instr.uPlaneFrame (tUFrame 0 (tPrb 23 0))).wf = false := by decide
theorem test_wf_prb_exponent : (Instr.uPlaneFrame (tUFrame 0 (tPrb 24 16))).wf = false := by decide

/-- The head of a request frame to the CAN node ID 0x10 at 8 Mbit/s (R487). -/
def tHead : CanHead := ⟨0x410, true, false, false, 8⟩

def tAcc (cmd index sub dlen len : Nat) : AccFrame := ⟨cmd, 0, index, sub, len, dlen, 0⟩

theorem test_wf_accFrame : (tAcc 1 0x2000 2 4 4).wf = true ∧ (tAcc 256 0 0 0 0).wf = false ∧
    (tAcc 0 65536 0 0 0).wf = false ∧ (tAcc 0 0 256 0 0).wf = false ∧ (tAcc 0 0 0 1025 0).wf = false ∧
    (tAcc 0 0 0 0 4097).wf = false := by decide
theorem test_wf_accFrame_rows :
    let f := tAcc 256 0 0 0 0
    (Instr.canRead (.can 0 tHead) f).wf = false ∧ (Instr.canWrite (.can 0 tHead) f).wf = false ∧ (Instr.writeStart (.can 0 tHead) f).wf = false ∧
      (Instr.segment (.can 0 tHead) f).wf = false ∧ (Instr.nextBlock (.can 0 tHead) f).wf = false ∧ (Instr.abortTransfer (.can 0 tHead) f).wf = false ∧
      (Instr.inBandDatagram ⟨0, 0, false, 0, 0, 0, 1, 0, 0, f⟩).wf = false := by decide
theorem test_wf_symbolDemod : (Instr.symbolDemod 5 0 (List.replicate 32 0) 0 1).wf = false ∧
    (Instr.symbolDemod 15 0 [] 0 1).wf = false ∧ (Instr.symbolDemod 6 0 (List.replicate 63 0) 0 1).wf = false ∧
    (Instr.symbolDemod 6 0 (List.replicate 64 0) 0 1).wf = true := by decide
theorem test_wf_message : (Instr.messageForward ⟨0, 2 ^ (64 * 256)⟩).wf = false ∧
    (Instr.messageForward ⟨0, 2 ^ (64 * 256) - 1⟩).wf = true := by decide +kernel

/-! ### Helpers: small states -/

/-- The state an outcome answers. -/
def nx (o : Host.Outcome State Fault Refusal) : Option State :=
  match o with
  | .next t => some t
  | _ => none

/-- The device after reset. -/
abbrev s0 : State := State.reset

/-- Core 0 runs a job of partition 0 with the commands `cmds` fetched and the words of `l` (address, bytes, value) in
memory. -/
def tRun (cmds : List Nat) (l : List (Nat × Nat × Nat)) : State :=
  { s0 with
    logical := [(0, 0)]
    mem := l.foldl (fun m e => writeMem m e.1 e.2.1 e.2.2) []
    cores := s0.cores.set 0 { Core.reset with mode := .running, job := some 1, ringBase := 0, ringLen := 4096, fetched := cmds } }

/-- That state with core 0 changed. -/
def tCore (cmds : List Nat) (l : List (Nat × Nat × Nat)) (f : Core → Core) : State :=
  (tRun cmds l).setCore 0 (f ((tRun cmds l).core 0))

/-- A stream command: its opcode and its other bits. -/
def tCmd (op rest : Nat) : Nat := op * 2 ^ 120 + rest

/-- A descriptor (R197) of rank 2 at an offset of core 0's scratchpad: format, grid words, sizes and strides. -/
def tDesc (fmt gw base n0 s0_ n1 s1_ : Nat) : Nat :=
  1 + 2 * 16 + gw * 2 ^ 7 + fmt * 2 ^ 8 + 0x3F800000 * 2 ^ 55 + base * 2 ^ 87 +
    (s0_ + n0 * 2 ^ 40 + n0 * 2 ^ 96) * 2 ^ 256 + (s1_ + n1 * 2 ^ 40 + n1 * 2 ^ 96) * 2 ^ 384

/-! ### The machine as a whole -/

theorem witness_StepRunsFrontCommand : step { s0 with pending := [.symbol, .slot] } = exec .symbol { s0 with pending := [.slot] } :=
  rfl
theorem witness_EmptyQueueIdles : s0.pending = [] ∧ nx (step s0) = some s0 := by decide +kernel
theorem witness_StepKeepsCanonicalForms : s0.canonical ∧ (nx (step s0)).isSome := by decide +kernel
theorem witness_OnlyPorstChangesStraps : nx (exec .sysrefEdge s0) = some s0 := by decide +kernel
theorem witness_OnlyPorstLeavesTrip :
    let s := { s0 with power := { s0.power with stopped := true, tripped := true, tripTime := 7 } }
    s.power.stopped = true ∧ (nx (exec .sysrefEdge s)).isSome := by decide +kernel
theorem witness_JournalOnlyGrows : (nx (exec .journalAppend { s0 with host := { s0.host with journalNew := [5] } })).isSome := by
  decide +kernel

/-! ### The array and the grid -/

/-- A WLOAD of 32 rows and 4 columns of an I4 tensor; an MPASS of 4 rows; a DRAIN of 2 rows of grid words. -/
def cWload : Nat := tCmd 1 (2 * 2 ^ 100 + 31 * 2 ^ 43 + 3 * 2 ^ 37)
def cMpass : Nat := tCmd 2 (2 ^ 116 + 3 * 2 ^ 100 + 3 * 2 ^ 26)
def cDrain : Nat := tCmd 3 (4 * 2 ^ 101 + 1 * 2 ^ 18 + 3 * 2 ^ 12)
def mArray : List (Nat × Nat × Nat) :=
  [(spBase 0 + 256, 128, tDesc 0 0 (spBase 0 + 0x10000) 32 1 4 32), (spBase 0 + 384, 128, tDesc 0 0 (spBase 0 + 0x20000) 32 1 4 32),
   (spBase 0 + 512, 128, tDesc 0 1 (spBase 0 + 0x30000) 4 1 4 4)]
def sWload : State := tRun [cWload] mArray
def sMpass : State := tCore [cMpass] mArray (fun c => { c with wSince := [0], wRows := [(0, 32)], wBlen := [(0, 32)] })
def sDrain : State := tRun [cDrain] mArray

theorem witness_ArrayCommandsDecoded_wload :
    let s := sWload; let s1 := past s 0; let c := s1.core 0
    (s.nextCmd 0 = some cWload ∧ bits cWload 127 120 = 1) ∧ c.effOffset (bit cWload 36) (128 * bits cWload 114 100) = some 256 ∧
    c.room 1 (.wload ⟨c.ord, cWload, s1.rd (spBase 0 + 256) 128, 256, 0, (s.core 0).pos⟩) = true ∧
    (s1.ownCode true [(spBase 0 + 256, 128)]).1 = 0 ∧
    leastCode (wloadCauses 0 c cWload 0 (parseDesc (s1.rd (spBase 0 + 256) 128))) = 0 ∧
    (nx (exec (.wload 0) s)).map (fun t => (t.core 0).loading) =
      some (some ⟨1, cWload, s1.rd (spBase 0 + 256) 128, 256, 0, 0⟩) := by decide +kernel
theorem witness_ArrayCommandsDecoded_mpass :
    let s := sMpass; let s1 := past s 0; let c := s1.core 0
    (s.nextCmd 0 = some cMpass ∧ bits cMpass 127 120 = 2) ∧ c.effOffset (bit cMpass 16) (128 * bits cMpass 114 100) = some 384 ∧
    c.effOffset (bit cMpass 16 && bit cMpass 115) (32 * bits cMpass 99 83) = some 0 ∧ c.qArray.length < 8 ∧
    (s1.ownCode true [(spBase 0 + 384, 128)]).1 = 0 ∧
    leastCode (mpassCauses 0 c cMpass 0 (parseDesc (s1.rd (spBase 0 + 384) 128)) none) = 0 ∧
    (nx (exec (.mpass 0) s)).map (fun t => ((t.core 0).qArray.length, (t.core 0).lastM)) = some (1, some 0) := by decide +kernel
theorem witness_ArrayCommandsDecoded_setg_immediate :
    let cmd := tCmd 4 (2 ^ 119 + 0xFFF * 2 ^ 107); let s := tRun [cmd] []
    (s.nextCmd 0 = some cmd ∧ bits cmd 127 120 = 4) ∧ bits cmd 88 0 = 0 ∧ bit cmd 119 = true ∧ bits cmd 105 89 = 0 ∧
    (nx (exec (.setg 0) s)).map (fun t => (t.core 0).setg) = some (List.replicate 64 (-1)) := by decide +kernel
def cSetg : Nat := tCmd 4 (8 * 2 ^ 89)
theorem witness_ArrayCommandsDecoded_setg_table :
    let s := tRun [cSetg] [(spBase 0 + 256, 2, 0xF800)]; let s1 := past s 0
    (s.nextCmd 0 = some cSetg ∧ bits cSetg 127 120 = 4) ∧ bits cSetg 88 0 = 0 ∧ bit cSetg 119 = false ∧ bits cSetg 118 107 = 0 ∧
    (s1.core 0).effOffset (bit cSetg 106) (32 * bits cSetg 105 89) = some 256 ∧
    (s1.ownCode true [(spBase 0 + 256, 128)]).1 = 0 ∧
    (∀ g ∈ (List.range 64).map (fun j => sext 16 (s1.rd (spBase 0 + 256 + 2 * j) 2)), -2048 ≤ g ∧ g ≤ 2047) ∧
    (nx (exec (.setg 0) s)).map (fun t => (t.core 0).setg.headD 0) = some (-2048) := by decide +kernel
theorem witness_ArrayCommandsDecoded_setg_range :
    let s := tRun [cSetg] [(spBase 0 + 256, 2, 0x0800)]; let s1 := past s 0
    (∃ g ∈ (List.range 64).map (fun j => sext 16 (s1.rd (spBase 0 + 256 + 2 * j) 2)), g < -2048 ∨ 2047 < g) ∧
    nx (exec (.setg 0) s) = some (s.fault 0 0x2A 0 cSetg (s.core 0).pos) := by decide +kernel
theorem witness_ArrayCommandsDecoded_drain :
    let s := sDrain; let s1 := past s 0; let c := s1.core 0
    (s.nextCmd 0 = some cDrain ∧ bits cDrain 127 120 = 3) ∧ c.effOffset (bit cDrain 11) (128 * bits cDrain 115 101) = some 512 ∧
    c.effOffset (bit cDrain 11) (32 * bits cDrain 100 84) = some 0 ∧ c.qDrain.length < 4 ∧
    (s1.ownCode true [(spBase 0 + 512, 128)]).1 = 0 ∧
    leastCode (drainCauses 0 c cDrain (parseDesc (s1.rd (spBase 0 + 512) 128)) 0) = 0 ∧
    (nx (exec (.drain 0) s)).map (fun t => (t.core 0).qDrain.length) = some 1 := by decide +kernel

def tWl : WloadCmd := ⟨0, cWload, tDesc 0 0 (spBase 0 + 0x10000) 32 1 4 32, 256, 0, 0⟩
def tMp : MPass :=
  { cmd := cMpass, off := 0, tag := 0, opens := true, win := none, desc := tDesc 0 0 (spBase 0 + 0x20000) 32 1 4 32, r0 := 0,
    ak0 := 0, rows := 4, grow := 0, krows := 32, g := List.replicate 64 0, filled := [], issued := 0, landed := 0, tile := 0 }
def tDr : DrainCmd :=
  { cmd := cDrain, off := 0, dg := false, dslot := 0, desc := tDesc 0 1 (spBase 0 + 0x30000) 4 1 4 4, pblk := 0, or0 := 0,
    on0 := 0, grow := 0, rows := 2, ncols := 4, started := false, done := 0 }
def tBlk : Block := (buildBlock [] tWl).1
def tFull : SMap (List FeederEntry) :=
  (List.range 32).map (fun i => (i, [⟨1, false, .fin, 0, false, 0x38, 0, 0⟩]))

theorem witness_ArrayEventsAct_wloadQueuedStart :
    let s := tCore [] [] (fun c => { c with qLoader := [⟨0, .wload tWl⟩] }); let c := s.core 0
    c.qLoader = ⟨0, .wload tWl⟩ :: [] ∧ c.loading = none ∧ c.shadow = none ∧
    nx (exec (.wloadQueuedStart 0) s) = some ((s.setCore 0 { c with qLoader := [], loading := some tWl }).pump 0) := by
  decide +kernel
theorem witness_ArrayEventsAct_shadowComplete :
    let s := tCore [] mArray (fun c => { c with loading := some tWl }); let c := s.core 0
    c.loading = some tWl ∧ (s.ownCode true (wloadReads tWl)).1 = 0 ∧
    (nx (exec (.shadowComplete 0) s)).map (fun t => (t.core 0).shadow.isSome) = some true := by decide +kernel
theorem witness_ArrayEventsAct_feederFill :
    let s := tCore [] mArray (fun c => { c with qArray := [⟨0, .mpass tMp⟩] }); let c := s.core 0
    (c.feeder 31).length < 16 ∧ fillPass 31 c.qArray = some (0, tMp) ∧ (s.ownCode true (tMp.reads 0 31)).1 = 0 ∧
    (nx (exec (.feederFill 0 31) s)).map (fun t => ((t.core 0).feeder 31).length) = some 1 := by decide +kernel
theorem witness_ArrayEventsAct_rowIssue :
    let s := tCore [] [] (fun c => { c with qArray := [⟨0, .mpass tMp⟩], active := some tBlk, feeders := tFull }); let c := s.core 0
    nextPass c.qArray = some (0, tMp) ∧ c.active = some tBlk ∧ tBlk.wl.tag = tMp.tag ∧
    drainHolds c.qDrain 0 (tMp.grow + tMp.issued) = false ∧ (c.heads tMp.krows).isSome ∧
    (nx (exec (.rowIssue 0) s)).map (fun t => (t.core 0).pipe.length) = some 1 := by decide +kernel
theorem witness_ArrayEventsAct_swap :
    let s := tCore [] [] (fun c => { c with qArray := [⟨0, .mpass tMp⟩], shadow := some tBlk }); let c := s.core 0
    nextPass c.qArray = some (0, tMp) ∧ c.shadow = some tBlk ∧ tBlk.wl.tag = tMp.tag ∧
    c.active.map (fun a => a.wl.tag) ≠ some tMp.tag ∧
    nx (exec (.swap 0) s) = some (s.setCore 0 { c with active := some tBlk, shadow := none }) := by decide +kernel
theorem witness_ArrayEventsAct_contributionLand :
    let f : InFlight := ⟨0, true, List.replicate 64 0, 0, [[⟨.fin, 3, 3, 1, -1⟩]]⟩
    let s := tCore [] [] (fun c => { c with pipe := [f] })
    (s.core 0).pipe = f :: [] ∧ s.inPair 0 = false ∧ (s.core 0).residue = none ∧
    (nx (exec (.contributionLand 0 []) s)).map (fun t => (((t.core 0).gridRow 0).accs.headD ⟨.nan, 0⟩, (t.core 0).deferred)) =
      some (⟨.fin, 3 * 2 ^ 39⟩, []) := by decide +kernel
/-- A bit error in a column's sum before its exact addition is caught by the residues modulo 7 (R126, R127). -/
theorem test_residue_caught :
    let f : InFlight := ⟨0, true, List.replicate 64 0, 0, [[⟨.fin, 3, 3, 1, -1⟩]]⟩
    let s := tCore [] [] (fun c => { c with pipe := [f] })
    (nx (exec (.contributionLand 0 [⟨0, 0, 8, 1⟩]) s)).map (fun t => (t.core 0).deferred.map (·.1)) = some [0x27] := by
  decide +kernel
theorem witness_ArrayEventsAct_faulted :
    let s := tCore [] [] (fun c => { c with mode := .faulted, qDrain := [⟨0, .drain tDr⟩] })
    (s.core 0).mode = .faulted ∧ nx (exec (.drainStart 0) s) = some s := by decide +kernel
theorem witness_ArrayEventsAct_drainStart :
    let s := tCore [] [] (fun c => { c with qDrain := [⟨0, .drain tDr⟩] }); let c := s.core 0
    c.headDrain = some (0, tDr) ∧ tDr.started = false ∧ passesBefore c.qArray 0 = false ∧
    nx (exec (.drainStart 0) s) = some (s.setCore 0 (c.setHeadDrain 0 { tDr with started := true })) := by decide +kernel
theorem witness_ArrayEventsAct_drainRowRead :
    let d := { tDr with started := true, done := 1 }
    let s := tCore [] [] (fun c => { c with qDrain := [⟨0, .drain d⟩], grid := [(1, ⟨List.replicate 64 ⟨.fin, 5⟩, List.replicate 64 0, List.replicate 64 5⟩)] })
    let c := s.core 0
    c.headDrain = some (0, d) ∧ d.started = true ∧ d.done < d.rows ∧ d.dg = false ∧ { d with dg := true }.dg = true ∧
    (s.ownCode false ((d.writes (c.gridRow 1) 1).map (VWrite.span 0))).1 = 0 ∧
    (nx (exec (.drainRowRead 0 []) s)).map (fun t => t.rd (spBase 0 + 0x30040) 16) = some 5 := by decide +kernel
theorem witness_ArrayEventsAct_drainComplete :
    let d := { tDr with started := true, done := 2 }
    let s := tCore [] [] (fun c => { c with qDrain := [⟨0, .drain d⟩] }); let c := s.core 0
    c.headDrain = some (0, d) ∧ d.started = true ∧ d.rows ≤ d.done ∧
    nx (exec (.drainComplete 0) s) = some ((s.setCore 0 { c with qDrain := c.qDrain.tail }).pump 0) := by decide +kernel

theorem witness_AccumulatorSums_fits : accAdd ⟨.fin, 2 ^ 111 - 1⟩ ⟨.fin, -1⟩ = ⟨⟨.fin, 2 ^ 111 - 2⟩, Flags.clear⟩ := by decide +kernel
theorem witness_AccumulatorSums_limits : accAdd ⟨.fin, 2 ^ 111 - 1⟩ ⟨.fin, 1⟩ = ⟨⟨.sat, 2 ^ 111 - 1⟩, Flags.ofSat true⟩ ∧
    accAdd ⟨.sat, -(2 ^ 111)⟩ ⟨.fin, -1⟩ = ⟨⟨.sat, -(2 ^ 111)⟩, Flags.ofSat true⟩ := by decide +kernel
theorem witness_AccumulatorSums_dma : dmaOp (1 + 2 * 2 ^ 4) = 2 := by decide +kernel
theorem witness_GridConversionRounds : valToAcc (.num 1 1 false) 0 = ⟨⟨.fin, 2 ^ 40⟩, Flags.clear⟩ ∧
    (valToAcc (.num (2 ^ 100) 1 false) 0).acc = ⟨.sat, 2 ^ 88 - 1⟩ ∧ (valToAcc (.num (-(2 ^ 100)) 1 false) 0).acc = ⟨.sat, -(2 ^ 88)⟩ ∧
    (valToAcc (.num 1 2 false) 41).acc = ⟨.fin, 0⟩ ∧ (valToAcc (.num 1 2 false) 40).acc = ⟨.fin, 1⟩ := by decide +kernel
theorem witness_ContributionsLandExactly :
    let ts : List Term := [⟨.fin, 3, 3, 1, -40⟩, ⟨.fin, -5, 2, 1, 0⟩]
    let v : Term → Int := fun t => t.sum * t.mu * 2 ^ (t.x + 40 - 0).toNat
    (∀ t ∈ ts, t.sp = .fin ∧ 0 ≤ t.x + 40 - 0 ∧ -(2 ^ 88) ≤ v t ∧ v t ≤ 2 ^ 88 - 1) ∧ ts.length ≤ 2 ^ 21 ∧
    (0 = res7 7 ∧ ∀ t ∈ ts, t.res = res7 t.sum) ∧
    (let l := landColumn [] 0 0 ⟨.fin, 7⟩ 0 ts; l.acc = ⟨.fin, 7 + 3 - 5 * 2 ^ 40⟩ ∧ l.fl = Flags.clear ∧ l.bad = []) := by
  decide +kernel

/-! ### The vector engine -/

/-- A descriptor of rank 1: format, grid words, quantisation mode, scale table, base and size. -/
def tDesc1 (fmt gw q sb base n : Nat) : Nat :=
  1 + 16 + gw * 2 ^ 7 + fmt * 2 ^ 8 + q * 2 ^ 12 + 0x3F800000 * 2 ^ 55 + base * 2 ^ 87 + sb * 2 ^ 139 +
    (1 + n * 2 ^ 40 + n * 2 ^ 96) * 2 ^ 256

/-- What stands at a slot of core 0's scratchpad: descriptors at 2 to 12 (I8 sources A, B, D, a mask, FP32 A, B, D, CI16, one grid
word, one I8 element, a CVTQ destination with its table), extensions at 16 to 18 (C; X; X and S). -/
def slotOf (n : Nat) : Nat :=
  match n with
  | 2 => tDesc1 1 0 0 0 (spBase 0 + 0x10000) 32
  | 3 => tDesc1 1 0 0 0 (spBase 0 + 0x11000) 32
  | 4 => tDesc1 1 0 0 0 (spBase 0 + 0x12000) 32
  | 5 => tDesc1 1 0 0 0 (spBase 0 + 0x13000) 32
  | 6 => tDesc1 0xB 0 0 0 (spBase 0 + 0x14000) 32
  | 7 => tDesc1 0xB 0 0 0 (spBase 0 + 0x15000) 32
  | 8 => tDesc1 0xB 0 0 0 (spBase 0 + 0x16000) 32
  | 9 => tDesc1 3 0 0 0 (spBase 0 + 0x17000) 32
  | 10 => tDesc1 0 1 0 0 (spBase 0 + 0x18000) 1
  | 11 => tDesc1 1 0 0 0 (spBase 0 + 0x19000) 1
  | 12 => tDesc1 1 0 1 (spBase 0 + 0x1B000) (spBase 0 + 0x1A000) 32
  | 16 => 0x8005 * 2 ^ 96
  | 17 => (2 ^ 31 + 0x1C000) * 2 ^ 32
  | 18 => (2 ^ 31 + 0x1C000) * 2 ^ 32 + (2 ^ 31 + 0x1D000) * 2 ^ 112
  | _ => 0

/-- A VOP: sub-opcode, OPF, SMODE, IMM, slots of A, B, D and the extension, 0 where absent. -/
def tVop (x : Nat × Nat × Nat × Nat × Nat × Nat × Nat × Nat) : Nat :=
  let f := fun (n : Nat) => if n = 0 then 0 else 0x8000 + n
  tCmd 0x10 (x.1 * 2 ^ 112 + x.2.1 * 2 ^ 108 + x.2.2.1 * 2 ^ 104 + x.2.2.2.1 * 2 ^ 64 + f x.2.2.2.2.1 * 2 ^ 48 +
    f x.2.2.2.2.2.1 * 2 ^ 32 + f x.2.2.2.2.2.2.1 * 2 ^ 16 + f x.2.2.2.2.2.2.2)

/-- A form: (sub-opcode, OPF, SMODE, IMM, A, B, D, extension). -/
abbrev VopForm := Nat × Nat × Nat × Nat × Nat × Nat × Nat × Nat

/-- Core 0 about to decode a form, with just the slots that it names in memory; VL 32. -/
def sVop (x : VopForm) : State :=
  tCore [tVop x] ((([x.2.2.2.2.1, x.2.2.2.2.2.1, x.2.2.2.2.2.2.1, x.2.2.2.2.2.2.2].filter (fun n => n ≠ 0)) ++
      (if x.2.2.2.2.2.2.2 = 16 then [5] else [])).map (fun n => (spBase 0 + 128 * n, if n < 16 then 128 else 32, slotOf n)))
    (fun c => { c with vl := 32 })

/-- The VOP that a form is. -/
def vLit (x : VopForm) : VopCmd :=
  let g := fun (n : Nat) => if n = 0 then none else some (slotOf n)
  let e := slotOf x.2.2.2.2.2.2.2
  { cmd := tVop x, off := 0, sub := x.1, opf := x.2.1, maskZero := false, accum := false, smode := x.2.2.1, imm := x.2.2.2.1,
    a := g x.2.2.2.2.1, b := g x.2.2.2.2.2.1, c := if bit e 111 then some (slotOf 5) else none, d := g x.2.2.2.2.2.2.1, m := none,
    x := extAddr (bits e 63 32), y := none, s := extAddr (bits e 143 112), vl := 32, step := 0 }

/-- What vopClean asks beside the VOP's own faults. -/
def vopPlain (x : VopForm) : Bool :=
  let s1 := past (sVop x) 0
  (s1.core 0).qLoader.isEmpty && (s1.core 0).qArray.isEmpty && (s1.core 0).qDrain.isEmpty && (s1.core 0).qVector.isEmpty &&
    (vopPlaces s1 0 (tVop x)).all (fun f => f.bad == false) && (s1.ownCode true (vopGets s1 0 (tVop x))).1 == 0

/-- One clean VOP for every row. -/
def vopForms : List VopForm :=
  [(0x00, 1, 0, 0, 2, 3, 4, 0), (0x01, 1, 0, 0, 2, 3, 4, 0), (0x02, 1, 0, 0, 2, 3, 4, 0), (0x03, 1, 0, 0, 2, 3, 4, 16),
   (0x04, 1, 0, 0, 2, 3, 4, 0), (0x05, 1, 0, 0, 2, 3, 4, 0), (0x06, 1, 0, 0, 2, 0, 4, 0), (0x07, 1, 0, 0, 2, 0, 4, 0),
   (0x08, 1, 0, 0, 2, 3, 4, 0), (0x09, 1, 0, 0, 2, 3, 4, 0), (0x0A, 1, 0, 0, 2, 3, 4, 0), (0x0B, 1, 0, 3, 2, 0, 4, 0)] ++
  [(0x10, 1, 0, 0, 2, 3, 4, 0), (0x11, 1, 0, 0, 2, 3, 4, 0), (0x12, 1, 0, 0, 2, 3, 4, 0), (0x13, 1, 0, 0, 2, 3, 4, 0),
   (0x14, 1, 0, 0, 2, 3, 4, 0), (0x15, 1, 0, 0, 2, 3, 4, 0), (0x16, 1, 0, 0, 2, 3, 4, 16), (0x20, 1, 0, 0, 2, 0, 4, 0),
   (0x21, 1, 0, 0, 6, 0, 12, 0), (0x22, 1, 0, 0, 9, 3, 4, 0), (0x23, 3, 0, 0, 2, 3, 9, 0)] ++
  [(0x30, 0xB, 0, 0, 6, 0, 8, 0), (0x31, 0xB, 0, 0, 6, 0, 8, 0), (0x32, 0xB, 0, 0, 6, 0, 8, 0), (0x33, 0xB, 0, 0, 6, 0, 8, 0),
   (0x34, 0xB, 0, 0, 6, 0, 8, 0), (0x35, 0xB, 0, 0, 6, 0, 8, 0), (0x36, 0xB, 0, 0, 6, 0, 8, 0), (0x37, 0xB, 0, 0, 6, 7, 8, 0)] ++
  [(0x40, 0, 0, 0, 2, 0, 10, 0), (0x41, 1, 0, 0, 2, 0, 11, 0), (0x42, 1, 0, 0, 2, 0, 11, 0), (0x43, 1, 0, 0, 2, 0, 11, 17),
   (0x44, 1, 0, 0, 2, 0, 11, 17), (0x45, 1, 0, 1, 2, 0, 11, 17), (0x46, 1, 0, 1, 2, 0, 11, 18), (0x50, 0xB, 0, 7, 0, 0, 8, 0),
   (0x51, 0xB, 0, 7, 0, 0, 8, 0), (0x60, 1, 0, 0, 2, 0, 4, 17)] ++
  [(0x61, 1, 0, 0, 2, 0, 4, 17), (0x61, 0, 1, 0, 2, 0, 10, 17), (0x61, 1, 2, 0, 2, 0, 4, 17)]

/-- Every row has a form at the head of the stream to which no fault of decode applies. -/
theorem witness_VopRowsExecute_rows :
    (∀ x ∈ vopForms, (sVop x).nextCmd 0 = some (tVop x) ∧ bits (tVop x) 127 120 = 0x10 ∧ bits (tVop x) 119 112 = x.1 ∧
      bits (tVop x) 105 104 = x.2.2.1) ∧
    (vopForms.map (·.1)).take 41 = (vopRows 0).map (·.2) := by decide +kernel
theorem witness_VopRowsExecute_clean :
    ∀ x ∈ vopForms, leastCode (vopCauses 0 2 (vLit x)) = 0 ∧
      vopFieldBad (tVop x) (slotOf x.2.2.2.2.2.2.2) (match (vLit x).d with | some d => (parseDesc d).gw | none => false) = false := by
  decide +kernel
theorem witness_VopRowsExecute_vop :
    ∀ x ∈ [((0x00, 1, 0, 0, 2, 3, 4, 0) : VopForm), (0x46, 1, 0, 1, 2, 0, 11, 18)], vopPlain x = true ∧ vopAt (past (sVop x) 0) 0 (tVop x) ((sVop x).core 0).pos = vLit x := by decide +kernel
/-- VOP ADD of 0x50 and 0x40 in I8 saturates (R37). -/
theorem witness_VopRowsExecute_frame :
    let s := { sVop (0, 1, 0, 0, 2, 3, 4, 0) with
      mem := writeMem (writeMem (sVop (0, 1, 0, 0, 2, 3, 4, 0)).mem (spBase 0 + 0x10000) 1 0x50) (spBase 0 + 0x11000) 1 0x40 }
    let v := vLit (0, 1, 0, 0, 2, 3, 4, 0)
    let o := runVop v 0 2 0 s.mem
    (s.ownCode true (v.reads 0 s.mem)).1 = 0 ∧ (s.ownCode false (o.ws.map (VWrite.span 0))).1 = 0 ∧ o.addr = none ∧
    (nx (exec (.vopAdd 0) s)).map (fun t => (t.rd (spBase 0 + 0x12000) 2, (t.core 0).flags.sat)) = some (0x7F, true) := by
  decide +kernel
theorem witness_VectorIntegerResults :
    let r := fun sub => arithRes sub 1 2 1 (ofInt 127) (ofInt (-128)) (ofInt 127)
    (8, 1) ∈ [(4, 0), (8, 1), (16, 2)] ∧ (r 1).code = 0x7F ∧ (r 2).code = 0x80 ∧ (r 7).code = 0x81 ∧ (r 0).code = 0xFF ∧
    (r 0x0B).fl.inx = true := by decide +kernel
theorem witness_ComparisonsOrderValues :
    cmpRes 0x12 (.num (-1) 2 false) (.num 1 3 false) = (true, false) ∧ cmpRes 0x10 (.num 0 1 true) (.num 0 1 false) = (true, false) ∧
    cmpRes 0x11 (.nan true) (.num 0 1 false) = (true, true) ∧ cmpRes 0x10 (.nan false) (.nan false) = (false, false) := by decide +kernel
theorem witness_SetvlAndDigest_setvl :
    let c1 := tCmd 0x11 (4096 * 2 ^ 107); let c0 := tCmd 0x11 0; let s := tRun [c1] []; let z := tRun [c0] []
    (s.nextCmd 0 = some c1 ∧ bits c1 127 120 = 0x11) ∧ bits c1 106 0 = 0 ∧ 1 ≤ bits c1 119 107 ∧ bits c1 119 107 ≤ 4096 ∧
    nx (exec (.setvl 0) s) = some ((past s 0).setCore 0 { (past s 0).core 0 with vl := 4096 }) ∧
    (z.nextCmd 0 = some c0 ∧ bits c0 127 120 = 0x11) ∧ bits c0 119 107 = 0 ∧
    nx (exec (.setvl 0) z) = some (z.fault 0 0x02 0 c0 0) := by decide +kernel
theorem witness_SetvlAndDigest_fold :
    let cmd := tCmd 0x50 (2 * 2 ^ 99); let s := tRun [cmd] [(spBase 0 + 256, 128, slotOf 2)]; let s1 := past s 0; let c := s1.core 0
    let d := s1.rd (spBase 0 + 256) 128; let l := [(spBase 0 + 256, 128)]
    (s.nextCmd 0 = some cmd ∧ bits cmd 127 120 = 0x50) ∧ bits cmd 119 118 = 0 ∧
    (c.qLoader = [] ∧ c.qArray = [] ∧ c.qDrain = [] ∧ c.qVector = []) ∧ digestFieldBad cmd = false ∧
    c.effOffset (bit cmd 114) (128 * bits cmd 113 99) = some 256 ∧ (s1.ownCode true l).1 = 0 ∧
    leastCode ((parseDesc d).causes 0 c.alevel false) = 0 ∧ ((s1.readAll l).ownCode true (parseDesc d).allSpans).1 = 0 ∧
    nx (exec (.digestFold 0) s) = some (((s1.readAll l).readAll (parseDesc d).allSpans).setCore 0
      (c.foldInto 0 ((parseDesc d).digest s.mem) ((parseDesc d).anyNonZero s.mem))) := by decide +kernel
theorem witness_SetvlAndDigest_fold_held :
    let cmd := tCmd 0x50 (3 * 2 ^ 118); let s := tRun [cmd] []
    (s.nextCmd 0 = some cmd ∧ bits cmd 127 120 = 0x50) ∧ 2 ≤ bits cmd 119 118 ∧ ((past s 0).core 0).qVector.length < 8 ∧
    nx (exec (.digestFold 0) s) = some (s.fault 0 0x02 0 cmd 0) := by decide +kernel
theorem witness_SetvlAndDigest_store :
    let cmd := tCmd 0x50 (2 ^ 118 + 3 * 2 ^ 115 + 8 * 2 ^ 80)
    let s := tCore [cmd] [] (fun c => { c with digests := [0, 0, 0, 77, 0, 0, 0, 0] }); let s1 := past s 0; let c := s1.core 0
    (s.nextCmd 0 = some cmd ∧ bits cmd 127 120 = 0x50) ∧ bits cmd 119 118 = 1 ∧
    (c.qLoader = [] ∧ c.qArray = [] ∧ c.qDrain = [] ∧ c.qVector = []) ∧ digestFieldBad cmd = false ∧
    c.effOffset (bit cmd 114) (8 * bits cmd 98 80) = some 64 ∧ c.mode ≠ .faulted ∧ (s1.ownCode false [(spBase 0 + 64, 8)]).1 = 0 ∧
    (nx (exec (.digestStore 0) s)).map (fun t => (t.rd (spBase 0 + 64) 8, (t.core 0).digests)) =
      some (77, List.replicate 8 0) := by decide +kernel
theorem witness_SetvlAndDigest_held :
    let cmd := tCmd 0x10 (0x0C * 2 ^ 112); let s := tRun [cmd] []; let s1 := past s 0
    (s.nextCmd 0 = some cmd ∧ bits cmd 127 120 = 0x10) ∧ subKnown (bits cmd 119 112) = false ∧
    (s1.core 0).qVector.length < 8 ∧ bits cmd 102 96 = 0 ∧ bit cmd 15 = false ∧ (∀ f ∈ vopPlaces s1 0 cmd, f.bad = false) ∧
    nx (exec (.vopSubop 0) s) = some (s.fault 0 0x30 0 cmd 0) := by decide +kernel

/-! ### The memories -/

/-- Crown's access of n bytes at a, with data. -/
def tAt (m : Master) (a n v : Nat) : MemReq := { master := m, who := .crown, core := 0, seq := false, addr := a, len := n, data := v }

theorem witness_MemoryAccesses_write :
    let r := tAt .network (spBase 3 + 0x3FFFF8) 8 0x1122334455667788; let b := 15
    s0.canonical ∧ placeOf r.addr = .bank b ∧ b < 352 ∧ addrMode r.addr = 0 ∧ 0 < r.len ∧ s0.mustWait r = false ∧
    s0.accessCode (Req.of r.who) r.addr r.len .write = 0 ∧
    (nx (exec (.memWrite r []) s0)).map (fun t => (t.byte r.addr, t.byte (r.addr + 7), t.out)) =
      some (0x88#8, 0x11#8, [.memResp .network 0 0 0]) := by decide +kernel
theorem witness_MemoryAccesses_order : standsBefore s0 0 .drain .sequencer ∧ standsBefore s0 0 .drain .vector ∧
    standsBefore { s0 with lost := [(lostKey 0 .sequencer, 64)] } 0 .sequencer .drain := by
  unfold standsBefore; decide +kernel
theorem witness_MemoryAccesses_lost :
    let r := tAt .drain (spBase 0) 8 1; let q := { tAt .sequencer (spBase 0) 8 2 with seq := true }
    placeOf r.addr = .bank 0 ∧ addrMode r.addr = 0 ∧ r.addr % 8 = 0 ∧ r.len = 8 ∧ q.addr = r.addr ∧ q.len = 8 ∧
    s0.mustWait r = false ∧ s0.accessCode (Req.of r.who) r.addr 8 .write = 0 ∧
    s0.accessCode (Req.of q.who) r.addr 8 .write = 0 ∧ 4 * 0 + r.addr / 64 % 4 = 0 ∧ q.seq = true ∧
    (nx (exec (.memWrite r [⟨.write, q⟩]) s0)).map (fun t => (t.rd r.addr 8, t.out, t.host.journalNew.length)) =
      some (1, [.memResp .drain 0 0 0, .memResp .sequencer 0 1 0], 1) := by decide +kernel
/-- The requester of the lower number is answered first, and a write that no sequencer originated raises no notice (R177, R578). -/
theorem witness_MemoryAccesses_lost_other :
    let r := { tAt .drain (spBase 0) 8 1 with core := 5 }; let q := tAt .vector (spBase 0) 8 2
    q.seq = false ∧ (nx (exec (.memWrite r [⟨.write, q⟩]) s0)).map (fun t => (t.rd r.addr 8, t.out, t.host)) =
      some (1, [.memResp .vector 0 1 0, .memResp .drain 5 0 0], s0.host) := by decide +kernel
theorem witness_MemoryAccesses_refused :
    let r := { tAt .network (spBase 0) 8 1 with who := .part 0 }
    s0.accessCode (Req.of r.who) r.addr r.len .write = 3 ∧
    nx (exec (.memWrite r []) s0) = some (s0.emit (.memResp .network 0 3 0)) := by decide +kernel
theorem witness_MemoryAccesses_atomic :
    let a := cantonBase 7 + 0x7FFFF8; let r := tAt .network a 8 0x0F; let s := s0.wr a 8 0x33
    s.canonical ∧ addrBase r.addr < 2 ^ 48 ∧ streamMaster r.master = false ∧ s.poisoned a 8 = false ∧
    (∀ k ∈ [1, 2], s.accessCode (Req.of r.who) (a + k * 2 ^ 48) r.len .write = 0 ∧
      s.mustWait { r with addr := a + k * 2 ^ 48 } = false ∧ (placeOf (a + k * 2 ^ 48)).isSram = true) ∧
    (nx (exec (.setWrite ⟨r, []⟩) s)).map (fun t => (t.rd a 8, t.out)) = some (0x3F, [.memResp .network 0 0 0x33]) ∧
    (nx (exec (.clrWrite ⟨r, []⟩) s)).map (fun t => (t.rd a 8, t.out)) = some (0x30, [.memResp .network 0 0 0x33]) := by
  decide +kernel
/-- SET on a word with a double-bit error answers POISON and leaves it (R186). -/
theorem witness_MemoryAccesses_atomic_poison :
    let a := cantonBase 7; let r := tAt .network a 8 0x0F; let s := { s0.wr a 8 0x33 with ecc := [(a / 8, .double)] }
    s.canonical ∧ s.poisoned a 8 = true ∧
    (nx (exec (.setWrite ⟨r, []⟩) s)).map (fun t => (t.rd a 8, t.out)) = some (0x33, [.memResp .network 0 6 0x33]) := by
  decide +kernel
theorem witness_MemoryAccesses_read :
    let r := tAt .network (sigBase 31 + 0x3FFFF) 1 0; let s := s0.wr (sigBase 31 + 0x3FFFF) 1 0xAB
    placeOf r.addr = .bank 479 ∧ s.mustWait r = false ∧ s.accessCode (Req.of r.who) r.addr r.len .read = 0 ∧ s.canonical ∧
    nx (exec (.memRead ⟨r, []⟩ .none) s) = some (s.emit (.memResp .network 0 0 0xAB)) := by decide +kernel
theorem witness_MemoryAccesses_semaphore :
    (nx (exec (.semaphoreCrownWrite (semBase + 8 * 65535) 8 (2 ^ 40 + 5)) s0)).map (fun t => t.semCount 65535) = some 5 := by
  decide +kernel

/-- The device with bank 17 as given. -/
def sBank (f : Bank → Bank) : State := s0.setBank 17 (f Bank.reset)

theorem witness_BanksAndScrubbing_writeBack :
    let s := { s0 with ecc := [(9, .single)], writeBack := [9] }
    s.canonical ∧ 9 ∈ s.writeBack ∧ (nx (exec (.eccWriteBack 9) s)).map (fun t => (t.ecc, t.writeBack)) = some ([], []) := by
  decide +kernel
theorem witness_BanksAndScrubbing_scrub :
    (s0.bank 17).st = .on ∧ (s0.bank 17).powering = false ∧ nx (exec (.scrubRead 17 .single) s0) = some (s0.scrub 17 .single) ∧
    nx (exec (.scrubForcedRound 17 .none) s0) = some (s0.scrub 17 .none) := by decide +kernel
theorem witness_BanksAndScrubbing_waits :
    Master.drain ≠ .scrub ∧ (nx (exec (.masterAged 351 3 .drain) s0)).map (fun t => t.lost) = some [((351 * 4 + 3) * 16, 64)] ∧
    (nx (exec (.smallBankWait 31 5) s0)).map (fun t => t.host.journalNew.length) = some 1 ∧
    (s0.bank 479).starved = false ∧ (nx (exec (.scrubStarved 31 3) s0)).map (fun t => (t.bank 479).starved) = some true ∧
    (let s := s0.setBank 479 { Bank.reset with starved := true }
     (s.bank 479).starved = true ∧ nx (exec (.scrubStarved 31 3) s) = some s) := by decide +kernel
theorem witness_BanksAndScrubbing_retention :
    let s := s0.setOd 0x3200 5 (2 ^ 9)
    (s.bank 17).st = .on ∧ s.autoRet 17 = true ∧ (15 : Nat) < bankMacros 17 ∧ bankMacros 352 = 1 ∧ (s.bank 17).retained.contains 15 = false ∧
    nx (exec (.macroRetention 17 15) s) = some (s.setBank 17 { Bank.reset with retained := [15] }) := by decide +kernel
theorem witness_BanksAndScrubbing_wake :
    let s := sBank (fun b => { b with st := .retain, waking := true })
    let t := sBank (fun b => { b with retained := [3, 15], macroWake := [15, 3] })
    (s.bank 17).waking = true ∧ (s.bank 17).st = .retain ∧ (nx (exec (.bankWakeDone 17) s)).map (fun u => (u.bank 17).st) = some .on ∧
    (t.bank 17).st ≠ .retain ∧ (t.bank 17).macroWake = 15 :: [3] ∧
    (nx (exec (.bankWakeDone 17) t)).map (fun u => ((u.bank 17).retained, (u.bank 17).macroWake)) = some ([3], [3]) := by
  decide +kernel
theorem witness_BanksAndScrubbing_changes :
    let off := sBank (fun b => { b with st := .off, req := .retain }); let up := sBank (fun b => { b with st := .retain, req := .on })
    let down := sBank (fun b => { b with st := .on, req := .retain }); let out := sBank (fun b => { b with st := .retain, req := .off })
    (∀ s ∈ [off, up, down, out], (s.bank 17).powering = false ∧ s.stalled = []) ∧
    (nx (exec (.bankStateChange 17) off)).map (fun t => (t.bank 17).powering) = some true ∧
    (nx (exec (.bankStateChange 17) up)).map (fun t => (t.bank 17).waking) = some true ∧
    (nx (exec (.bankStateChange 17) down)).map (fun t => (t.bank 17).st) = some .retain ∧
    (nx (exec (.bankStateChange 17) (out.wr (spBase 4 + 0x100000) 1 7))).map
      (fun t => ((t.bank 17).st, t.byte (spBase 4 + 0x100000))) = some (.off, 0#8) := by decide +kernel
theorem witness_BanksAndScrubbing_powered :
    let s := sBank (fun b => { b with st := .off, powering := true })
    (s.bank 17).powering = true ∧ (s.bank 17).req = .on ∧
    (nx (exec (.bankPowerUpDone 17) s)).map (fun t => ((t.bank 17).st, (t.bank 17).cleared)) = some (.on, true) := by decide +kernel

/-! ### DMA engines and the light path -/

/-- A descriptor of one run: OP, flags in [12:10], semaphores, length, source, destination; and a queued one. -/
def tDma (op flags sems len src dst : Nat) : Nat :=
  1 + op * 16 + flags * 2 ^ 10 + sems * 2 ^ 16 + len * 2 ^ 112 + 2 ^ 136 + 2 ^ 152 + dst * 2 ^ 384 + src * 2 ^ 448
def tQd (desc : Nat) : Dma := ⟨desc, none, none, none, false, false, false, 0, 0, 0⟩
/-- Engine 0 with one descriptor queued. -/
def sDma (x : Dma) : State := ({ s0 with logical := [(0, 0)], semOwner := [(9, 1)] }).setDmaQ 0 [x]
def cDma : Nat := tCmd 0x20 (4 * 2 ^ 100)

theorem witness_DmaAndLiteQueued_dma :
    let s := tRun [cDma] [(spBase 0 + 256, 64, tDma 0 0 0 8 (spBase 0) (spBase 1))]; let s1 := past s 0; let c := s1.core 0
    (s.nextCmd 0 = some cDma ∧ bits cDma 127 120 = 0x20) ∧ bits cDma 119 118 ≠ 3 ∧ bits cDma 98 0 = 0 ∧
    bits cDma 117 116 = 0 ∧ c.effOffset (bit cDma 99) (64 * bits cDma 115 100) = some 256 ∧
    (s1.ownCode true [(spBase 0 + 256, 64)]).1 = 0 ∧ (s1.dmaQ 0).length < dmaDepth 0 ∧ s1.inPair 0 = false ∧
    (nx (exec (.dma (.core 0)) s)).map (fun t => (t.dmaQ 0).length) = some 1 := by decide +kernel
theorem witness_DmaAndLiteQueued_full :
    let s := (tRun [cDma] []).setDmaQ 0 (List.replicate 8 (tQd 0))
    dmaDepth 0 ≤ ((past s 0).dmaQ 0).length ∧ nx (exec (.dma (.core 0)) s) = some s := by decide +kernel
theorem witness_DmaAndLiteQueued_crown :
    dmaDepth 83 = 64 ∧ (s0.dmaQ 83).length < dmaDepth 83 ∧
    (nx (exec (.dma (.crown 83 7)) s0)).map (fun t => (t.dmaQ 83).map (fun x => (x.desc, x.by_))) = some [(7, none)] ∧
    (let s := s0.setDmaQ 0 (List.replicate 8 (tQd 0))
     dmaDepth 0 ≤ (s.dmaQ 0).length ∧ nx (exec (.dma (.crown 0 7)) s) = some s) := by decide +kernel
/-- LITE of 8 bytes from offset 0 to core 1's scratchpad, releasing semaphore 9. -/
def cLite (dst : Nat) : Nat := tCmd 0x21 (9 * 2 ^ 80 + dst * 2 ^ 16)
def sLite (dst : Nat) : State := { tRun [cLite dst] [] with semOwner := [(9, 1)] }
theorem witness_DmaAndLiteQueued_lite :
    let cmd := cLite (spBase 1); let s := sLite (spBase 1); let s1 := past s 0; let c := s1.core 0
    (s.nextCmd 0 = some cmd ∧ bits cmd 127 120 = 0x21) ∧ bits cmd 15 0 = 0 ∧ c.lites.length < 16 ∧
    (s1.ownCode true [(spBase 0, 8)]).1 = 0 ∧ s1.inPair 0 = false ∧ s1.semPart (bits cmd 95 80) = s1.coreOwner 0 ∧
    liteShapeBad 0 8 (bits cmd 79 16) = false ∧ (nx (exec (.lite 0) s)).map (fun t => (t.core 0).lites.length) = some 1 := by
  decide +kernel
theorem witness_DmaAndLiteQueued_liteShape :
    let cmd := cLite (spBase 1 + 4); let s := sLite (spBase 1 + 4)
    liteShapeBad 0 8 (bits cmd 79 16) = true ∧ nx (exec (.lite 0) s) = some (s.fault 0 0x57 0 cmd 0) := by decide +kernel
theorem witness_DmaAndLiteQueued_delivery :
    let x : LiteMsg := ⟨0, 0x77, 8, spBase 0 + 64, 9, false, none⟩
    let s := { tCore [] [] (fun c => { c with lites := [x] }) with semOwner := [(9, 1)] }
    (s.core 0).nextLite = some x ∧ x.dst / 2 ^ 52 = s.nodeId ∧
    (nx (exec (.liteDelivery 0) s)).map (fun t => (t.rd (spBase 0 + 64) 8, t.semCount 9)) = some (0x77, 1) := by decide +kernel
theorem witness_DmaAndLiteQueued_remote :
    let x : LiteMsg := ⟨0, 0x77, 8, 5 * 2 ^ 52 + spBase 0, 9, false, none⟩
    let s := tCore [] [] (fun c => { c with lites := [x] })
    (s.core 0).nextLite = some x ∧ x.dst / 2 ^ 52 ≠ s.nodeId ∧
    (s.request (x.dst / 2 ^ 52) 0 0x03 (x.dst % 2 ^ 52) (x.len / 8 + 1) x.payload (.lite 0 x.ord)).isSome ∧
    (nx (exec (.liteDelivery 0) s)).map (fun t => (t.core 0).lites.map (·.sent)) = some [true] := by decide +kernel
theorem witness_DmaAndLiteQueued_response :
    let s := fun (code : Nat) => tCore [] [] (fun c => { c with lites := [⟨3, 0, 8, 0, 9, true, some code⟩] })
    (∀ k ∈ [0, 1, 3], ((s k).core 0).lites.find? (fun l => l.resp.isSome) = some ⟨3, 0, 8, 0, 9, true, some k⟩) ∧
    (nx (exec (.liteResponse 0) (s 0))).map (fun t => (t.core 0).lites) = some [] ∧
    (nx (exec (.liteResponse 0) (s 1))).map (fun t => t.host.journalNew.length) = some 1 := by decide +kernel

theorem witness_DmaDescriptors_start :
    let bad := sDma (tQd 0); let ok := sDma (tQd (tDma 1 0 0 8 0 (spBase 0))); let wait := sDma (tQd (tDma 1 1 9 8 0 (spBase 0)))
    bad.dmaHead 0 = some (tQd 0) ∧ bad.dmaCheck 0 (tQd 0) ≠ 0 ∧
    (nx (exec (.dmaDescriptorStart 0) bad)).map (fun t => (t.dmaHead 0).map (·.status)) = some (some 8) ∧
    ok.dmaCheck 0 (tQd (tDma 1 0 0 8 0 (spBase 0))) = 0 ∧ bit (tDma 1 0 0 8 0 (spBase 0)) 10 = false ∧
    (nx (exec (.dmaDescriptorStart 0) ok)).map (fun t => (t.dmaHead 0).map (·.started)) = some (some true) ∧
    wait.dmaCheck 0 (tQd (tDma 1 1 9 8 0 (spBase 0))) = 0 ∧ bit (tDma 1 1 9 8 0 (spBase 0)) 10 = true ∧
    wait.dmaReplay (tQd (tDma 1 1 9 8 0 (spBase 0))) = false ∧ wait.dmaFollower (tQd (tDma 1 1 9 8 0 (spBase 0))) = false ∧
    (nx (exec (.dmaDescriptorStart 0) wait)).map (fun t => (t.dmaHead 0).map (·.waiting)) = some (some true) := by decide +kernel
def tGo (desc : Nat) : Dma := { tQd desc with started := true }
theorem witness_DmaDescriptors_move :
    let c := tGo (tDma 0 0 0 8 (spBase 0) (spBase 0 + 64)); let f := tGo (tDma 1 0 0 8 0 (spBase 0 + 64))
    let g := tGo (tDma 2 0 0 16 (spBase 0) (spBase 0 + 64))
    (∀ x ∈ [c, f, g], (sDma x).dmaHead 0 = some x ∧ x.started = true ∧ x.waiting = false ∧ x.moved = false ∧
      (sDma x).crossing 0 x.desc = none ∧ (sDma x).dmaFails x = []) ∧
    dmaOp c.desc = 0 ∧ dmaOp f.desc = 1 ∧ dmaOp g.desc = 2 ∧
    (nx (exec (.dmaCopy 0) ((sDma c).wr (spBase 0) 8 5))).map (fun t => t.rd (spBase 0 + 64) 8) = some 5 := by decide +kernel
theorem witness_DmaDescriptors_brim :
    let x := tGo (tDma 1 0 0 8 0 (5 * 2 ^ 52 + spBase 0)); let s := s0.setDmaQ 80 [x]
    s.dmaHead 80 = some x ∧ dmaOp x.desc = 1 ∧ x.started = true ∧ x.waiting = false ∧ x.moved = false ∧
    s.crossing 80 x.desc = none ∧ nx (exec (.dmaFill 80) s) = some (s.brimRun 80 ((brimRuns x.desc).drop x.next)) := by
  decide +kernel
theorem witness_DmaDescriptors_complete :
    let d := fun (flags st : Nat) => { tGo (tDma 1 flags (9 * 2 ^ 16) 8 0 (spBase 0)) with moved := true, status := st }
    (∀ x ∈ [d 0 0, d 2 0, d 0 8], (sDma x).dmaHead 0 = some x ∧ x.moved = true ∧ x.wait = 0 ∧
      (sDma x).crossing 0 x.desc = none ∧ x.by_ = none ∧ bit x.desc 12 = false) ∧
    bit (d 0 0).desc 11 = false ∧ bit (d 2 0).desc 11 = true ∧
    (nx (exec (.dmaComplete 0) (sDma (d 0 0)))).map (fun t => t.dmaQ 0) = some [] ∧
    (nx (exec (.dmaComplete 0) (sDma (d 2 0)))).map (fun t => t.semCount 9) = some 1 ∧
    (nx (exec (.dmaComplete 0) (sDma (d 0 8)))).map (fun t => t.host.journalNew.length) = some 1 := by decide +kernel
theorem witness_DmaDescriptors_record :
    let x := { tGo (tDma 1 6 (9 * 2 ^ 16) 8 0 (spBase 0) + (spBase 0 + 128) * 2 ^ 48) with moved := true, by_ := some 0, part := some 0 }
    let s := sDma x; let t := s.setDmaQ 0 (s.dmaQ 0).tail
    s.dmaHead 0 = some x ∧ x.wait = 0 ∧ s.crossing 0 x.desc = none ∧ bit x.desc 12 = true ∧ bit x.desc 11 = true ∧ x.status = 0 ∧
    (t.writeAccess x.req (bits x.desc 99 48) 16 (compRecord s.stamp 0)).1 = 0 ∧ s.dmaFollower x = false ∧ s.dmaReplay x = false ∧
    (nx (exec (.dmaComplete 0) s)).map (fun t => t.semCount 9) = some 1 := by decide +kernel
theorem witness_DmaDescriptors_read :
    dmaOp (tGo (tDma 0 0 0 8 (spBase 0) (spBase 1))).desc = 0 ∧
    ((sDma (tGo 0)).readAccess (tGo 0).req (spBase 0 % 2 ^ 52) 8).1 = 0 := by decide +kernel

/-! ### Semaphores and control of a core's stream -/

/-- Core 0 about to decode cmd, owning semaphore 9 of its partition; semaphore 9 holds n. -/
def sSem (cmd n : Nat) : State := { tRun [cmd] [] with semOwner := [(9, 1)], sems := sput [] zeroD 9 n }
def ownsB (s : State) (n : Nat) : Bool := s.semPart n == s.coreOwner 0 && s.semPart n != none

theorem witness_SemaphoreCommands_cuff :
    let cmd := fun (op eng : Nat) => tCmd op (eng * 2 ^ 117 + 2 ^ 116 + 4 * 2 ^ 101)
    (∀ op ∈ [0x30, 0x31], ∀ eng ∈ [0, 4], (sSem (cmd op eng) 1).nextCmd 0 = some (cmd op eng) ∧ bits (cmd op eng) 127 120 = op ∧
      cuffField (cmd op eng) = false ∧ cuffSem (cmd op eng) = 9 ∧ ownsB (past (sSem (cmd op eng) 1) 0) 9 = true ∧
      bits (cmd op eng) 119 117 = eng ∧ (past (sSem (cmd op eng) 1) 0).inPair 0 = false) ∧
    ((past (sSem (cmd 0x30 0) 1) 0).core 0).replayAcq.contains (0, 9, 1) = false ∧
    (past (sSem (cmd 0x30 0) 1) 0).asksFor 0 = true ∧
    ((past (sSem (cmd 0x30 4) 1) 0).core 0).room 4 (.acq 9 1 false) = true ∧
    (nx (exec (.cuffWait 0) (sSem (cmd 0x30 0) 1))).map (fun t => (t.core 0).seqWait) = some (.sem 9 1) ∧
    (nx (exec (.cuffSignal 0) (sSem (cmd 0x31 0) 1))).map (fun t => t.semCount 9) = some 2 ∧
    (nx (exec (.cuffSignal 0) (sSem (cmd 0x31 4) 1))).map (fun t => t.semCount 9) = some 2 := by decide +kernel
theorem witness_SemaphoreCommands_full :
    let full := fun (cmd : Nat) => let s := sSem cmd 0
      s.setCore 0 { s.core 0 with qVector := List.replicate 8 ⟨0, .acq 9 1 true⟩ }
    (∀ op ∈ [0x38, 0x39], let cmd := tCmd op (4 * 2 ^ 117 + 9 * 2 ^ 101 + 2 ^ 85)
      ((past (full cmd) 0).core 0).room 4 (.acq (semN cmd) (semK cmd) false) = false ∧
      ((past (full cmd) 0).core 0).room 4 (.rel (semN cmd) (semK cmd)) = false ∧
      nx (exec (if op = 0x38 then .semAcq 0 else .semRel 0) (full cmd)) = some (full cmd)) := by decide +kernel
theorem witness_SemaphoreCommands_semaphore :
    let cmd := fun (op : Nat) => tCmd op (9 * 2 ^ 101 + 3 * 2 ^ 85)
    (∀ op ∈ [0x38, 0x39], (sSem (cmd op) 1).nextCmd 0 = some (cmd op) ∧ bits (cmd op) 127 120 = op ∧ semField (cmd op) = false ∧
      semN (cmd op) = 9 ∧ semK (cmd op) = 3 ∧ ownsB (past (sSem (cmd op) 1) 0) 9 = true) ∧
    (nx (exec (.semAcq 0) (sSem (cmd 0x38) 1))).map (fun t => (t.core 0).seqWait) = some (.sem 9 3) ∧
    (nx (exec (.semRel 0) (sSem (cmd 0x39) 1))).map (fun t => t.semCount 9) = some 4 := by decide +kernel
theorem witness_SemaphoreCommands_add :
    let c0 := tCmd 0x3A (9 * 2 ^ 101 + 0xFFFFFFFF * 2 ^ 52); let c1 := c0 + 2 ^ 84 + 8 * 2 ^ 33
    (∀ c ∈ [c0, c1], (sSem c 5).nextCmd 0 = some c ∧ bits c 127 120 = 0x3A ∧ semField c = false ∧
      ownsB (past (sSem c 5) 0) (semN c) = true ∧ (past (sSem c 5) 0).inPair 0 = false ∧
      ((past (sSem c 5) 0).ownCode false [(spBase 0 + semRet c, 8)]).1 = 0) ∧ bit c0 84 = false ∧ bit c1 84 = true ∧
    (nx (exec (.semAdd 0) (sSem c0 5))).map (fun t => t.semCount 9) = some 4 ∧
    (nx (exec (.semAdd 0) (sSem c1 5))).map (fun t => (t.semCount 9, t.rd (spBase 0 + 64) 8)) = some (4, 5) := by decide +kernel
theorem witness_SemaphoreCommands_read :
    let c := tCmd 0x3B (9 * 2 ^ 101 + 2 ^ 84 + 8 * 2 ^ 33)
    (sSem c 5).nextCmd 0 = some c ∧ bits c 127 120 = 0x3B ∧ semField c = false ∧ ownsB (past (sSem c 5) 0) (semN c) = true ∧
    (past (sSem c 5) 0).pairOf 0 = none ∧ ((past (sSem c 5) 0).ownCode false [(spBase 0 + semRet c, 8)]).1 = 0 ∧
    (nx (exec (.semRead 0) (sSem c 5))).map (fun t => t.rd (spBase 0 + 64) 8) = some 5 := by decide +kernel
theorem witness_SemaphoreCommands_denied :
    let c := tCmd 0x39 (8 * 2 ^ 101 + 2 ^ 85)
    (sSem c 5).nextCmd 0 = some c ∧ semField c = false ∧ ownsB (past (sSem c 5) 0) (semN c) = false ∧
    nx (exec (.semRel 0) (sSem c 5)) = some ((sSem c 5).fault 0 0x41 (semBase + 64) c 0) := by decide +kernel
theorem witness_SemaphoreCommands_grant :
    let w : Waiter := ⟨.queue 0 0, 2, 0, 0, false⟩
    let s := fun (n : Nat) => { tCore [] [] (fun c => { c with seqWait := .sem 9 2 }) with
      waiters := [(9, [w])], sems := sput [] zeroD 9 n }
    s0.headWaiter 9 = none ∧ nx (exec (.semGrant 9) s0) = some s0 ∧
    (s 1).headWaiter 9 = some w ∧ (s 1).semCount 9 < w.need ∧ nx (exec (.semGrant 9) (s 1)) = some (s 1) ∧
    (s 2).headWaiter 9 = some w ∧ w.need ≤ (s 2).semCount 9 ∧ (s 2).pairOf 0 = none ∧
    (nx (exec (.semGrant 9) (s 2))).map (fun t => (t.semCount 9, (t.core 0).seqWait)) = some (0, .none) := by decide +kernel
theorem witness_SemaphoreCountsSaturate :
    let s := { s0 with sems := [(9, 2 ^ 32 - 1)], sigs := s0.sigs.set 0 { Sig.reset with watch := 8#16 } }
    swf s.sems zeroD ∧ (s.semAdd 9 1).semCount 9 = 2 ^ 32 - 1 ∧ (s.semAdd 9 1).host.journalNew.length = 1 ∧
    (s.semAdd 9 (-(2 ^ 32))).semCount 9 = 0 ∧ (s.semAdd 9 (-1)).host = s.host ∧
    ((s.semAdd 8 3).sig 0).ipend.getLsbD 4 = true := by decide +kernel
theorem witness_NoteRaisesItsNotice :
    let cmd := tCmd 0x61 (2 ^ 118 + 0x7FFF * 2 ^ 102 + 5); let s := tRun [cmd] []
    (s.nextCmd 0 = some cmd ∧ bits cmd 127 120 = 0x61) ∧ bits cmd 101 64 = 0 ∧ bits cmd 119 118 < 2 ∧ bit cmd 117 = false ∧
    s.inPair 0 = false ∧ nx (exec (.note 0) s) = some ((past s 0).raise ⟨1, 0xFFFF, some 0, 1, 0, 0, 0, 5⟩) := by decide +kernel

theorem witness_StreamControl_fetch :
    let s := tRun [] [(spBase 0 + 48, 16, tCmd 0x60 0)]; let s := s.setCore 0 { s.core 0 with pos := 48 }
    let l := fetchLine s.mem (spBase 0) (ringSkip 0 4096 48 0) 4
    l = [tCmd 0x60 0] ∧ (s.core 0).mode = .running ∧ (s.core 0).seqWait = .none ∧ (s.core 0).ringLen ≠ 0 ∧
    (s.core 0).fetched.any isSeqWait = false ∧ (s.core 0).fetched.length + l.length ≤ 16 ∧
    s.readCode (s.coreReq 0) (spBase 0 + 48) 16 = 0 ∧
    (nx (exec (.sequencerFetch 0) s)).map (fun t => (t.core 0).fetched) = some [tCmd 0x60 0] := by decide +kernel
theorem witness_StreamControl_loop :
    let c1 := tCmd 0x40 (3 * 2 ^ 104 + 0xFFFF * 2 ^ 88 + 2 ^ 85); let s := tRun [c1] []
    s.nextCmd 0 = some c1 ∧ bits c1 127 120 = 0x40 ∧ bits c1 84 0 = 0 ∧ bits c1 119 104 ≠ 0 ∧ ((past s 0).core 0).loops.length < 4 ∧
    (nx (exec (.loopCmd 0) s)).map (fun t => (t.core 0).loops) = some [⟨3, -1, 1, 0, 16⟩] := by decide +kernel
theorem witness_StreamControl_endloop :
    let c := tCmd 0x41 0
    let s := fun (i : Nat) => tCore [c] [] (fun k => { k with loops := [⟨3, -1, 1, i, 64⟩] })
    (s 0).nextCmd 0 = some c ∧ bits c 127 120 = 0x41 ∧ bits c 119 0 = 0 ∧
    (nx (exec (.endloop 0) (s 1))).map (fun t => ((t.core 0).loops, (t.core 0).pos)) = some ([⟨3, -1, 1, 2, 64⟩], 64) ∧
    (nx (exec (.endloop 0) (s 2))).map (fun t => (t.core 0).loops) = some [] := by decide +kernel
theorem witness_StreamControl_step :
    let c := tCmd 0x51 0; let s := fun (n : Nat) => tCore [c] [] (fun k => { k with step := n })
    (s 0).nextCmd 0 = some c ∧ bits c 127 120 = 0x51 ∧ bits c 119 0 = 0 ∧ (s 0).stepWaits 0 = false ∧
    (nx (exec (.stepCmd 0) (s (2 ^ 64 - 2)))).map (fun t => (t.core 0).step) = some (2 ^ 64 - 1) ∧
    nx (exec (.stepCmd 0) (s (2 ^ 64 - 1))) = some ((s (2 ^ 64 - 1)).fault 0 0x03 0 c 0) := by decide +kernel
theorem witness_StreamControl_tileEnd :
    let c := tCmd 0x60 0; let s := tRun [c] []
    s.nextCmd 0 = some c ∧ bits c 127 120 = 0x60 ∧ bits c 119 0 = 0 ∧
    (nx (exec (.tileEnd 0) s)).map (fun t => ((t.core 0).tileEnds, (t.core 0).tileNo)) = some ([(1, 0, false)], 1) := by decide +kernel
theorem witness_StreamControl_retire :
    let s := tCore [] [] (fun k => { k with ord := 4, tileEnds := [(4, 48, false)] })
    let f := tCore [] [] (fun k => { k with ord := 4, tileEnds := [(4, 48, true)], deferred := [(0x27, 5)] })
    (s.core 0).tileEnds = (4, 48, false) :: [] ∧ (s.core 0).mode = .running ∧ (s.core 0).retiredTile = false ∧
    (s.core 0).queuesDone 4 = true ∧ s.inPair 0 = false ∧ (s.core 0).tileFaults false 4 = [] ∧
    (nx (exec (.tileEndRetire 0) s)).map (fun t => (t.core 0).tileEnds) = some [] ∧
    lowestFault ((f.core 0).tileFaults true 4) = some (0x27, 5) ∧
    (nx (exec (.tileEndRetire 0) f)).map (fun t => (t.core 0).frec.code) = some 0x27 := by decide +kernel
theorem witness_StreamControl_halt :
    let c := tCmd 0x70 (0x1234 * 2 ^ 104); let s := tRun [c] []
    let h := tCore [] [] (fun k => { k with mode := .halting, haltCode := 7 })
    s.nextCmd 0 = some c ∧ bits c 127 120 = 0x70 ∧ bits c 103 0 = 0 ∧ s.inPair 0 = false ∧
    (nx (exec (.halt 0) s)).map (fun t => ((t.core 0).mode, (t.core 0).haltCode)) = some (.halting, 0x1234) ∧
    (h.core 0).tileEnds = [] ∧ (h.core 0).queuesDone (h.core 0).ord = true ∧ h.dmasDone 0 = true ∧
    (h.core 0).held.contains .halt = false ∧ (h.core 0).tileFaults true (h.core 0).ord = [] ∧
    (h.latchesOf 0).any (fun e => e.core == 0) = false ∧
    nx (exec (.haltComplete 0) h) = some ((h.setCore 0 { h.core 0 with mode := .halted }).latch 0 7 0) := by decide +kernel
theorem witness_StreamControl_opcode :
    let c := tCmd 0xFF 0; let s := tRun [c] []
    s.nextCmd 0 = some c ∧ opcodeKnown (bits c 127 120) = false ∧ nx (exec (.cmdOpcode 0) s) = some (s.fault 0 0x01 0 c 0) := by
  decide +kernel

/-! ### Partitions, jobs and placement -/

/-- The device at service level FULL, its cantons up, partition 0 with logical core 0 on core 0 and partition 1 with core 1. -/
def sFull : State := { s0 with
  power := { s0.power with level := 4 }, safety := s0.cantonsStart.safety, logical := [(0, 0), (64, 1)] }
def tTask (core : Option Nat) : Task := ⟨0, 0, 0, 64, core, none, [], false⟩
def tJob (st : JobSt) (t : Task) : Job := ⟨1, 0, 0, 0, st, 0, 1, [t], [], 0, 0, false, false, 0⟩

theorem witness_JobsStartAndComplete_start :
    let s := { sFull with jobs := [tJob .waiting (tTask none)] }; let z := { s with logical := [] }
    s.admits = true ∧ s.jobs.find? (fun j => j.qset == 0 && j.st == .resuming) = none ∧
    s.jobs.find? (fun j => j.qset == 0 && j.st == .waiting) = some (tJob .waiting (tTask none)) ∧
    s.placeJob (tJob .waiting (tTask none)) 1 = some ([0], []) ∧
    (nx (exec (.jobStart 0) s)).map (fun t => ((t.core 0).mode, (t.core 0).job)) = some (.running, some 1) ∧
    z.placeJob (tJob .waiting (tTask none)) 1 = none ∧ nx (exec (.jobStart 0) z) = some z := by decide +kernel
theorem witness_JobsStartAndComplete_image :
    let s := s0.wr 0x1000 1 0xAB; let e := { tTask none with image := 0x1000, imgLen := 1 }
    let u := s.startTask (tJob .running e) [71] [] 0 71 e
    s.canonical ∧ e.imgLen ≤ 1024 ∧ u.byte (spBase 71) = 0xAB#8 ∧ (u.coreAt 71).job = some 1 := by decide +kernel
/-- A LITE of the image to logical core 1's scratchpad names core 40 once task 1 runs there (R165; log 150). -/
theorem test_start_move_names_cores :
    let mv := startMove (tJob .running (tTask none)) [71, 40] [] 0 71
    mv.addr (spBase 1 + 8) = spBase 40 + 8 ∧ mv.addr (spBase 0 + 8) = spBase 71 + 8 := by decide +kernel
def tEntry (code kind : Nat) : CollEntry := ⟨0, 1, code, kind, 0, 0, 0⟩
/-- A core whose latch is full holds its next entry until Crown's collector takes the first (R323, R324). -/
theorem witness_JobsStartAndComplete_latchHeld :
    let s := (({ s0 with logical := [(0, 0)] }).latchEntry (tEntry 0 1)).latchEntry (tEntry 5 2)
    s.latchesOf 0 = [tEntry 0 1] ∧ s.latchHeld.find? (fun e => e.core == 0) = some (tEntry 5 2) ∧
    (nx (exec .collectorTake s)).map (fun t => (t.collQ, t.latchesOf 0, t.latchHeld)) =
      some ([tEntry 0 1], [tEntry 5 2], []) := by decide +kernel
theorem witness_JobsStartAndComplete_collect :
    let s := { s0 with latches := [(7, [tEntry 0 0])] }
    s.latchesOf 7 = [tEntry 0 0] ∧ (∀ d, d < 8 → d ≠ 7 → s.latchesOf d = []) ∧ s.collQ.length < 1024 ∧
    (nx (exec .collectorTake s)).map (fun t => (t.collQ, t.latches)) = some ([tEntry 0 0], []) := by decide +kernel
theorem witness_JobsStartAndComplete_completion :
    let s := { sFull with collQ := [tEntry 0 0], jobs := [tJob .running (tTask (some 0))] }; let z := { s with jobs := [] }
    s.collQ = [tEntry 0 0] ∧ s.jobOf 1 = some (tJob .running (tTask (some 0))) ∧ (s.heldFor 0).length < 1024 ∧
    (nx (exec .completionWrite s)).map (fun t => t.collQ) = some [] ∧
    z.jobOf 1 = none ∧ nx (exec .completionWrite z) = some { z with collQ := [] } := by decide +kernel
theorem witness_JobsStartAndComplete_held :
    let s := { sFull with
      collQ := [tEntry 0 0], jobs := [tJob .running (tTask (some 0))]
      host := { s0.host with held := List.replicate 1024 ⟨0, 0⟩ } }
    1024 ≤ (s.heldFor 0).length ∧ (nx (exec .completionWrite s)).map (fun t => t.collQ.length) = some 1 := by decide +kernel
theorem witness_JobsStartAndComplete_release :
    let s := { sFull with jobs := [tJob .faulted (tTask (some 0))] }; let r := { sFull with jobs := [tJob .running (tTask (some 0))] }
    (s.jobOf 1).map (·.st) = some .faulted ∧
    nx (exec (.faultedJobRelease 1) s) = some ((s.releaseCores 1).tryFinish 1) ∧
    nx (exec (.faultedJobRelease 1) r) = some r := by decide +kernel

/-- Core 1 of partition 1 runs task 0 of a job and stands at a boundary for `n`. -/
def sBound (n : Need) : State :=
  { sFull with
    jobs := [{ tJob .running (tTask (some 1)) with part := 1 }]
    cores := s0.cores.set 1 { Core.reset with mode := .boundary, job := some 1, needs := [n] } }
theorem witness_CoresFreedLentAndMoved_freed :
    let s := { sFull with logical := [(0, 0), (64 + 63, 1)] }; let b := { s with cores := s0.cores.set 1 { Core.reset with job := some 1 } }
    (∀ x ∈ [s, b], x.excess 1 = [63] ∧ x.mapByte 1 63 = 1) ∧ s.mapByte 1 63 < 72 ∧ (s.coreAt 1).job = none ∧
    (nx (exec (.partitionCoreFreed 1) s)).map (fun t => t.mapByte 1 63) = some 0xFF ∧
    (b.coreAt 1).job ≠ none ∧ nx (exec (.partitionCoreFreed 1) b) = some b := by decide +kernel
theorem witness_CoresFreedLentAndMoved_save :
    let s := sBound .suspend; let b := sBound .preempt
    s.savable 1 = true ∧ (s.core 1).needs.contains .suspend = true ∧ b.savable 1 = true ∧
    ((b.core 1).needs.contains .preempt = true ∧ b.dmaQ 1 = []) ∧
    (nx (exec (.stateSave 1) s)).map (fun t => ((t.core 1).job, (t.latchesOf 0).length)) = some (none, 1) := by decide +kernel
theorem witness_CoresFreedLentAndMoved_restore :
    let s := (sBound .preempt).saveTask 1
    s.coreOwner 1 = some 1 ∧ s.preempted 1 = some (1, 0) ∧ s.firstFreeIs 1 1 = true ∧ s.isSafety 1 = false ∧
    (nx (exec (.stateRestore 1) s)).map (fun t => ((t.core 1).job, (t.core 1).mode)) = some (some 1, .running) := by decide +kernel
theorem witness_CoresFreedLentAndMoved_borrow :
    let s := sFull.setOd 0x4030 1 1; let b := (sBound .preempt).setOd 0x4030 1 1
    sFull.od 0x4030 1 ≤ sFull.loans.length ∧ nx (exec .borrowRequest sFull) = some sFull ∧
    s.loans.length < s.od 0x4030 1 ∧ s.lendableCores.find? (fun q => (s.coreAt q).idle) = some 1 ∧
    (nx (exec .borrowRequest s)).map (fun t => t.loans) = some [⟨1, 1, 0, false⟩] ∧
    b.loans.length < b.od 0x4030 1 ∧ b.lendableCores = [1] ∧ (∀ r ∈ b.lendableCores, (b.coreAt r).idle = false) ∧
    (nx (exec .borrowRequest b)).map (fun t => (t.core 1).needs) = some [.preempt, .preempt] := by decide +kernel
theorem witness_CoresFreedLentAndMoved_handover :
    let s := { sFull with loans := [⟨1, 1, 0, false⟩] }
    s.openLoan 1 = some ⟨1, 1, 0, false⟩ ∧ (s.core 1).idle = true ∧ (List.range 64).find? (fun x => s.mapByte 0 x == 0xFF) = some 1 ∧
    (nx (exec (.borrowHandover 1 5500) s)).map (fun t => (t.mapByte 0 1, t.mapByte 1 0, t.od 0x4030 2, t.od 0x4030 3)) =
      some (0x81, 0xFE, 1, 0) ∧
    (nx (exec (.borrowHandover 1 5501) s)).map (fun t => (t.od 0x4030 3, t.host.journalNew.length)) = some (1, 1) := by decide +kernel
theorem witness_CoresFreedLentAndMoved_giveBack :
    let s := { sFull with loans := [⟨1, 1, 0, true⟩], logical := [(0, 0), (1, 0x81), (64, 0xFE)] }
    s.loans.find? (fun l => l.core == 1 && l.ready) = some ⟨1, 1, 0, true⟩ ∧ (s.core 1).idle = true ∧
    (List.range 64).find? (fun x => s.mapByte 0 x == 0x80 + 1) = some 1 ∧
    (nx (exec (.borrowReturn 1) s)).map (fun t => (t.loans, t.core 1)) = some ([], Core.reset) := by decide +kernel
theorem witness_CoresFreedLentAndMoved_reassign :
    let s := { sFull with safety := { sFull.safety with retired := [1] } }
    s.safety.testing.find? (fun t => t.core == 1 && t.passed == some false) = none ∧ s.safety.retired.contains 1 = true ∧
    s.coreOwner 1 ≠ none ∧ s.movable 1 = true ∧ s.freeCores.find? (fun q => q / 9 == 1 / 9) = some 2 ∧
    (nx (exec (.coreReassign 1) s)).map (fun t => t.mapByte 1 0) = some 2 := by decide +kernel
theorem witness_SavedTaskComesBack :
    let s := sBound .suspend; let j := { tJob .running (tTask (some 1)) with part := 1 }
    let u := (s.saveTask 1).placeSaved 1 0 1
    s.canonical ∧ (s.coreAt 1).job = some 1 ∧ s.jobOf 1 = some j ∧ j.taskOn 1 = some 0 ∧ (s.coreAt 1).saveMap = none ∧
    (s.coreAt 1).mode ≠ .halted ∧
    (u.coreAt 1).job = some 1 ∧ (u.coreAt 1).mode = .running := by decide +kernel

/-! ### Signal cores -/

/-- Signal core 0 running, its next instruction w at address 0 and v behind it. -/
def sSig2 (w v : Nat) (f : Sig → Sig) : State :=
  { s0 with
    mem := writeMem (writeMem [] (sigBase 0) 4 w) (sigBase 0 + 4) 4 v
    semOwner := [(9, 1)]
    sigs := s0.sigs.set 0 (f { Sig.reset with run := true, running := true }) }
def sSig (w : Nat) (f : Sig → Sig) : State := sSig2 w 0 f
/-- An instruction of an opcode. -/
def tIns (op rest : Nat) : Nat := op * 2 ^ 26 + rest
/-- sigAt as a check. -/
def sigAtB (s : State) (w : Nat) : Bool :=
  (s.sig 0).issues == true && s.power.stopped == false && decide ((s.sig 0).pc.toNat < 2 ^ 18) &&
    (s.sigWord 0 (s.sig 0).pc.toNat).1 == w
/-- Signal core 0 after a command. -/
def sig0 (c : Instr) (s : State) : Option Sig := (nx (exec c s)).map (fun t => t.sig 0)

theorem witness_ScalarArithmetic_aalu :
    ∀ fn < 16, let w := tIns 0x20 (3 * 2 ^ 22 + 1 * 2 ^ 18 + fn * 2 ^ 14 + 2 * 2 ^ 10); sigAtB (sSig w id) w = true ∧
      sigOp w = 0x20 ∧ bits w 9 0 = 0 ∧ bits w 17 14 = fn := by decide +kernel
theorem witness_ScalarArithmetic_values :
    let f := fun (c : Sig) => { c with a := (c.a.set 1 0x80000000#32).set 2 0xFFFFFFFF#32 }
    let w := fun (fn : Nat) => tIns 0x20 (3 * 2 ^ 22 + 1 * 2 ^ 18 + fn * 2 ^ 14 + 2 * 2 ^ 10)
    (sig0 (.aaluAdd 0) (sSig (w 0) f)).map (fun c => c.areg 3) = some 0x7FFFFFFF ∧
    (sig0 (.aaluMin 0) (sSig (w 8) f)).map (fun c => c.areg 3) = some 0x80000000 ∧
    (sig0 (.aaluSra 0) (sSig (w 7) f)).map (fun c => c.areg 3) = some 0xFFFFFFFF ∧
    (sig0 (.aaluSlt 0) (sSig (w 0xA) f)).map (fun c => c.areg 3) = some 1 ∧
    (sig0 (.sigOpcode 0) (sSig (w 0xB) f)).map (·.faulted) = some true := by decide +kernel
theorem witness_ScalarArithmetic_immediate :
    let w := tIns 0x21 (3 * 2 ^ 22 + 0x3FFF)
    sigAtB (sSig w id) w = true ∧ sigOp w = 0x21 ∧ (sig0 (.aaluAdd 0) (sSig w id)).map (fun c => c.areg 3) = some 0xFFFFFFFF := by
  decide +kernel
def tValu (fn imm : Nat) : Nat :=
  tIns 0x10 (5 * 2 ^ 21 + 1 * 2 ^ 16 + (if valuBinary fn then 2 * 2 ^ 11 else 0) + fn * 2 ^ 6 + (if valuImm fn then imm else 0))
theorem witness_VectorFunctions_rows :
    ∀ fn < 0x12, sigAtB (sSig (tValu fn 3) id) (tValu fn 3) = true ∧ sigOp (tValu fn 3) = 0x10 ∧ bits (tValu fn 3) 10 6 = fn ∧
      (valuBinary fn = false → bits (tValu fn 3) 15 11 = 0) ∧ (valuImm fn = false → bits (tValu fn 3) 5 0 = 0) := by decide +kernel
theorem witness_VectorFunctions_values :
    let f := fun (c : Sig) => { c with v := (c.v.set 1 0x80007FFF#512).set 2 0x00010001#512 }
    let r := fun (c : Instr) (fn : Nat) => (sig0 c (sSig (tValu fn 3) f)).map
      (fun c => [elemOf (c.vreg 5) 0, elemOf (c.vreg 5) 1, b2n c.flags.sat, b2n c.flags.inx])
    r (.valuAdd 0) 0x00 = some [0x7FFF, -0x7FFF, 1, 1] ∧ r (.valuNeg 0) 0x05 = some [-0x7FFF, 0x7FFF, 1, 1] ∧
    r (.valuShr 0) 0x09 = some [0x1000, -0x1000, 0, 1] ∧ r (.valuSwap 0) 0x08 = some [-0x8000, 0x7FFF, 0, 0] ∧
    r (.valuMov 0) 0x10 = some [0x7FFF, -0x8000, 0, 0] ∧ r (.valuBcast 0) 0x0F = some [0, 0, 0, 0] := by
  decide +kernel
theorem witness_MultiplyAccumulate_products :
    let f := fun (c : Sig) => { c with v := (c.v.set 4 0x80007FFF#512).set 8 0x00020003#512 }
    let w := fun (op : Nat) => tIns op (4 * 2 ^ 15 + 8 * 2 ^ 10)
    (∀ op ∈ [0x08, 0x0A, 0x0B], sigAtB (sSig (w op) f) (w op) = true ∧ sigOp (w op) = op ∧ macHeld (w op) = false ∧
      bits (w op) 9 6 = 0 ∧ bits (w op) 22 21 = 0 ∧ bits (w op) 19 15 % 4 = 0 ∧ bits (w op) 14 10 % 4 = 0) ∧
    (sig0 (.cmac 0) (sSig (w 0x08) f)).map (fun c => (c.acc 0).getD 0 (0, 0)) = some (163837, -32770) ∧
    (sig0 (.cdot3 0) (sSig (w 0x0A) f)).map (fun c => (c.acc 0).getD 0 (0, 0)) = some (163837, -32770) ∧
    (sig0 (.rmac 0) (sSig (w 0x0B) f)).map (fun c => (c.acc 0).getD 0 (0, 0)) = some (98301, -65536) := by decide +kernel
theorem witness_MultiplyAccumulate_memory :
    let w := tIns 0x09 (1 * 2 ^ 16 + 2 * 2 ^ 9); let f := fun (c : Sig) => { c with a := (c.a.set 1 64#32).set 2 128#32 }
    sigAtB (sSig w f) w = true ∧ sigOp w = 0x09 ∧ macHeld w = false ∧ badLocal (((sSig w f).sig 0).areg (bits w 19 16)) 64 = false ∧
    badLocal (((sSig w f).sig 0).areg (bits w 12 9)) 64 = false ∧ (sig0 (.cmacm 0) (sSig w f)).isSome := by decide +kernel
theorem witness_MultiplyAccumulate_accumulators :
    let w := fun (op : Nat) => tIns op (if op = 0x0D then 3 * 2 ^ 18 + 1 * 2 ^ 13 else if op = 0x0E ∨ op = 0x0F then 1 * 2 ^ 9 else 0)
    let f := fun (c : Sig) => { c with a := c.a.set 1 256#32, accs := c.accs.set 0 ((2 ^ 39 - 1, -3) :: List.replicate 15 (1, 1)) }
    (∀ op ∈ [0x07, 0x0C, 0x0D, 0x0E, 0x0F], sigAtB (sSig (w op) f) (w op) = true ∧ sigOp (w op) = op ∧ accField (w op) = false ∧
      badLocal (((sSig (w op) f).sig 0).areg (bits (w op) 12 9)) 256 = false) ∧
    (sig0 (.accsum 0) (sSig (w 0x07) f)).map (fun c => (c.acc 0).getD 0 (0, 0)) = some (2 ^ 39 - 1, 12) ∧
    (sig0 (.accclr 0) (sSig (w 0x0C) f)).map (fun c => (c.acc 0).getD 0 (0, 0)) = some (0, 0) ∧
    (sig0 (.accst 0) (sSig (w 0x0D) f)).map (fun c => laneOf (c.vreg 3) 0) = some (0x7FFF, -1) ∧
    (nx (exec (.accsv 0) (sSig (w 0x0E) f))).map (fun t => t.rd (sigBase 0 + 256) 8) = some (2 ^ 39 - 1) ∧
    (sig0 (.accrs 0) (sSig (w 0x0F) f)).map (fun c => (c.acc 0).getD 0 (0, 0)) = some (0, 0) := by decide +kernel
theorem witness_LoadsStoresAndMoves_vector :
    let w := fun (op : Nat) => tIns op (5 * 2 ^ 21 + 1 * 2 ^ 17 + 2 ^ 16)
    let f := fun (c : Sig) => { c with a := c.a.set 1 64#32, m := c.m.set 0 64#32, v := c.v.set 5 0xAB#512 }
    let b := fun (c : Sig) => { c with a := c.a.set 1 4#32 }
    (∀ op ∈ [0x01, 0x02], sigAtB (sSig (w op) f) (w op) = true ∧ sigOp (w op) = op ∧ bits (w op) 12 0 = 0 ∧ bit (w op) 16 = true ∧
      badLocal (((sSig (w op) f).sig 0).areg 1) 64 = false ∧ badLocal (((sSig (w op) b).sig 0).areg 1) 64 = true) ∧
    (sig0 (.vld 0) (sSig (w 1) f)).map (fun c => (c.vreg 5, c.areg 1)) = some (0, 128) ∧
    (nx (exec (.vst 0) (sSig (w 2) f))).map (fun t => t.rd (sigBase 0 + 64) 64) = some 0xAB ∧
    (sig0 (.vld 0) (sSig (w 1) b)).map (·.faulted) = some true := by decide +kernel
theorem witness_LoadsStoresAndMoves_pair :
    let w := tIns 0x03 (4 * 2 ^ 21 + 1 * 2 ^ 17 + 2 ^ 16 + 2 * 2 ^ 9 + 2 ^ 8)
    let f := fun (c : Sig) => { c with a := (c.a.set 1 64#32).set 2 128#32 }
    sigAtB (sSig w f) w = true ∧ sigOp w = 0x03 ∧ bits w 4 0 = 0 ∧ bits w 25 21 % 2 = 0 ∧ bit w 16 = true ∧ bit w 8 = true ∧
    badLocal (((sSig w f).sig 0).areg 1) 64 = false ∧ badLocal (((sSig w f).sig 0).areg (bits w 12 9)) 64 = false ∧
    (sig0 (.vld2 0) (sSig w f)).map (fun c => (c.areg 1, c.areg 2)) = some (64, 128) := by decide +kernel
theorem witness_LoadsStoresAndMoves_scalar :
    let w := fun (op : Nat) => tIns op (3 * 2 ^ 22 + 1 * 2 ^ 18 + 0x3FFC)
    let f := fun (c : Sig) => { c with a := (c.a.set 1 68#32).set 3 0x55#32 }
    (∀ op ∈ [0x22, 0x23], sigAtB (sSig (w op) f) (w op) = true ∧ sigOp (w op) = op ∧ bits (w op) 17 14 = 0 ∧
      badLocal (enc 32 (68 + sbits (w op) 13 0)) 4 = false) ∧
    (sig0 (.lds 0) (sSig (w 0x22) f)).map (fun c => c.areg 3) = some 0 ∧
    (nx (exec (.sts 0) (sSig (w 0x23) f))).map (fun t => t.rd (sigBase 0 + 64) 4) = some 0x55 := by decide +kernel
theorem witness_LoadsStoresAndMoves_moves :
    let w := fun (k rest : Nat) => tIns 0x24 (3 * 2 ^ 22 + k * 2 ^ 20 + rest)
    (∀ k < 4, sigAtB (sSig (w k 7) id) (w k 7) = true ∧ sigOp (w k 7) = 0x24 ∧ bits (w k 7) 19 16 = 0 ∧ bits (w k 7) 21 20 = k ∧
      bits (w k 7) 15 7 = 0 ∧ (((sSig (w k 7) id).sig 0).sysRead 0 7).isSome) ∧
    (sig0 (.li 0) (sSig (w 0 0xFFFF) id)).map (fun c => c.areg 3) = some 0xFFFFFFFF ∧
    (sig0 (.lih 0) (sSig (w 1 0xFFFF) id)).map (fun c => c.areg 3) = some 0xFFFF0000 ∧
    (sig0 (.mts 0) (sSig (w 2 7) id)).isSome ∧ (sig0 (.mfs 0) (sSig (w 3 7) id)).isSome := by decide +kernel
theorem witness_LoadsStoresAndMoves_circular :
    let x := { Sig.reset with a := Sig.reset.a.set 0 576#32, m := Sig.reset.m.set 7 128#32, l := Sig.reset.l.set 0 131080#32 }
    bits (vget x.l 0 0#32).toNat 28 16 = 2 ∧ (x.postMod 0 7).areg 0 = 64 * 9 := by decide +kernel
def sigAll : List (Nat × Instr) :=
  [(tIns 0x30 (1 * 2 ^ 22 + 5), .br 0), (tIns 0x31 5, .brl 0), (tIns 0x32 (1 * 2 ^ 22), .jr 0), (tIns 0x34 0, .waitCmd 0),
   (tIns 0x35 0, .rti 0), (tIns 0x36 0, .signalCoreHalt 0)]
theorem witness_SignalControl_branches :
    (∀ x ∈ sigAll, sigAtB (sSig x.1 id) x.1 = true ∧ (sig0 x.2 (sSig x.1 id)).isSome) ∧
    brTest (bits (tIns 0x30 (1 * 2 ^ 22 + 5)) 21 19) 0 = some true ∧ bits (tIns 0x31 5) 25 19 = 0 ∧ bits (tIns 0x32 (1 * 2 ^ 22)) 21 0 = 0 ∧
    (sig0 (.br 0) (sSig (tIns 0x30 (1 * 2 ^ 22 + 5)) id)).map (·.pc) = some 20#32 ∧
    (sig0 (.brl 0) (sSig (tIns 0x31 0x7FFFF) (fun c => { c with pc := 0#32 }))).map (fun c => (c.pc, c.areg 15)) =
      some (0xFFFFFFFC#32, 4) ∧
    (sig0 (.signalCoreHalt 0) (sSig (tIns 0x36 0) id)).map (·.run) = some false := by decide +kernel
theorem witness_SignalControl_rep :
    let add := tIns 0x21 (3 * 2 ^ 22 + 3 * 2 ^ 18 + 1); let br := tIns 0x31 5
    let w := tIns 0x33 4; let r := tIns 0x33 (1 * 2 ^ 22 + 2 ^ 18)
    sigAtB (sSig2 w add id) w = true ∧ sigOp w = 0x33 ∧ bits w 21 19 = 0 ∧ bits w 17 8 = 0 ∧ bit w 18 = false ∧ bits w 25 22 = 0 ∧
    ((sSig2 w add id).sigWord 0 4).1 = add ∧ repeatable add = true ∧ repeatable br = false ∧
    (sig0 (.rep 0) (sSig2 w add id)).map (fun c => c.areg 3) = some 5 ∧ (sig0 (.rep 0) (sSig2 w br id)).map (·.faulted) = some true ∧
    bit r 18 = true ∧ bits r 7 0 = 0 ∧
    (sig0 (.rep 0) (sSig2 r add (fun c => { c with a := c.a.set 1 256#32 }))).map (fun c => c.areg 3) = some 256 ∧
    (sig0 (.rep 0) (sSig2 r add id)).map (fun c => (c.areg 3, c.pc)) = some (0, 8#32) := by decide +kernel
theorem witness_SignalControl_post :
    let w := tIns 0x38 (5 * 2 ^ 21); let full := fun (c : Sig) => { c with posts := List.replicate 8 (0, 0, 0) }
    sigAtB (sSig w id) w = true ∧ sigOp w = 0x38 ∧ bits w 9 0 = 0 ∧
    bits ((sSig w id).od 0x3140 1) 63 0 + 0 = 0 ∧ ((sSig w id).sig 0).posts.length < 8 ∧
    (sig0 (.post ⟨0, []⟩) (sSig w id)).map (fun c => c.posts.map (fun x => x.2.2)) = some [2] ∧
    8 ≤ ((sSig w full).sig 0).posts.length ∧ nx (exec (.post ⟨0, []⟩) (sSig w full)) = some (sSig w full) := by
  decide +kernel
/-- A POST's write meets a write of the canton's ring in its cycle and loses it (R177, R349): W_LOST. -/
theorem witness_SignalControl_postWrite :
    let s := { s0 with logical := [(0, 0)] }; let q : MemReq := { tAt .drain (spBase 0) 8 2 with who := .part 0 }
    s.canonical ∧ s.accessCode (.part 0) (spBase 0) 8 .write = 0 ∧ placeOf (spBase 0) = .bank 0 ∧
    (s.postWrite 0 (spBase 0) 8 7 []).1 = 0 ∧ (s.postWrite 0 (spBase 0) 8 7 []).2.rd (spBase 0) 8 = 7 ∧
    (s.postWrite 0 (spBase 0) 8 7 [⟨.write, q⟩]).1 = 1 ∧ (s.postWrite 0 (spBase 0) 8 7 [⟨.write, q⟩]).2.rd (spBase 0) 8 = 2 := by
  decide +kernel
theorem witness_SignalControl_semaphores :
    let a := tIns 0x39 (9 * 2 ^ 10 + 3); let r := tIns 0x3A (9 * 2 ^ 10 + 1023); let busy := fun (c : Sig) => { c with posts := [(0, 0, 0)] }
    sigAtB (sSig a id) a = true ∧ sigAtB (sSig r id) r = true ∧ bits a 9 0 ≠ 0 ∧ (sSig a id).semPart (bits a 25 10) = some 0 ∧
    sigOp a = 0x39 ∧ sigOp r = 0x3A ∧ (sig0 (.sacq 0) (sSig a id)).map (·.semWait) = some true ∧
    (nx (exec (.srel 0) (sSig r id))).map (fun t => t.semCount 9) = some 1023 ∧
    nx (exec (.srel 0) (sSig r busy)) = some (sSig r busy) := by decide +kernel
theorem witness_SignalControl_held :
    let w := tIns 0x3F 0
    sigAtB (sSig w id) w = true ∧ sigKnown w = false ∧ sigOp w ≠ 0x10 ∧ sigOp w ≠ 0x20 ∧ sigOp w ≠ 0x21 ∧
    (sig0 (.sigOpcode 0) (sSig w id)).map (·.faulted) = some true := by decide +kernel
theorem witness_SignalControl_events :
    let s := sSig 0 (fun c => { c with ie := true, ien := 0xFFFF#16, ipend := 0x8000#16, ivec := 0x1000#32, tmr := 9#32, watch := 3#16 })
    let h := sSig 0 (fun c => { c with run := false }); let p := sSig 0 (fun c => { c with run := false, posts := [(0, 0, 0)] })
    let e := sSig 0 (fun c => { c with posts := [(7, 0, 3)] })
    (sig0 (.signalCoreStopped 0) h).map (·.running) = some false ∧ nx (exec (.signalCoreStopped 0) s) = some s ∧
    nx (exec (.signalCoreStopped 0) p) = some p ∧ (sig0 (.postResponse 0) p).map (·.posts) = some [] ∧
    (sig0 (.postResponse 0) e).map (·.faulted) = some true ∧
    ((s.sig 0).ipend &&& (s.sig 0).ien).getLsbD 15 = true ∧ (∀ r, r < 15 → ((s.sig 0).ipend &&& (s.sig 0).ien).getLsbD r = false) ∧
    (sig0 (.interruptTaken 0) s).map (fun c => (c.pc, c.ie)) = some (0x13C0#32, false) ∧ (s.sig 0).tmr ≠ 0#32 ∧
    (sig0 (.timer 0) s).map (fun c => (c.tmr, c.ipend)) = some (0#32, 0x8020#16) ∧
    (sig0 (.crownMessage 0) s).map (·.ipend) = some 0x8080#16 := by decide +kernel

/-! ### Radio cells -/

/-- A slot of frame 0, its takes k. -/
def tSlot (j : Nat) (took : List Nat) : SlotRec := ⟨0, j, took, [], none, 0, false, false, false⟩
/-- Cell 0 enabled and served in full service, `us` microseconds after T0 of slot 0 of frame 0, its slots l. -/
def sCell (us : Nat) (l : List SlotRec) : State :=
  let s := (s0.setOd 0x5000 1 0x61).setOd 0x5008 1 (0x7 * 65536 + 0x80)
  ({ s with
    power := { s.power with level := 4 }
    time := { s.time with now := (315964819 * 1000000 + 500 + us) * 1000 * 2 ^ 32 } }).setCell 0
    { CellSt.reset with running := true, slots := l }
/-- An eCPRI header as its bytes go out: revision, message type and eAxC ID in bytes 0, 1, 4 and 5 (R7). -/
def tEcpri (rev ty eaxc : Nat) : Nat := rev * 16 + ty * 256 + eaxc / 256 * 256 ^ 4 + eaxc % 256 * 256 ^ 5
def tUf (f : UFrame → UFrame) : UFrame := f ⟨tEcpri 1 0 7, 0, 0, 0, false, [⟨1, 9, 0, 0, [⟨1, List.replicate 24 3⟩]⟩]⟩

theorem witness_RadioSlotsAndWindows_cells :
    let s := (sCell 0 []).setCell 1 CellSt.reset; let b := s.setOd 0x5000 2 1
    bit (b.cellCfg 1) 0 = true ∧ (b.cell 1).running = false ∧ b.cellMayStart 1 = true ∧
    (nx (exec (.cellStart 1) b)).map (fun t => (t.cell 1).running) = some true ∧ nx (exec (.cellStart 1) s) = some s := by decide +kernel
theorem witness_RadioSlotsAndWindows_slot :
    let s := sCell 0 []; let f := { s with radio := { s.radio with lastSlot := some 1 } }
    s.radioOn = true ∧ s.slotNow s.muNow = 1 ∧ s.radio.lastSlot = none ∧
    (nx (exec .slot s)).map (fun t => ((t.cell 0).slots.map (·.slot), (t.sig 3).ipend)) = some ([1], 1#16) ∧
    nx (exec .slot f) = some f ∧ (nx (exec .symbol s)).map (fun t => (t.sig 3).ipend) = some 2#16 := by decide +kernel
theorem witness_RadioSlotsAndWindows_frames :
    let s := sCell 0 [tSlot 0 []]; let d := sCell 0 [tSlot 0 [0]]; let f := tUf id
    s.mapEntry 7 = some (0, 0) ∧ s.mapEntry 8 = none ∧ s.s1Over 0 0 0 = false ∧ d.s1Over 0 0 0 = true ∧ f.rev = 1 ∧ f.msgType = 0 ∧
    (nx (exec (.uPlaneFrame (tUf (fun f => { f with ecpri := tEcpri 2 0 7 }))) s)).map (fun t => t.radio.received.length) = some 0 ∧
    (nx (exec (.uPlaneFrame f) d)).map (fun t => t.radio.received.length) = some 0 ∧
    (nx (exec (.uPlaneFrame (tUf (fun f => { f with ecpri := tEcpri 1 0 8 }))) s)).map (fun t => t.radio.received.length) = some 0 := by
  decide +kernel
theorem witness_RadioSlotsAndWindows_symbolEnd :
    let s := sCell 0 [tSlot 0 []]
    (nx (exec (.uPlaneFrame (tUf (fun f => { f with last := true, sections := [] }))) s)).map (fun t => (t.sig 0).ipend) =
      some 4#16 := by decide +kernel
theorem witness_RadioSlotsAndWindows_cPlane :
    (nx (exec (.cPlaneFrame ⟨tEcpri 1 2 7, 3, 6⟩) s0)).map (·.out) = some [.cPlane 7 true] ∧
    (nx (exec (.cPlaneFrame ⟨tEcpri 1 2 7, 3, 7⟩) s0)).map (·.out) = some [.cPlane 7 false] ∧
    (nx (exec (.cPlaneFrame ⟨tEcpri 1 2 7, 2, 1⟩) s0)).map (·.out) = some [] := by decide +kernel
theorem witness_RadioSlotsAndWindows_take (us : Nat) (l : List SlotRec) (n : Nat) (hn : n ≠ 0) :
    let s := (sCell us l).setSem (doneSem 0 0) n
    s.semCount (doneSem 0 0) ≠ 0 ∧ s.cell 0 = (sCell us l).cell 0 := by
  refine ⟨?_, by simp only [State.cell, State.setSem_radio]⟩
  rw [State.semCount_setSem_same]
  · exact hn
  · show swf State.reset.sems zeroD
    decide
theorem witness_RadioSlotsAndWindows_times :
    (sCell 59 [tSlot 0 []]).nextTake 0 0 = some (tSlot 0 []) ∧ (sCell 59 [tSlot 0 [0], tSlot 1 []]).nextTake 0 0 = some (tSlot 1 []) ∧
    (sCell 59 [tSlot 0 []]).windowOf 0 0 = (0, 60) ∧ (sCell 9 [tSlot 0 []]).windowOf 0 1 = (10, 200) ∧
    (sCell 9 [tSlot 0 []]).sinceT0 0 (tSlot 0 []) = 9 * usUnits ∧ ((sCell 9 [tSlot 0 []]).cell 0).owed.contains 1 = false ∧
    nx (exec (.windowTake 0 0) (sCell 9 [tSlot 0 []])) = some (sCell 9 [tSlot 0 []]) := by
  refine ⟨by decide +kernel, by decide +kernel, by decide +kernel, by decide +kernel, by decide +kernel, by decide +kernel, ?_⟩
  have h : (sCell 9 [tSlot 0 []]).semCount (doneSem 0 0) = 0 := rfl
  show nx (Machine.execWindowTake 0 0 _) = _
  simp only [Machine.execWindowTake, h, if_true, nx, show (0 : Fin 6).val = 0 from rfl]
theorem witness_RadioSlotsAndWindows_late :
    let s := sCell 60 [tSlot 0 []]; let e := sCell 59 [tSlot 0 []]; let w := e.setOd 0x5011 1 1
    (nx (exec (.stageLate 0 0) s)).map (fun t => (t.cell 0).slots.map (fun r => (r.declared, r.path))) = some [(some 0, 1)] ∧
    (nx (exec (.stageLate 0 0) s)).map (fun t => ((t.cell 0).owed, (t.cell 0).fallback)) = some ([0, 1, 2, 3, 4, 5], some (0, 0)) ∧
    nx (exec (.stageLate 0 0) e) = some e ∧
    (nx (exec (.window 0 0) w)).map (fun t => ((t.cell 0).slots.map (·.warned), (t.sig 1).ipend)) = some ([[0]], 64#16) := by
  decide +kernel
theorem witness_RadioSlotsAndWindows_fallback :
    let f := fun us => (sCell us [tSlot 0 []]).setCell 0 { CellSt.reset with running := true, slots := [tSlot 0 []], fallback := some (0, 0) }
    (f 1000).fbLatest 0 = 1000 * usUnits ∧ nx (exec (.fbLatest 0) (f 999)) = some (f 999) ∧
    (nx (exec (.fbLatest 0) (f 1000))).map (fun t => ((t.cell 0).fallback, (t.cell 0).slots.map (fun r => (r.path, r.reported)))) =
      some (none, [(2, true)]) := by decide +kernel
theorem witness_RadioResultsAndCoding_records :
    let s := sCell 0 [tSlot 0 [], tSlot 1 []]; let x := (sCell 0 [{ tSlot 0 [] with frozen := true }]).setOd 0x5000 1 (2 ^ 27 + 1)
    s.radio.engLost = false ∧ s.radio.engRetired.all id = false ∧
    (nx (exec (.slotResultRecord 0 ⟨2, 3, 64⟩) s)).map (fun t => (t.cell 0).slots.map (·.reported)) = some [true, false] ∧
    bit (x.cellCfg 0) 27 = true ∧
    (nx (exec (.slotResultRecord 0 ⟨2, 3, 64⟩) x)).map (fun t => (t.cell 0).slots.map (·.path)) = some [2] := by decide +kernel
theorem witness_RadioResultsAndCoding_combine :
    combineLlrs [100, -100, 5] [100, -100, -6] = ([127, -127, -1], 2) ∧ bytesLlr (llrBytes [-127, 5]) 2 = [-127, 5] := by decide +kernel
theorem witness_RadioResultsAndCoding_engines :
    let s := sCell 0 []; let b : CodeBlock := ⟨0, false, 1, 2, 8, false, true, 2 ^ 40, 0, 0, [1, 2]⟩
    s.radio.engLost = false ∧ s.hbmUp = true ∧ (s.cell b.cell).slots.any (fun r => r.frame == 0 && r.slot == 0 && r.path == 2) = false ∧
    (nx (exec (.codeEngineRetired 2) s)).map (fun t => t.radio.engRetired) = some [false, false, true, false] ∧
    ((nx (exec (.codeEngineRetired 2) s)).map (fun t => nx (exec (.codeEngineRetired 2) t) = some t)).getD False := by
  refine ⟨by decide +kernel, by decide +kernel, by decide +kernel, by decide +kernel, ?_⟩
  exact rfl
theorem witness_RadioResultsAndCoding_downlink :
    let s := { s0 with radio := { s0.radio with dlDone := [(0, 3, 4, 5)] } }
    nx (exec (.dlSymbolSend 0 3 4 5 ⟨[], [1]⟩ 9) s) = some s ∧ nx (exec (.dlLate 0 3 4 5) s) = some s ∧
    (nx (exec (.dlSymbolSend 0 3 4 6 ⟨[], [255, -257]⟩ 9) s)).map (·.out) = some [.uPlane 0 1 [128, -128]] ∧
    s.enginesLeft = true ∧ (let z := { s with radio := { s.radio with engLost := true } }
      z.enginesLeft = false ∧ nx (exec (.dlSymbolSend 0 3 4 6 ⟨[⟨true, 1, 2, [true]⟩], []⟩ 9) z) = some z) ∧
    (nx (exec (.dlLate 0 3 4 6) s)).map (fun t => (t.radio.dlDone.length, t.host.journalNew.length)) = some (2, 1) := by decide +kernel
theorem witness_RadioResultsAndCoding_exponents :
    compressPrb 9 [-32768, 32767] = (8, [-128, 128]) ∧ compressPrb 14 [8191, -8192] = (0, [8191, -8192]) := by decide +kernel

/-! ### Far reach -/

/-- A drift ledger entry: address, wake time, period, guard, last heard, state and group; M 7, 200 kHz, R 2, 3 bytes. -/
def tLedger (addr wake period guard heard state group : Nat) : Nat :=
  addr * 2 ^ 480 + wake * 2 ^ 384 + period * 2 ^ 320 + guard * 2 ^ 288 + heard * 2 ^ 160 + 7 * 2 ^ 124 + 2 * 2 ^ 114 +
    group * 2 ^ 107 + state
/-- The link enabled with one ledger entry at address 0 and the timebase at `us` microseconds. -/
def sFr (w us : Nat) (f : FarReach → FarReach) : State :=
  let s := ((((s0.setOd 0x5800 1 1).setOd 0x5800 6 1).setOd 0x5800 5 0).setOd 0x6000 1 5)
  { s with mem := writeMem [] 0 64 w, time := { s.time with now := us * 1000 * 2 ^ 32 }, fr := f { s.fr with jesdUp := true } }
/-- A frame of M 7, 200 kHz in reception. -/
def tRx (c : Bool) (node : Option Nat) (recs : List Nat) : Rx := ⟨7, 0, 9, c, node, 0, 0, recs, 77, true⟩
def tUp : List Nat := [0, 64, 0, 64]
/-- A wake time of some microseconds. -/
def tWake (us : Nat) : Nat := toTime96 ((us * 1000 * 2 ^ 32 : Nat))

theorem witness_FarReachReception_code :
    gray 5 = 7 ∧ ungray 3 7 = 5 ∧ (chirpsOf 7 (List.replicate 70 false)).length = 21 := by decide +kernel
theorem witness_FarReachReception_record :
    let l : List Int := [3, -5, 3, 7, 1, 0, 2, -128, -6, -7]; let r := softRecord 0x1005 2 0x1003 l
    l.length = 10 ∧ (∀ v ∈ l, -128 ≤ v ∧ v ≤ 127) ∧ bits r 47 32 = 3 ∧ bits r 71 56 = 0 ∧ bits r 95 80 = 2 ∧ sbits r 231 224 = -7 ∧
    bits r 11 0 = 5 ∧ bits r 23 12 = 3 ∧ bits r 31 24 = 2 := by decide +kernel
theorem witness_FarReachReception_metrics :
    let l : List Nat := [100, 1, 1, 1, 1, 1, 1, 1, 1, 3]
    0 < (l.sum : Int) - ((best 8 (l.map Int.ofNat)).map (·.2)).sum ∧ (classicMetrics 0 l).getD 9 0 = 8 ∧
    (classicMetrics 0 l).getD 0 0 = 127 ∧ (classicMetrics 0 l).getD 1 0 = 0 := by decide +kernel
theorem witness_FarReachReception_detect :
    let s := sFr 0 0 id; let b := sFr 0 0 (fun f => { f with rx := [{ tRx false none [] with m := 12 }] })
    let u := [0, 2048, 0, 2048]
    s.frOn = true ∧ s.fr.txEn = false ∧ s.fr.jesdUp = true ∧ alternates (2 ^ 12) u = true ∧ s.listens 12 0 = some none ∧
    s.rxOf 12 0 = none ∧ s.fr.rx.length < 4 ∧ (b.rxOf 12 0).isSome = true ∧
    (nx (exec (.frameDetect 12 0 u 9) s)).map (fun t => t.fr.rx.map (·.m)) = some [12] ∧
    (nx (exec (.frameDetect 12 0 u 9) b)).map (fun t => t.fr.rx.length) = some 1 := by decide +kernel
theorem witness_FarReachReception_confirm :
    let s := sFr 0 0 (fun f => { f with rx := [tRx false none []] })
    s.rxOf 7 0 = some (tRx false none []) ∧
    (nx (exec (.frameConfirm 7 0 [1023, 511, 1023, 511] [5, 5]) s)).map (fun t => t.fr.rx.map (fun r => [r.freq, r.time])) =
      some [[2, 3]] ∧
    (nx (exec (.frameConfirm 7 0 [1023, 511, 1023, 511] [5]) s)).map (fun t => t.fr.rx.length) = some 0 ∧
    (nx (exec (.frameTimeout 7 0) s)).map (fun t => t.fr.rx.length) = some 0 := by decide +kernel
theorem witness_FarReachReception_symbol :
    let s := sFr 0 0 (fun f => { f with rx := [tRx true none [5]] }); let l := s.setOd 0x5800 1 (2 ^ 24 + 1)
    s.rxOf 7 0 = some (tRx true none [5]) ∧ bit (s.od 0x5800 1) 24 = false ∧
    (nx (exec (.symbolDemod 7 0 (List.replicate 128 1) 0 1) s)).map (fun t => t.fr.rx.map (fun r => r.recs.length)) = some [2] ∧
    bit (l.od 0x5800 1) 24 = true ∧ (nx (exec (.frLearnedLate 7 0) l)).map (fun t => t.fr.rx.map (·.recs)) = some [[77]] := by
  decide +kernel
theorem witness_FarReachReception_track :
    let s := sFr 0 0 (fun f => { f with rx := [tRx true none [5]] })
    (nx (exec (.pilotTrack 7 0 5 3) s)).map (fun t => t.fr.rx.map (fun r => [r.freq, r.time])) = some [[5, 3]] ∧
    (nx (exec (.pilotTrack 7 0 (-5) (-4)) s)).map (fun t => t.fr.rx.length) = some 0 := by decide +kernel
theorem witness_FarReachReception_end :
    let g := fun w => sFr w 0 (fun f => { f with rx := [tRx true (some 0) [5]] })
    let home := g (tLedger 0xA0 0 0 0 0 1 0); let far := (g (tLedger 0xA0 0 0 0 0 1 1)).setOd 0x5810 1 9
    home.rxOf 7 0 = some (tRx true (some 0) [5]) ∧ lgGroup (home.ledger 0) = 0 ∧ lgGroup (far.ledger 0) = 1 ∧
    far.siteOf 1 0 ≠ far.nodeId ∧
    (nx (exec (.frameEnd 7 0) far)).map (fun t => (t.out, t.fr.rx.length)) = some ([.frRecord 9 0xA0 0 5], 0) := by decide +kernel
theorem witness_FarReachReception_gain :
    let s := (sFr 0 0 (fun f => { f with gain := 9, since := 199 })).setOd 0x5800 2 (2 ^ 16 - 40)
    let z := sFr 0 0 (fun f => { f with rx := [tRx true none []] })
    s.frOn = true ∧ s.agcFrozen = false ∧ z.agcFrozen = true ∧
    (nx (exec (.agcUpdate (-10 * 2 ^ 16 + 3 * 2 ^ 16)) s)).map (fun t => (t.fr.gain, t.fr.since)) = some (9, 200) ∧
    (nx (exec (.agcUpdate (-10 * 2 ^ 16 + 3 * 2 ^ 16 + 1)) s)).map (fun t => (t.fr.gain, t.fr.since)) = some (5, 200) ∧
    (nx (exec (.agcUpdate (-10 * 2 ^ 16 - 6 * 2 ^ 16 - 1)) s)).map (fun t => (t.fr.gain, t.fr.since)) = some (10, 0) ∧
    (nx (exec (.agcUpdate 0) z)).map (fun t => t.fr.since) = some (min 200 (z.fr.since + 1)) := by decide +kernel
theorem witness_FarReachReception_noise :
    (nx (exec (.noiseFloorUpdate 31999 0) s0)).map (fun t => t.od 0x5801 2) = some 1 ∧
    (nx (exec (.noiseFloorUpdate 32000 (-8192)) s0)).map (fun t => (t.od 0x5801 1, t.od 0x5801 2)) = some (0, 0) := by decide +kernel
theorem witness_FarReachNodesAndPort_transmit :
    let e : Nat → FrTx := fun start => BitVec.ofNat 1024 (start * 2 ^ 416 + 9 * 2 ^ 380 + 2 * 2 ^ 370)
    let on := fun (s : State) => s.setRing 0 0x2820 { s.ring 0 0x2820 with enable := true, log2n := 8, prod := 1 }
    let s := on (sFr 0 1000 id); let off := on s0; let busy := on (sFr 0 0 (fun f => { f with rx := [tRx true none []] }))
    (s.ring 0 0x2820).enable = true ∧ (s.ring 0 0x2820).count ≠ 0 ∧ off.frOn = false ∧ s.txForm (e 0).toNat = some (9, 0) ∧
    s.txForm 0 = none ∧ (1 : Nat) < s.stamp ∧
    (nx (exec (.frTransmit (e 0)) off)).map (fun t => t.out.getLast?) = some (some (.frTxStatus 3 0)) ∧
    (nx (exec (.frTransmit 0#1024) s)).map (fun t => t.out.getLast?) = some (some (.frTxStatus 2 0)) ∧
    (nx (exec (.frTransmit (e 1)) s)).map (fun t => t.out.getLast?) = some (some (.frTxStatus 1 0)) ∧
    (nx (exec (.frTransmit (e 0)) s)).map (fun t => [t.fr.txEn, t.fr.rxEn]) = some [true, false] ∧
    (nx (exec (.frTransmit (e 0)) busy)).map (fun t => t.fr.deferred.length) = some 1 := by decide +kernel
theorem witness_FarReachNodesAndPort_tail :
    let s := sFr 0 0 (fun f => { f with txBusy := true, txEn := true, rxEn := false })
    (nx (exec .frTxTailEnd s)).map (fun t => [t.fr.txBusy, t.fr.txEn, t.fr.rxEn]) = some [false, false, true] := by decide +kernel
theorem witness_FarReachNodesAndPort_occurrence :
    let w := tLedger 0xA0 (tWake 1000) 0 100 (tWake 0) 1 0; let d := w + 2000000 * 2 ^ 256
    let s := sFr w 900 id; let z := sFr (tLedger 0xA0 (tWake 1000) 0 1 (tWake 0) 1 0 + 2 ^ 30 * 2 ^ 256) 1000 id
    s.frOn = true ∧ 0 < s.od 0x5800 6 ∧ lgState (s.ledger 0) = 1 ∧ (∀ x ∈ s.fr.windows, x.node ≠ 0) ∧ lgDrift d = 2000000 ∧
    (nx (exec (.nodeOccurrence 0) s)).map (fun t => t.fr.windows.map (·.opens)) = some [900 * usUnits] ∧
    (nx (exec (.nodeOccurrence 0) z)).map (fun t => lgState (t.ledger 0)) = some 2 := by decide +kernel
theorem witness_FarReachNodesAndPort_heard :
    let w := tLedger 0xA0 (tWake 1000) 0 100 (tWake 0) 1 0; let s := sFr w 1000 (fun f => { f with windows := [⟨0, 0, 9, false⟩] })
    (s.fr.windows.any (fun x => x.node == 0)) = true ∧ newDrift 0 w (tWake 1004) = 1000000 ∧
    (nx (exec (.nodeHeard 0 (tWake 1004)) s)).map (fun t => t.fr.windows.map (·.heard)) = some [true] ∧
    (nx (exec (.nodeHeard 0 (tWake 1004)) s)).map (fun t => lgDrift (t.ledger 0)) = some 1000000 := by decide +kernel
theorem witness_FarReachNodesAndPort_ends :
    let w := tLedger 0xA0 (tWake 1000) 5 100 (tWake 0) 1 0
    let s := fun h => (sFr w 1000 (fun f => { f with windows := [⟨0, 0, 9, h⟩] })).setOd 0x5800 3 2
    let z := (s false).setOd 0x5800 3 1
    (s true).fr.windows.find? (fun x => x.node == 0) = some ⟨0, 0, 9, true⟩ ∧ lgMiss w + 1 < (s false).od 0x5800 3 ∧
    z.od 0x5800 3 ≤ lgMiss w + 1 ∧
    (nx (exec (.occurrenceEnd 0) (s true))).map (fun t => [lgMiss (t.ledger 0), lgEpoch (t.ledger 0)]) = some [0, 1] ∧
    (nx (exec (.occurrenceEnd 0) (s false))).map (fun t => [lgMiss (t.ledger 0), lgState (t.ledger 0)]) = some [1, 1] ∧
    (nx (exec (.occurrenceEnd 0) z)).map (fun t => [lgMiss (t.ledger 0), lgState (t.ledger 0)]) = some [1, 2] := by decide +kernel
theorem witness_FarReachNodesAndPort_reacquire :
    let s := sFr (tLedger 0xA0 0 0 0 0 2 0) 0 id
    s.anyLost = true ∧ s.frOn = true ∧ s.fr.rx = [] ∧ s.fr.txBusy = false ∧ s0.anyLost = false ∧ nx (exec .beacon s0) = some s0 ∧
    lgState (s.ledger 0) = 2 ∧ lgAddr (s.ledger 0) = (0xA0#32).toNat ∧
    (nx (exec (.joinFrame 0xA0#32 1) s)).map (fun t => t.host.journalNew.length) = some 1 := by decide +kernel
theorem witness_FarReachNodesAndPort_combining :
    let s := (sFr (tLedger 0xA0 0 0 0 0 1 1) 0 id).setOd 0x5810 1 5
    let c : Combine := ⟨0xA0, 7, [3], some 9, false, false⟩; let b := { s with fr := { s.fr with combines := [c] } }
    s.nodeOf 0xA1 = none ∧ s.nodeOf 0xA0 = some 0 ∧ lgGroup (s.ledger 0) = 1 ∧ s.siteOf 1 0 = s.nodeId ∧
    (nx (exec (.combineRecord 0xA0#32 7#24 3#256) s)).map (fun t => t.fr.combines.map (·.recs)) = some [[3]] ∧
    (nx (exec (.combineRecord 0xA0#32 7#24 3#256) b)).map (fun t => t.fr.combines.map (·.recs)) = some [[3]] ∧
    b.fr.combines = [c] ∧ c.closed = false ∧ nx (exec (.combineWait 0xA0#32 7#24) s) = some s := by decide +kernel
theorem witness_FarReachNodesAndPort_converter :
    let s := sFr 0 0 id
    s.frOn = true ∧ s.fr.jesdUp = true ∧
    (nx (exec (.frJesd true 0) s)).map (fun t => [t.fr.jesdUp, t.fr.txEn]) = some [false, false] ∧
    nx (exec (.frJesd false 16) s) = some s ∧ (nx (exec (.frJesd false 17) s)).map (fun t => t.fr.jesdUp) = some false ∧
    (nx (exec .sysrefEdge { s with fr := { s.fr with jesdUp := false } })).map (fun t => t.fr.jesdUp) = some true := by decide +kernel

/-! ### Fabric -/

/-- This node is node 5; core 0 belongs to partition 0, semaphore 9 too. -/
def sNode (f : Fabric → Fabric) : State :=
  let s := s0.setOd 0x6000 1 5
  { s with logical := [(0, 0)], semOwner := [(9, 1)], fab := f s.fab }
/-- A message of node 6 to this node: type, role generation, units of payload, address, payload. -/
def tMsg (ty role len addr payload : Nat) : Msg := ⟨mkHdr 0 ty 5 6 role 3 len addr, payload⟩
/-- What a response names: destination and code. -/
def rsps (o : Option State) : Option (List (Nat × Nat)) :=
  o.map (fun t => t.out.filterMap (fun e => match e with | .msg m => some (hDst m.hdr, hAddr m.hdr % 16) | _ => none))
/-- A link that is up. -/
def tLink (f : LinkSt → LinkSt) : LinkSt := f { LinkSt.reset with up := true, good := 0xF#4, width := 3, partner := 6, pairVer := 0x20 }
/-- This node with link 0 up and node 6 behind it. -/
def sLink (f : LinkSt → LinkSt) : State :=
  ((sNode id).setOd 0x6002 1 0xF3).setLink 0 (tLink f)
/-- A run of job 3 over nodes 5 and 6. -/
def tRun3 (f : Run → Run) : Run := f ⟨3, 1, [5, 6], 2, [], none, false, []⟩
def sRun (f : Run → Run) : State := sNode (fun b => { b with runs := [tRun3 f], leases := [⟨6, 3, 1, 2⟩] })

theorem witness_HeaderFieldsRoundTrip :
    let h := mkHdr 3 63 4095 4094 65535 1023 255 (2 ^ 52 - 1)
    (hVer h, hVc h, hType h, hHops h) = (1, 3, 63, 0) ∧ (hDst h, hSrc h, hRole h, hTag h) = (4095, 4094, 65535, 1023) := by decide +kernel
theorem witness_MessageSlicesRoundTrip :
    let m := tMsg 1 1 3 64 (2 ^ 191 + 5); m.payload < 256 ^ payloadBytes m.hdr ∧ (msgSlices m).length = 3 ∧ msgOf (msgSlices m) = m := by
  decide +kernel
theorem witness_FlitSentPassesCheck : flitOk (mkFlit 7 4095 15) = true ∧ flitOk { mkFlit 7 4095 15 with data := 6#512 } = false := by
  decide +kernel
theorem witness_RequestsServed_refused :
    let s := sNode id; let bad := tMsg 1 1 129 (spBase 0) 0; let old := tMsg 1 2 1 (spBase 0) 7
    hDst bad.hdr = s.nodeId ∧ msgBad bad.hdr = true ∧ msgBad old.hdr = false ∧ s.roleOk old.hdr = false ∧
    (nx (exec (.fabricWrite old) s)).map (fun t => t.rd (spBase 0) 8) = some 0 := by decide +kernel
theorem witness_RequestsServed_served :
    let s := sNode id; let w := tMsg 1 1 1 (spBase 0 + 64) 0xAB; let z := tMsg 1 1 1 (spBase 1) 7
    msgBad w.hdr = false ∧ s.roleOk w.hdr = true ∧ s.reqOf w.hdr = .part 0 ∧ s.reqOf z.hdr = .nobody ∧ s.roleOk z.hdr = true ∧
    (nx (exec (.fabricWrite w) s)).map (fun t => t.rd (spBase 0 + 64) 8) = some 0xAB ∧
    (nx (exec (.fabricWrite z) s)).map (fun t => t.rd (spBase 1) 8) = some 0 := by decide +kernel
theorem witness_RequestsServed_lite :
    let s := sNode id; let l := tMsg 3 1 2 (spBase 0 + 64) (9 + 0xCD * 2 ^ 64); let z := tMsg 3 1 2 (spBase 0 + 64) 8
    hType l.hdr = 3 ∧ s.semPart (l.payload % 65536) = some 0 ∧
    (nx (exec (.fabricLite l) s)).map (fun t => (t.rd (spBase 0 + 64) 8, t.semCount 9)) = some (0xCD, 1) ∧
    (nx (exec (.fabricLite z) s)).map (fun t => t.semCount 8) = some 0 := by decide +kernel
theorem witness_RequestsServed_others :
    let s := sNode id; let g := tMsg 4 1 2 (spBase 0 + 64) 5; let r := tMsg 2 1 1 (spBase 0 + 64) 0; let c := tMsg 5 1 0 (spBase 0 + 1) 0
    hType g.hdr = 4 ∧ sramRun (hAddr g.hdr) 16 = true ∧ s.roleOk g.hdr = true ∧ hType r.hdr = 2 ∧ msgBad r.hdr = false ∧
    hType c.hdr = 5 ∧ coreOfAddr (hAddr c.hdr) = some 0 ∧ s.roleOk c.hdr = true ∧ (s.claimAt 0 (6, 1) 3).1 = .ok ∧
    (nx (exec (.gadd g) s)).map (fun t => t.rd (spBase 0 + 64) 16) = some 5 := by decide +kernel
theorem witness_RequestsServed_claims :
    let s := sNode (fun b => { b with claims := [(0, ⟨some (6, 1), false, false, [], []⟩)] })
    let q := sNode (fun b => { b with claims := [(0, ⟨some (6, 1), false, false, [(6, 1, 8)], []⟩)] })
    (s.claimAt 0 (6, 1) 3).1 = .yield ∧ (q.claimAt 0 (6, 1) 3).1 = .queued := by decide +kernel
theorem witness_MessagesForwarded :
    let s := sNode id; let m := fun (hops : Nat) => (⟨mkHdr 0 1 7 6 1 3 1 0 + BitVec.ofNat 128 (hops * 2 ^ 112), 0⟩ : Msg)
    let b : Msg := ⟨mkHdr 0 1 7 6 1 3 1 0 + BitVec.ofNat 128 (2 ^ 52), 0⟩
    s.inTurn (m 14) = true ∧ headBad (m 14).hdr = false ∧ headBad b.hdr = true ∧ hDst b.hdr ≠ s.nodeId ∧
    nx (exec (.messageForward b) s) = some (s.malformed b) ∧
    hDst (m 14).hdr ≠ s.nodeId ∧ hType (m 14).hdr = 1 ∧ hHops (m 14).hdr = 14 ∧ hHops (m 15).hdr = 15 ∧
    hHops ((m 14).hdr + BitVec.ofNat 128 (2 ^ 112)) = 15 ∧ hType (tMsg 0x22 0 2 0 0).hdr = 0x22 := by
  decide +kernel
theorem witness_MessagesForwarded_mgmt :
    let s := { sNode id with power := { s0.power with level := 4 }, safety := { s0.safety with crown := .running } }
    s.answers (.mgmt 6) = true ∧ s.transportUp (.mgmt 6) = true ∧ s.safety.crown = .running := by decide +kernel
theorem witness_ResponsesAnswerRequests_answers :
    let o : Outst := ⟨6, 3, .lite 1 0, tMsg 3 1 2 64 0, 7⟩; let s := sNode (fun b => { b with outst := [o] })
    let z := sNode (fun b => { b with outst := [{ o with stale := 6 }] })
    hDst (tMsg 0x10 0 0 3 0).hdr = s.nodeId ∧ s.answered (tMsg 0x10 0 0 3 0) = some o ∧ (sNode id).answered (tMsg 0x10 0 0 3 0) = none ∧
    hAddr (tMsg 0x10 0 0 8 0).hdr % 16 = 8 ∧ 7 ≤ o.stale ∧
    (nx (exec (.rsp (tMsg 0x10 0 0 3 0)) s)).map (fun t => t.fab.outst) = some [] ∧
    (nx (exec (.staleRole (tMsg 0x10 0 0 8 0) (.home 7 1 4)) s)).map (fun t => t.fab.outst) = some [] ∧
    (nx (exec (.staleRole (tMsg 0x10 0 0 8 0) (.home 7 1 4)) z)).map (fun t => t.fab.outst.map (fun o => (o.node, o.stale))) =
      some [(7, 7)] ∧
    (nx (exec (.staleRole (tMsg 0x10 0 0 8 0) .ended) z)).map (fun t => t.fab.outst) = some [] := by decide +kernel
theorem witness_ResponsesAnswerRequests_data :
    let o : Outst := ⟨6, 3, .dmaRead 1 (spBase 0 + 64) 0 8, tMsg 2 1 1 64 0, 0⟩
    let d : Dma := ⟨8 * 2 ^ 24, none, none, some 0, true, false, true, 1, 1, 0⟩
    let s := { sNode (fun b => { b with outst := [o] }) with dmas := [(1, [d])] }; let m := tMsg 0x11 0 1 0 0xEF
    hType m.hdr = 0x11 ∧ s.inTurn m = true ∧ msgBad m.hdr = false ∧ s.answered m = some o ∧ s.dmaHead 1 = some d ∧
    (nx (exec (.readData m) s)).map (fun t => (t.fab.outst, (t.dmaHead 1).map (·.wait))) = some ([], some 0) := by decide +kernel
/-- Three bytes at address 67 of node 6 are merged into the word read there and written back. -/
theorem witness_ResponsesAnswerRequests_merge :
    let o : Outst := ⟨6, 3, .dmaMerge 1 (6 * 2 ^ 52 + 67) 3 0xABCDEF, tMsg 2 1 1 64 0, 0⟩
    let s := sNode (fun b => { b with outst := [o] }); let m := tMsg 0x11 0 1 0 0x8877665544332211
    hType m.hdr = 0x11 ∧ s.inTurn m = true ∧ msgBad m.hdr = false ∧ s.answered m = some o ∧ wordWindow 67 3 = (64, 1) ∧
    (nx (exec (.readData m) s)).map (fun t => t.fab.outst.map (fun o => (o.node, hType o.msg.hdr, hAddr o.msg.hdr, o.msg.payload))) =
      some [(6, 1, 64, 0x8877ABCDEF332211)] := by decide +kernel
/-- A message behind an older one waits; a malformed one is dropped and counted. -/
theorem witness_TakenInTurn :
    let m := tMsg 0x12 0 0 (spBase 1) 0; let bad := tMsg 0x12 0 200 (spBase 1) 0
    let s := sNode (fun b => { b with inbox := [(0, tMsg 1 1 1 (spBase 0) 7)] })
    s.inTurn m = false ∧ (sNode id).inTurn bad = true ∧ msgBad bad.hdr = true ∧
    nx (exec (.freeMsg m) s) = some (s.await m) ∧ nx (exec (.freeMsg bad) (sNode id)) = some ((sNode id).malformed bad) := by decide +kernel
theorem witness_ResponsesAnswerRequests_claims :
    let s := sNode (fun b => { b with claims := [(1, ⟨some (6, 2), false, true, [], []⟩)] }); let m := tMsg 0x12 0 0 (spBase 1) 0
    hType m.hdr = 0x12 ∧ coreOfAddr (hAddr m.hdr) = some 1 ∧ (s.claim 1).own = some (6, 2) ∧ (s.claim 1).waiting = true ∧ hSrc m.hdr = 6 ∧
    (nx (exec (.freeMsg m) s)).map (fun t => (t.claim 1).waiting) = some false ∧
    (nx (exec (.claimRetry 1) s)).map (fun t => (t.claim 1).waiting) = some false := by decide +kernel
theorem witness_LeasesAndStagedCommit_heartbeats :
    let s := sRun id; let m := tMsg 0x20 0 2 0 2
    hType m.hdr = 0x20 ∧ hDst m.hdr = s.nodeId ∧ (nx (exec (.heartbeat m) s)).map (fun t => bits (t.od 0x6030 1) 55 48) = some 0x20 ∧
    s.fab.leases = [⟨6, 3, 1, 2⟩] ∧ nx (exec (.heartbeatSend 7) s) = some s ∧ nx (exec (.heartbeatTimeout 7) s) = some s ∧
    (nx (exec (.heartbeatTimeout 6) s)).map (fun t => t.fab.runs.map (·.fenced)) = some [true] := by decide +kernel
theorem witness_LeasesAndStagedCommit_leases :
    let s := sNode (fun b => { b with runs := [tRun3 id] }); let m := fun (src dst x : Nat) => (⟨mkHdr 3 0x23 dst src 0 0 2 0, runPayload 3 1 x 2⟩ : Msg)
    (nx (exec (.lease (m 5 6 1)) s)).map (fun t => t.fab.leases) = some [⟨6, 3, 1, 2⟩] ∧ bit (payX (m 6 5 1).payload) 1 = false ∧
    (nx (exec (.lease (m 6 5 1)) s)).map (fun t => t.fab.leases) = some [⟨6, 3, 1, 2⟩] ∧ bit (payX (m 6 5 3).payload) 1 = true ∧
    (nx (exec (.lease (m 6 5 2)) (sRun id))).map (fun t => t.fab.leases) = some [] := by decide +kernel
theorem witness_LeasesAndStagedCommit_commit :
    let s := sRun id; let d := fun (src : Nat) => (⟨mkHdr 3 0x24 5 src 0 0 2 0, runPayload 3 1 0 2⟩ : Msg)
    let h := sRun (fun r => { r with doneBy := [5] }); let o := sRun (fun r => { r with nodes := [4, 5] })
    s.runOf 3 1 = some (tRun3 id) ∧ [5, 6].foldl min s.nodeId = s.nodeId ∧ [4, 5].foldl min o.nodeId ≠ o.nodeId ∧
    hSrc (d 5).hdr = o.nodeId ∧ payStep (d 6).payload = 2 ∧
    (nx (exec (.stepDone (d 6)) s)).map (fun t => t.fab.runs.map (fun r => (r.doneBy, r.committed))) = some [([6], none)] ∧
    (nx (exec (.stepDone (d 6)) h)).map (fun t => (t.fab.runs.map (fun r => (r.step, r.committed)), t.fab.leases)) =
      some ([(3, some 2)], []) ∧
    (nx (exec (.commit ⟨mkHdr 3 0x25 5 6 0 0 2 0, runPayload 3 1 0 2⟩) s)).map (fun t => t.fab.runs.map (·.committed)) =
      some [some 2] := by decide +kernel
theorem witness_FencedGenerationsNeverCommit :
    let s := sRun id; let f := sRun (fun r => { r with fenced := true })
    (nx (exec (.fence ⟨mkHdr 3 0x26 5 6 0 0 2 0, runPayload 3 1 6 0⟩) s)).map (fun t => t.fab.runs.map (fun r => (r.fenced, r.dropped))) =
      some [(true, [6])] ∧
    f.runOf 3 1 = some (tRun3 (fun r => { r with fenced := true })) ∧
    (nx (exec (.commit ⟨mkHdr 3 0x25 5 6 0 0 2 0, runPayload 3 1 0 2⟩) f)).map (fun t => t.fab.runs) = some f.fab.runs := by decide +kernel
theorem witness_FencedGenerationsNeverCommit_recovery :
    let f := sRun (fun r => { r with fenced := true, dropped := [6] }); let j := { tJob .running (tTask none) with handle := 3 }
    let s := { f with jobs := [j] }; let b := s.setCore 0 { s.core 0 with job := some 3, mode := .running }
    s.fab.runs.find? (fun r => r.job == 3 && r.fenced) = some (tRun3 (fun r => { r with fenced := true, dropped := [6] })) ∧
    s.jobOf 3 = some j ∧ nx (exec (.fenceRecovery 3 true true) b) = some b ∧
    (nx (exec (.fenceRecovery 3 true true) s)).map (fun t => t.fab.runs.map (fun r => (r.gen, r.step, r.fenced))) =
      some [(2, 3, false)] ∧
    (nx (exec (.fenceRecovery 3 false false) s)).map (fun t => t.fab.runs.length) = some 0 := by decide +kernel
theorem witness_FlitsTakenInOrder :
    let s := sLink id; let f := mkFlit (idleSlice.toNat) 0 1
    (s.link 0).up = true ∧ (s.link 0).training = false ∧ flitOk f = true ∧ bits f.word.toNat 31 20 = (s.link 0).expSeq ∧
    (nx (exec (.flitReceive 0 f) s)).map (fun t => ((t.link 0).expSeq, (t.link 0).nak)) = some (1, false) ∧
    (nx (exec (.flitReceive 0 { f with data := 0#512 }) s)).map (fun t => ((t.link 0).expSeq, (t.link 0).nak)) = some (0, true) := by
  decide +kernel
theorem witness_FlitsTakenInOrder_control :
    let s := fun (n : Nat) => sLink (fun x => { x with replay := [(4, mkFlit 0 4 0, 1), (5, mkFlit 0 5 0, n)], nak := true, owed := [1, 2, 3, 4] })
    (nx (exec (.linkCtl 0 5#12 false 0#64) (s 2))).map (fun t => (t.link 0).replay.map (·.1)) = some [5] ∧
    (nx (exec (.linkCtl 0 5#12 true 0#64) (s 2))).map (fun t => (t.link 0).replay.map (·.2.2)) = some [3] ∧
    (nx (exec (.linkCtl 0 5#12 true 0#64) (s 8))).map (fun t => (t.link 0).training) = some true ∧
    (nx (exec (.linkCtlSend 0) (s 2))).map (fun t => ((t.link 0).owed, t.out)) = some ([0, 0, 0, 0], [.linkCtl 0 0 true [1, 2, 3, 4]]) := by
  decide +kernel
theorem witness_LinkWidthAndTraining_lanes :
    let s := sLink id; let d := sLink (fun x => { x with good := 0xE#4, width := 2, passes := [2, 0, 0, 0] })
    (nx (exec (.laneDrop 0 3) s)).map (fun t => ((t.link 0).width, (t.link 0).training)) = some (2, true) ∧
    bit (d.linkCfg 0) 1 = true ∧ (d.link 0).good.getLsbD 0 = false ∧
    (nx (exec (.laneTest 0 0 true) d)).map (fun t => (t.link 0).width) = some 3 ∧
    (nx (exec (.laneTest 0 0 false) d)).map (fun t => (t.link 0).passes) = some [0, 0, 0, 0] ∧
    (nx (exec (.retrainComplete 0) (sLink (fun x => { x with training := true })))).map (fun t => (t.link 0).training) = some false := by
  decide +kernel
theorem witness_LinkWidthAndTraining_training :
    let s := (sNode id).setOd 0x6002 1 0xF1; let t := fun (node high low : Nat) => (⟨node, high, low, [1, 0], 0xF#4⟩ : TrainInfo)
    bit (s.linkCfg 0) 0 = true ∧ (t 5 2 1).node = s.nodeId ∧ s.pairVersion 3 3 [] = none ∧ s.pairVersion 2 1 [1, 0] = some 0x20 ∧
    widthOk (s.linkCfg 0) 3 0x20 = true ∧ (nx (exec (.linkTraining 0 (t 6 2 1)) s)).map (fun u => (u.link 0).up) = some true ∧
    (nx (exec (.linkTraining 0 (t 5 2 1)) s)).map (fun u => (u.link 0).up) = some false ∧
    (nx (exec (.linkTraining 0 (t 6 3 3)) s)).map (fun u => (u.link 0).up) = some false := by decide +kernel
/-- A partner that retrains a link in use after its minors rose: what is unacknowledged stays, the pair version follows. -/
theorem witness_LinkWidthAndTraining_upLink :
    let i : TrainInfo := ⟨6, 2, 1, [1, 3], 0xF#4⟩
    let s := { sLink (fun x => { x with replay := [(4, mkFlit 0 4 0, 1)], peer := some i }) with
      safety := { s0.safety with minors := [1, 2] } }
    (s.link 0).up = true ∧ (s.link 0).pairVer = 0x20 ∧ bit (s.linkCfg 0) 0 = true ∧ s.pairVersion 2 1 [1, 3] = some 0x22 ∧
    ((s.repair 0).link 0).pairVer = 0x22 ∧
    (nx (exec (.linkTraining 0 i) s)).map (fun u => ((u.link 0).pairVer, (u.link 0).replay.map (·.1))) = some (0x22, [4]) ∧
    (nx (exec (.retrainComplete 0) (s.setLink 0 { s.link 0 with training := true }))).map (fun u => (u.link 0).pairVer) =
      some 0x22 := by decide +kernel
/-- A tunnel frame's header: sequence of its first flit, its flits and whether it asks for resending. -/
def tTun (seq n : Nat) (nak : Bool) : BitVec 256 :=
  BitVec.ofNat 256 (2 ^ 252 + 6 * 2 ^ 236 + 5 * 2 ^ 224 + (n - 1) * 2 ^ 217 + b2n nak * 2 ^ 216 + seq * 2 ^ 96 + 4 * 2 ^ 64)
theorem witness_TunnelFramesTakenInOrder :
    let s := ((sNode id).setOd 0x6020 1 (6 * 2 ^ 372 + 1)).setTun 0 { (sNode id).tun 0 with unacked := [(3, 0#512), (4, 0#512)] }
    let f := fun (seq : Nat) (nak icv : Bool) => (⟨tTun seq 1 nak, [BitVec.ofNat 512 idleSlice.toNat], icv, true⟩ : TunFrame)
    bit (s.tunCfg 0) 0 = true ∧ s.tunOk 0 (f 0 false true) = true ∧ s.tunOk 0 (f 0 false false) = false ∧
    bit (f 0 true true).hdr.toNat 216 = true ∧ bit (f 0 false true).hdr.toNat 216 = false ∧
    (nx (exec (.tunnelFrame 0 (f 0 false true)) s)).map (fun t => ((t.tun 0).up, (t.tun 0).expSeq, (t.tun 0).unacked.map (·.1))) =
      some (true, 1, [4]) ∧
    (nx (exec (.tunnelFrame 0 (f 9 false true)) s)).map (fun t => ((t.tun 0).expSeq, (t.tun 0).nak)) = some (0, true) ∧
    (nx (exec (.tunnelFrame 0 (f 0 false false)) s)).map (fun t => (t.tun 0).up) = some false := by decide +kernel

/-! ### Time -/

/-- The device with its timebase at some units of 2^-32 ns and adjustments waiting. -/
def sTime (now : Nat) (pend : List TbAdj) : State := { s0 with time := { s0.time with now := now, pend := pend } }
theorem witness_TimebaseTicksAndAdjustments :
    let t1 := toTime96 (5 * 2 ^ 32 : Nat)
    (sTime 7 []).power.stopped = false ∧ (sTime 7 []).time.inc = 0x140000000 ∧
    (nx (exec .timebaseTick (sTime 7 []))).map (·.time.now) = some (7 + 0x140000000) ∧
    (nx (exec .tbAdjustApply (sTime 7 [.step (-65536), .inc 9]))).map (fun t => (t.time.now, t.time.pend)) =
      some (7 + 0x140000000 - 2 ^ 32, [.inc 9]) ∧
    (nx (exec .tbAdjustApply (sTime 7 [.set t1]))).map (·.time.now) = some (5 * 2 ^ 32) ∧
    (nx (exec .tbAdjustApply (sTime 7 [.inc 9]))).map (fun t => (t.time.now, t.time.inc)) = some (16, 9) := by decide +kernel
theorem witness_NoInstantFiresTwice :
    let s := sTime (1001 * 2 ^ 32) []
    (nx (exec (.scheduledInstant (2 ^ 32)) s)).map (fun t => t.time.fired) = some [2 ^ 32] ∧
    (nx (exec (.scheduledInstant (2 ^ 32 - 1)) s)).map (fun t => t.time.fired) = some [2 ^ 32 - 1] ∧
    nx (exec (.scheduledInstant (1001 * 2 ^ 32 + 1)) s) = some s := by decide +kernel
theorem witness_ReferencesPinsAndPorts :
    let s := { sTime 0 [] with time := { (sTime 0 []).time with refSel := false } }; let b := sTime 0 []
    let u := { s with time := { s.time with portUp := List.replicate 8 true } }
    s.time.refSel = false ∧ b.time.refSel = true ∧ (nx (exec .tbRefLost s)).map (fun t => (t.time.refSel, t.host.journalNew.length)) = some (true, 1) ∧
    (nx (exec .tbRefOk b)).map (fun t => (t.time.refSel, t.host.journalNew.length)) = some (false, 1) ∧
    (nx (exec (.ppsInEdge 99) (sTime (2 ^ 32) []))).map (·.time.lastPps) = some 0 ∧
    (nx (exec (.ppsInEdge 100) (sTime (2 ^ 32) []))).map (·.time.lastPps) = some 65536 ∧
    u.time.portUp.length = 8 ∧ (nx (exec (.portLinkDown 3) u)).map (·.latEntry 3) = some 0 ∧ portLatency 400 false = some (744, 329) ∧
    bit (u.od 0x6110 4) 56 = false ∧ swf u.dict odDef ∧ portLatency 10 false = none ∧
    (nx (exec (.portLinkUp 3 400 false) u)).map (fun t => t.latEntry 3) = some (4875878 + 2156134 * 2 ^ 28) := by decide +kernel
/-- A frame's bytes: Ethertype at bytes 12 and 13 and what follows. -/
def tEth (ty body : Nat) : Nat := setWire 0 12 2 ty + 256 ^ 14 * body
/-- IPv6 with a UDP header to a port. -/
def tUdp6 (dst : Nat) : Nat := tEth 0x86DD (setWire (17 * 256 ^ 6) 42 2 dst)
def tFrame (content : Nat) : PortFrame := ⟨2, 100 * 2 ^ 16, 64, content, false, 64, 2⟩
theorem test_wireFields :
    let w := setWire 0xFFFFFFFF 1 2 0x1234
    (wireField w 1 2, wireByte w 0, wireByte w 1, wireByte w 2, wireByte w 3) = (0x1234, 0xFF, 0x12, 0x34, 0xFF) ∧
    wireTags (setWire (setWire 0 12 2 0x8100) 16 2 0x88F7) = 1 ∧
    wirePtp (setWire (setWire 0 12 2 0x8100) 16 2 0x88F7) = some 18 := by decide +kernel
/-- A state with ring off of function 0 open. -/
def sRing (off prod cons : Nat) : State :=
  { s0.setRing 0 off { Ring.reset with enable := true, prod := prod, cons := cons, base := 4096 } with
    host := { (s0.setRing 0 off { Ring.reset with enable := true, prod := prod, cons := cons, base := 4096 }).host with pcieUp := true } }
theorem witness_FieldPortFramesStamped :
    let s := sRing (p0Ring 4) 1 0; let v6 := fun d => tFrame (tUdp6 d)
    let p := s.setOd 0x6100 6 0x0A; let e := tFrame (tEth 0x88F7 8); let o := tFrame (tEth 0x0800 0x45)
    bits (s.latEntry 2) 27 0 ≤ o.capture ∧ wirePtpAny o.content = false ∧ wirePtpAny e.content = true ∧ wirePtpEvent e.content = false ∧
    p.srcKind = 1 ∧ p.srcIndex = 2 ∧ (v6 48621).ipVersion = 6 ∧ (v6 48621).udpDst = 48621 ∧ e.isEcpri = false ∧
    (nx (exec (.fieldPortFrame (tFrame (tEth 0xAEFE 0x10))) s)).map (·.out) = some [.pktRx 0 (100 * 2 ^ 16)] ∧
    (nx (exec (.fieldPortFrame (v6 48621)) s)).map (·.out) = some [.pktRx 1 (100 * 2 ^ 16)] ∧
    (nx (exec (.fieldPortFrame (v6 48620)) s)).map (·.out) = some [.pktRx 2 (100 * 2 ^ 16)] ∧
    (nx (exec (.fieldPortFrame e) p)).map (·.out) = some [.pktRx 3 (100 * 2 ^ 16)] ∧
    (nx (exec (.fieldPortFrame o) s)).map (fun t => (t.ring 0 (p0Ring 4)).cons) = some 1 := by decide +kernel
/-- The bytes of a PTP message: its type, correctionField and originTimestamp. -/
def tPtpBytes (ty corr origin : Nat) : Nat := setWire (setWire (tEth 0x88F7 ty) 22 8 corr) 48 10 origin
def tPtp (mode ty : Nat) (ptp : Bool) : PtpTx :=
  ⟨2, mode, 64, if ptp then tPtpBytes ty 5 0x77 else tEth 0x0800 0x45, 0, 9 * 2 ^ 16 + 3, false⟩
theorem witness_OneStepFramesCorrected :
    let r := sRing (p0Ring 3) 1 0; let s := { r with time := { r.time with portUp := List.replicate 8 true } }
    let w := { s with time := { s.time with pend := [.step 5] } }
    (s.ring 0 (p0Ring 3)).enable = true ∧ (s.ring 0 (p0Ring 3)).count ≠ 0 ∧ s.time.portUp.getD 2 false = true ∧
    (∀ v, TbAdj.step 5 ≠ .inc v) ∧ nx (exec (.pktTxSend (tPtp 2 0 true)) w) = some w ∧
    (nx (exec (.pktTxSend (tPtp 0 0 true)) r)).map (fun t => t.out.take 1) = some [.pktDone 3 none] ∧
    (nx (exec (.pktTxSend (tPtp 3 0 true)) s)).map (fun t => t.out.take 1) = some [.pktDone 4 none] ∧
    (nx (exec (.pktTxSend (tPtp 0 0 true)) s)).map (fun t => t.out.take 2) = some [.frameSent 2 64 (tPtpBytes 0 5 0x77), .pktDone 0 none] := by
  refine ⟨by decide +kernel, by decide +kernel, by decide +kernel, by simp, ?_⟩
  decide +kernel
theorem witness_OneStepFramesCorrected_modes :
    let r := sRing (p0Ring 3) 1 0; let s := { r with time := { r.time with portUp := List.replicate 8 true } }
    let te := toTime96 ((9 * 2 ^ 16 + 3) * 2 ^ 16 : Nat)
    bits (s.latEntry 2) 55 28 = 0 ∧ (tPtp 2 3 true).hasPtp = true ∧ (tPtp 2 3 true).ptpType = 3 ∧ (tPtp 2 3 true).correction = 5 ∧
    (nx (exec (.pktTxSend (tPtp 1 0 true)) s)).map (fun t => t.out.take 2) =
      some [.frameSent 2 64 (tPtpBytes 0 5 0x77), .pktDone 0 (some te)] ∧
    (nx (exec (.pktTxSend (tPtp 2 0 true)) s)).map (fun t => t.out.take 2) =
      some [.frameSent 2 64 (tPtpBytes 0 8 9), .pktDone 0 (some te)] ∧
    (nx (exec (.pktTxSend (tPtp 2 3 true)) s)).map (fun t => t.out.take 2) =
      some [.frameSent 2 64 (tPtpBytes 3 (9 * 2 ^ 16 + 8) 0x77), .pktDone 0 (some te)] ∧
    (nx (exec (.pktTxSend (tPtp 2 3 false)) s)).map (fun t => t.out.take 2) =
      some [.frameSent 2 64 (tEth 0x0800 0x45), .pktDone 2 (some te)] := by
  decide +kernel
theorem witness_BrimTimeExchange :
    let s := ((sTime (40 * 2 ^ 32) []).setLink 1 { LinkSt.reset with up := true }).setOd 0x6100 6 0x11
    let rq : BitVec 384 := BitVec.ofNat 384 (7 * 2 ^ 288)
    let rs := fun (rep : Nat) => BitVec.ofNat 384 (10 * 2 ^ 16 * 2 ^ 288 + 25 * 2 ^ 16 * 2 ^ 192 + 30 * 2 ^ 16 * 2 ^ 96 + 2 ^ 76 + rep * 2 ^ 75)
    (s.link 1).up = true ∧ bits rq.toNat 79 76 = 0 ∧ bits (rs 0).toNat 79 76 = 1 ∧ bit (rs 0).toNat 75 = false ∧ s.srcKind = 2 ∧
    s.srcIndex = 1 ∧ bits (rs 0).toNat 95 80 = s.fab.timeSeq ∧
    (nx (exec (.timeResponse 1 (rs 0)) s)).map (fun t => (t.time.theta, t.time.delay)) = some (2 * 65536 + 32768, 12 * 65536 + 32768) ∧
    nx (exec (.timeResponse 1 (rs 1)) s) = some s ∧
    (nx (exec .timeExchangeStart s)).map (fun t => t.fab.timeSeq) = some 1 := by decide +kernel

/-! ### Management and host -/

/-- The device in full service with the PCIe link up. -/
def sUp : State := { s0 with power := { s0.power with level := 4 }, host := { s0.host with pcieUp := true } }
theorem witness_DictionaryWriteServed :
    sUp.answers .pf = true ∧ sUp.transportUp .pf = true ∧ sUp.safety.crown = .running ∧
    sUp.odWriteErr .pf 0x2400 1 1 9 = odRange ∧ sUp.odWriteErr .pf 0x5020 1 1 7 = odOk ∧ sUp.odWriteErr .pf 0x9000 1 2 7 = odReadOnly ∧
    (nx (exec (.dictionaryWrite .pf 0x2400 1 1 9) sUp)).map (·.out) = some [.odReply .pf 0x2400 1 odRange 0 0] := by decide +kernel
theorem witness_DictionaryWriteServed_persisted :
    (entryOf 0x6000 1).map (·.acc) = some .rwp ∧ sUp.odWriteErr .pf 0x6000 1 2 5 = odOk ∧
    (nx (exec (.dictionaryWrite .pf 0x6000 1 2 5) sUp)).map (fun t => (t.nodeId, t.out, t.host.persists.length)) = some (5, [], 1) := by
  decide +kernel
theorem witness_DictionaryWriteServed_plain :
    (entryOf 0x9100 3).map (fun e => e.acc == .rwp) = some false ∧ sUp.odWriteErr .pf 0x6100 3 8 1 = odOk ∧
    (nx (exec (.dictionaryWrite .pf 0x6100 3 8 1) sUp)).map (fun t => (t.time.pend, t.out)) =
      some ([.step 1], [.odReply .pf 0x6100 3 odOk 0 0]) := by decide +kernel
theorem witness_NamedWritesAreEntryWrites :
    (∀ i < 3, (entryOf (0x3200 + 0x10 * i) 1).isSome) ∧
    (∀ e ∈ [(0x4020, 1), (0x4180, 1), (0x3120, 1), (0x3140, 1), (0x5000, 1), (0x5800, 1), (0x5810, 1), (0x6000, 1), (0x6010, 1),
      (0x6002, 1), (0x6020, 1), (0x6100, 2), (0x6100, 3), (0x6100, 4), (0x6100, 6), (0x6100, 10), (0x6110, 1), (0x8300, 1),
      (0x8300, 33), (0x8000, 1), (0x7000, 1), (0x7030, 5), (0x2400, 2)], (entryOf e.1 e.2).isSome) ∧
    isVisor 0x8300 = true ∧ isCounter 0x8300 32 = true ∧ isCounter 0x8300 33 = false := by decide +kernel
theorem witness_NamedWritesAreEntryWrites_answers :
    (nx (exec (.confirm .pf) sUp)).map (·.out) = some [.odReply .pf 0x7030 5 (sUp.odWriteErr .pf 0x7030 5 1 3) 0 0] ∧
    (nx (exec (.tbStep .pf 1) sUp)).map (·.time.pend) = some [.step 1] ∧
    (nx (exec (.visorHoldWrite .pf 1) sUp)).map (fun t => t.od 0x8000 1) = some 1 := by decide +kernel
theorem witness_AcceptedWriteEffects :
    (s0.sig 2).running = false ∧ 0 ∉ s0.power.quadLost ∧ bit 0x30001 0 = true ∧
    ((s0.odApply 0x3120 3 0x30001).sig 2).pc = 12#32 ∧ (s0.odApply 0x6100 3 (2 ^ 64 - 1)).time.pend = [.step (-1)] ∧
    (s0.odApply 0x2400 2 1).power.alertLow = false ∧ (s0.odApply 0x7030 5 4).safety.reqRevert = true ∧
    ((s0.odApply 0x3120 3 0x30001).sig 2).running = true ∧
    (((s0.setCell 1 { CellSt.reset with running := true }).odApply 0x5000 2 8).cell 1).running = false ∧
    s0.canOpen = false ∧ (s0.setXfer (.can 0 tHead) (some ⟨.can 0 tHead, 0, true, 0x3140, 1, 128, 0, 0⟩)).canOpen = true := by decide +kernel
theorem witness_EntryReadsBackWrite :
    swf s0.dict odDef ∧ (s0.setOd 0x6000 1 7).od 0x6000 1 = 7 ∧ ((s0.setOd 0x6000 1 7).setOd 0x6000 1 (odDef (odKey 0x6000 1))).dict = [] := by
  decide +kernel
theorem witness_MailboxAccess :
    let rd : BitVec 64 := BitVec.ofNat 64 (2 ^ 63 + 0x6000 * 256 + 1); let wr := rd + BitVec.ofNat 64 (2 ^ 62 + 8 * 2 ^ 49 - 2 ^ 9 + 2 ^ 9)
    let b := sUp.setMailbox (some 0) { Mailbox.reset with busy := true }
    sUp.host.pcieUp = true ∧ bit rd.toNat 63 = true ∧ bit wr.toNat 62 = true ∧ (sUp.mailbox (some 0)).busy = false ∧
    (b.mailbox (some 0)).busy = true ∧ nx (exec (.odRead (some 0) rd) b) = some b ∧
    (nx (exec (.odRead (some 0) rd) sUp)).map (fun t => ((t.mailbox (some 0)).done, (t.mailbox (some 0)).err, (t.mailbox (some 0)).rlen)) =
      some (true, 0, 2) ∧
    (nx (exec (.odWrite (some 0) wr 5) sUp)).map (fun t => ((t.mailbox (some 0)).done, (t.mailbox (some 0)).err)) =
      some (true, odLength) := by decide +kernel
def tFrm (cmd index sub len dlen arg data : Nat) : AccFrame := ⟨cmd, arg, index, sub, len, dlen, data⟩
theorem witness_AccessFramesWithoutTransfer :
    let p : Path := .can 0 tHead; let z : Path := .can 0 ⟨0x411, true, false, false, 8⟩
    sUp.hears p = true ∧ sUp.hears z = false ∧ nx (exec (.canRead z (tFrm 1 0x2000 1 0 0 0 0)) sUp) = some sUp ∧
    sUp.answers (pathRequester p) = true ∧ sUp.transportUp (pathRequester p) = true ∧ sUp.xferOf p = none ∧
    (nx (exec (.canRead p (tFrm 1 0x2000 1 0 0 0 0)) sUp)).map (·.out) = some [.accFrame (outPath p) 0 ⟨0x81, 0, 0x2000, 1, 1, 1, 4⟩] ∧
    (nx (exec (.canRead p (tFrm 1 0x2000 9 0 0 0 0)) sUp)).map (·.out) = some [.accFrame (outPath p) 0 ⟨0x81, odNoSub, 0x2000, 9, 0, 0, 0⟩] ∧
    (nx (exec (.canRead p (tFrm 1 0x3140 1 0 0 0 0)) sUp)).map (fun t => t.host.xfers.map (·.len)) = some [128] ∧
    (nx (exec (.canWrite p (tFrm 2 0x6000 1 2 2 0 5)) sUp)).map (·.nodeId) = some 5 ∧
    (nx (exec (.writeStart p (tFrm 3 0x3140 1 128 0 0 0)) sUp)).map (fun t => t.host.xfers.map (·.isWrite)) = some [true] ∧
    (nx (exec (.segment p (tFrm 4 0 0 0 0 0 0)) sUp)).map (·.out) = some [.accFrame (outPath p) 0 ⟨0x84, odProtocol, 0, 0, 0, 0, 0⟩] ∧
    (nx (exec (.nextBlock p (tFrm 5 0 0 0 0 0 0)) sUp)).map (·.out) = some [.accFrame (outPath p) 0 ⟨0x85, odProtocol, 0, 0, 0, 0, 0⟩] ∧
    nx (exec (.abortTransfer p (tFrm 6 0 0 0 0 0 0)) sUp) = some sUp := by decide +kernel
theorem witness_AccessFramesInTransfer :
    let p : Path := .can 0 tHead; let w := sUp.setXfer p (some ⟨p, 0, true, 0x3140, 1, 128, 0, 0⟩)
    let r := sUp.setXfer p (some ⟨p, 0, false, 0x3140, 1, 128, 0, 7⟩)
    w.xferOf p = some ⟨p, 0, true, 0x3140, 1, 128, 0, 0⟩ ∧
    (nx (exec (.transferTimeout p) w)).map (fun t => (t.out, t.host.xfers)) = some ([.accFrame (outPath p) 0 ⟨6, odTimeout, 0x3140, 1, 128, 0, 0⟩], []) ∧
    (nx (exec (.abortTransfer p (tFrm 6 0 0 0 0 0 0)) w)).map (fun t => t.host.xfers) = some [] ∧
    (nx (exec (.segment p (tFrm 4 0 0 0 62 0 8)) w)).map (fun t => t.host.xfers.map (fun x => (x.seq, x.data))) = some [(1, 8)] ∧
    (nx (exec (.nextBlock p (tFrm 5 0 0 0 0 0 0)) r)).map (fun t => (t.out.length, t.host.xfers)) = some (3, []) ∧
    (nx (exec (.canRead p (tFrm 1 0x2000 1 0 0 0 0)) w)).map (·.out) = some [.accFrame (outPath p) 0 ⟨0x81, odBusy, 0x2000, 1, 0, 0, 0⟩] := by
  decide +kernel
theorem witness_AccessFramesInTransfer_inBand :
    let s := ((((sUp.setOd 0x1110 1 9).setOd 0x1110 2 3).setOd 0x1110 3 77).setOd 0x1110 4 5).setOd 0x1110 7 6
    let d := fun (src : Nat) => (⟨3, 9, true, 5, src, 6, 1, 0, 42, tFrm 1 0x2000 1 0 0 0 0⟩ : Datagram)
    s.datagramOk (d 77) = true ∧ s.datagramOk (d 78) = false ∧ s.answers (.inband 77) = true ∧ s.transportUp (.inband 77) = true ∧
    (nx (exec (.inBandDatagram (d 77)) s)).map (·.out) = some [.accFrame (.inband 77) 42 ⟨0x81, 0, 0x2000, 1, 1, 1, 4⟩] ∧
    (nx (exec (.inBandDatagram (d 78)) s)).map (·.out) = some [] := by decide +kernel
theorem witness_PersistNoticeJournal :
    let s := { sUp with host := { sUp.host with persists := [⟨.direct .pf, 0x6000, 1, 0, 5⟩], journalNew := [3] } }
    let c := sUp.setChan 18 { sUp.host.chans[18] with queue := [9] }; let z := (c.setOd 0x1110 1 1).setOd 0x1110 5 1
    (nx (exec .persistComplete s)).map (fun t => (sget t.dictP odDef (odKey 0x6000 1), t.host.persists)) = some (5, []) ∧
    (nx (exec .persistComplete { s with host := { s.host with persists := [⟨.direct .pf, 0x5000, 2, 0, 1⟩] }, dict := (s.setOd 0x5000 2 1).dict })).map
      (fun t => (t.cell 1).enabledAt.isSome) = some true ∧
    (nx (exec .journalAppend s)).map (fun t => (t.host.journal, t.host.journalNew)) = some ([3], []) ∧
    z.host.chans[18].queue = [9] ∧ (z.sendNotice 18 9).isSome = true ∧
    (nx (exec (.noticeSend 18) z)).map (fun t => (t.out, t.host.chans[18].queue)) = some ([.notice 18 9], []) := by decide +kernel
theorem witness_NoticeReachesItsChannels :
    let n : Notice := ⟨2, 0x0174, some 0, 0, 0, 0, 0, 7⟩; let t := sUp.raise n
    let f := sUp.setChan 0 { sUp.host.chans[0] with queue := List.replicate 64 0 }
    sUp.meantFor n 0 = true ∧ sUp.meantFor n 9 = false ∧ t.host.chans[0].queue.length = 1 ∧ t.host.chans[0].seq = 1 ∧
    t.host.chans[9].queue = [] ∧ t.host.journalNew.length = 1 ∧ (f.raise n).host.chans[0].queue.length = 64 ∧
    (f.raise n).host.chans[0].dropped = 1 := by decide +kernel
theorem witness_RingRegisters :
    let s := sRing 0x2120 3 1; let d := s.setRing 0 0x2120 { s.ring 0 0x2120 with enable := false }
    hasRing 0 0x2120 = true ∧ 0x2120 % 0x20 = 0 ∧ hostProduced 0x2120 = false ∧ s.host.pcieUp = true ∧
    (nx (exec (.ringCfgWrite 0 0x2120 0x12345) d)).map (fun t => (t.ring 0 0x2120).base) = some 0x12000 ∧
    nx (exec (.ringCfgWrite 0 0x2120 0x12345) s) = some s ∧
    (nx (exec (.ringCfgWrite 0 0x2128 0x80000005) d)).map (fun t => ((t.ring 0 0x2120).enable, (t.ring 0 0x2120).log2n)) = some (true, 5) ∧
    nx (exec (.ringCfgWrite 0 0x2128 0x80000005) s) = some s ∧
    (nx (exec (.ringCfgWrite 0 0x2128 5) s)).map (fun t => ((t.ring 0 0x2120).enable, (t.ring 0 0x2120).prod)) = some (false, 0) ∧
    (nx (exec (.ringConsWrite 0 0x2120 3#32) s)).map (fun t => (t.ring 0 0x2120).cons) = some 3 ∧
    (nx (exec (.ringConsWrite 0 0x2120 4#32) s)).map (fun t => ((t.ring 0 0x2120).cons, t.host.journalNew.length)) = some (1, 1) := by
  decide +kernel
theorem witness_RingRegisters_posted :
    let s := sRing (p0Ring 3) 3 1; let o := fun b => s.setRing 0 (p0Ring 3) { s.ring 0 (p0Ring 3) with open_ := true, due := b }
    hostProduced (p0Ring 3) = true ∧ (nx (exec (.pktTxProd 0 3 17#32) s)).map (fun t => (t.ring 0 (p0Ring 3)).prod) = some 17 ∧
    (nx (exec (.pktTxProd 0 3 18#32) s)).map (fun t => (t.ring 0 (p0Ring 3)).prod) = some 3 ∧
    (nx (exec (.msiXMessage 0 (p0Ring 3)) (o true))).map (fun t => t.out) = some [.msix 0 0] ∧
    (nx (exec (.msiXMessage 0 (p0Ring 3)) (o false))).map (fun t => (t.ring 0 (p0Ring 3)).open_) = some false := by decide +kernel
theorem witness_DescriptorsBecomeJobs :
    let s := { sRing 0x2100 0 0 with logical := [(0, 0)], segOwner := [(2, 1)] }
    let s := { s with mem := writeMem [] (2 * 2 ^ 30) 16 (2 ^ 32) }; let s := s.setOd 0x4020 1 (s.od 0x4020 1)
    let d := 2 * 2 ^ 30 * 2 ^ 204 + 2 ^ 131 + 2 ^ 120 + 1
    s.host.pcieUp = true ∧ s.ownsRange 0 (2 * 2 ^ 30) 16 = true ∧ s.refusal 0 0 = 1 ∧ s.qsetPart 0 = 0 ∧
    (s.ncores 0 ≠ 0 → s.refusal 0 d = 0) ∧
    (nx (exec (.jobRingProd 0 0 1#32 [0#512]) s)).map (fun t => (t.jobs, (t.ring 0 0x2100).cons)) = some ([], 1) ∧
    (nx (exec (.jobRingProd 0 0 17#32 []) s)).map (fun t => (t.ring 0 0x2100).prod) = some 0 := by decide +kernel
theorem witness_JobControl :
    let s := fun st => { sFull with jobs := [tJob st (tTask none)] }; let c := fun (op : Nat) => BitVec.ofNat 64 (2 ^ 32 + op)
    (s .running).jobOf 1 = some (tJob .running (tTask none)) ∧ qsetFunc (tJob .running (tTask none)).qset = 0 ∧
    (nx (exec (.suspend 0 (c 1)) (s .running))).map (fun t => t.jobs.map (·.st)) = some [.suspending] ∧
    (nx (exec (.setprio 0 (c (4 + 2 * 64))) (s .running))).map (fun t => t.jobs.map (·.prio)) = some [2] ∧
    (nx (exec (.release 0 (c 3)) (s .faulted))).map (fun t => t.jobs) = some [] ∧
    (nx (exec (.resume 0 (c 2)) (s .suspended))).map (fun t => t.jobs.map (·.st)) = some [.running] ∧
    (nx (exec (.resume 0 (c 2)) (s .running))).map (fun t => t.jobs.map (·.st)) = some [.running] ∧
    sFull.jobOf 1 = none ∧ (nx (exec (.suspend 0 (c 1)) sFull)).map (fun t => t.jobs.length) = some 0 := by decide +kernel
theorem witness_FunctionResetsAndBar2 :
    let s := { (sRing 0x2120 3 1) with power := sUp.power, segOwner := [(2, 1)], segStack := [(2, 1)] }
    (∀ i < 8, s.bar2Addr 0 (i + 96 * 2 ^ 30) = none) ∧ s.bar2Addr 0 (2 * 2 ^ 30) = some (2 * 2 ^ 30) ∧
    (nx (exec (.bar2Access 0 false (96 * 2 ^ 30) 8 0) s)).map (·.out) = some [.barData (2 ^ 64 - 1)] ∧
    (nx (exec (.bar2Access 0 true (2 * 2 ^ 30) 2 0xABCD) s)).map (fun t => t.rd (2 * 2 ^ 30) 2) = some 0xABCD ∧
    (nx (exec (.bar2Access 0 false (2 * 2 ^ 30) 8 0) s)).map (·.out) = some [.barData 0] ∧
    (nx (exec (.functionLevelReset 0) s)).map (·.host.rings) = some [] ∧ (nx (exec .perst s)).map (·.host.pcieUp) = some true ∧
    (nx (exec (.functionLevelReset 1) s)).map (fun t => (t.ring 0 0x2120).prod) = some 3 ∧
    (nx (exec .pcieLinkDown s)).map (·.host.pcieUp) = some false := by decide +kernel

/-! ### Safety -/

/-- A core of a pair that has its tile behind it, with a digest. -/
def tMate (d : Nat) : Core :=
  { Core.reset with mode := .boundary, job := some 1, retiredTile := true, tileDigest := d, ringLen := 4096 }
/-- Cores 0 and 9 a pair of partition 0 in full service with digests d and e. -/
def sPair (d e : Nat) (f : Pair → Pair) : State :=
  let s := { sFull with logical := [(0, 0)], jobs := [tJob .running (tTask (some 0))] }
  { (s.setCore 0 (tMate d)).setCore 9 (tMate e) with
    safety := { s.safety with pairs := [f ⟨1, 0, 9, none, false, Core.reset, [], []⟩] } }
/-- What is left of the pairs: spare and retry. -/
def pairs (o : Option State) : Option (List (Option Nat × Bool)) := o.map (fun t => t.safety.pairs.map (fun q => (q.spare, q.retry)))
theorem witness_PairComparisonConfirmsOrVotes_premises :
    let s := sPair 7 7 id
    s.pairOf 0 = some ⟨1, 0, 9, none, false, Core.reset, [], []⟩ ∧ (s.jobOf 1).map (·.st) = some .running ∧ s.coreLost 0 = false ∧
    s.coreLost 9 = false ∧ (s.coreAt 0).tileOver = true ∧ (s.coreAt 9).tileOver = true ∧
    sameFault (s.coreAt 0) (s.coreAt 9) = false ∧ (s.coreAt 0).goodDigest = some 7 := by decide +kernel
theorem witness_PairComparisonConfirmsOrVotes_equal :
    let s := sPair 7 7 id; let r := sPair 7 7 (fun q => { q with retry := true })
    (nx (exec (.mittenCompare 0) s)).map (fun t => (t.coreAt 9).retiredTile) = some false ∧
    (nx (exec (.mittenCompare 0) r)).map (fun t => (t.od 0x7000 4, t.host.journalNew.length)) = some (1, 1) := by decide +kernel
theorem witness_PairComparisonConfirmsOrVotes_different :
    let s := sPair 7 8 id; let r := sPair 7 8 (fun q => { q with retry := true })
    let z := { s with safety := { s.safety with spareSt := List.replicate 8 .none } }
    let u := s.setCore 0 { s.core 0 with undoBytes := 0x80001 }
    s.voteSpare ⟨1, 0, 9, none, false, Core.reset, [], []⟩ = some 26 ∧ z.voteSpare ⟨1, 0, 9, none, false, Core.reset, [], []⟩ = none ∧
    pairs (nx (exec (.mittenCompare 0) s)) = some [(some 26, false)] ∧ pairs (nx (exec (.mittenCompare 0) z)) = some [(none, true)] ∧
    (nx (exec (.mittenCompare 0) r)).map (fun t => t.jobs.map (·.st)) = some [.faulted] ∧
    0x80000 < (u.coreAt 0).undoBytes ∧
    (nx (exec (.mittenCompare 0) u)).map (fun t => t.jobs.map (·.st)) = some [.faulted] := by decide +kernel
/-- A vote at core 26 with digests of leader, follower and spare. -/
def sVote (d e g : Nat) : State := (sPair d e (fun q => { q with spare := some 26 })).setCore 26 (tMate g)
theorem witness_VoteDecidedByThirdDigest :
    (sVote 7 8 7).safety.pairs.find? (fun q => q.spare == some 26) = some ⟨1, 0, 9, some 26, false, Core.reset, [], []⟩ ∧
    ((sVote 7 8 7).core 26).tileOver = true ∧ ((sVote 7 8 7).core 26).goodDigest = some 7 ∧
    (nx (exec (.voteRerunDone 26) (sVote 7 8 7))).map (fun t => t.safety.pairs.map (fun q => (q.leader, q.follower))) = some [(0, 26)] ∧
    (nx (exec (.voteRerunDone 26) (sVote 7 8 8))).map (fun t => t.safety.pairs.map (fun q => (q.leader, q.follower))) = some [(9, 26)] ∧
    (nx (exec (.voteRerunDone 26) (sVote 7 8 9))).map (fun t => t.jobs.map (·.st)) = some [.faulted] := by decide +kernel
theorem witness_GauntletRotatesAtBoundaries :
    let d := { sFull with safety := { sFull.safety with swapDue := sFull.safety.swapDue.set 0 (some 1) } }
    let r := d.setCore 1 { d.core 1 with mode := .running, job := some 1, ringLen := 4096 }
    sFull.gauntletOn = true ∧ sFull.nextTested 0 = some 0 ∧ d.safety.testing = [] ∧ d.inService 1 = true ∧
    d.swapSpare 1 = some (8, false) ∧ d.swappable 1 = true ∧ r.swappable 1 = false ∧
    (nx (exec (.gauntletRotation 0) d)).map (fun t => (t.safety.swapDue.getD 0 none, t.safety.skipped)) = some (some 0, 1) ∧
    (nx (exec (.gauntletSwap 0) d)).map (fun t => ((t.core 1).mode, t.mapByte 1 0)) = some (.selfTest, 8) ∧
    (nx (exec (.gauntletSwap 0) r)).map (fun t => (t.core 1).needs) = some [.gauntlet] ∧
    (nx (exec (.gauntletStalled 0) d)).map (fun t => t.host.journalNew.length) = some 1 := by decide +kernel
theorem witness_SelfTestPassesOrRetires :
    let s := fun (l : Bool) => { sFull with safety := { sFull.safety with
      testing := [⟨1, 8, l, none⟩], spareSt := List.replicate 8 .inTest, spare := List.replicate 8 (some 1) } }
    (s true).safety.testing.find? (fun t => t.core == 1 && t.passed == none) = some ⟨1, 8, true, none⟩ ∧
    (s true).safety.spareSt.length = 8 ∧ (s true).safety.spare.length = 8 ∧
    (nx (exec (.selfTestComplete 1 0) (s true))).map (fun t => t.safety.testing) = some [⟨1, 8, true, some true⟩] ∧
    (nx (exec (.selfTestComplete 1 0) (s false))).map (fun t => (t.safety.testing, t.safety.spareSt.getD 0 .none)) = some ([], .ready) ∧
    (nx (exec (.selfTestComplete 1 3) (s false))).map (fun t => (t.safety.retired, t.safety.spare.getD 0 none)) = some ([1], none) ∧
    (s true).stalled = [] := by
  decide +kernel
theorem witness_DomainsLostOnce :
    let c := nx (exec (.cantonLost 2) sFull); let h := nx (exec (.hbmStackLost 1) sFull); let q := nx (exec (.signalQuadLost 3) sFull)
    sFull.safety.railOk.getD 2 false = true ∧ 1 ∉ sFull.power.hbmLost ∧ 3 ∉ sFull.power.quadLost ∧ sFull.power.level = 4 ∧
    c.map (fun t => (t.safety.railOk.getD 2 true, t.power.level)) = some (false, 5) ∧
    h.map (fun t => (t.power.hbmLost, t.power.level)) = some ([1], 5) ∧ q.map (fun t => (t.power.quadLost, t.power.level)) = some ([3], 5) ∧
    (c.bind (fun t => nx (exec (.cantonLost 2) t))).map (fun t => t.host.journalNew.length) = c.map (fun t => t.host.journalNew.length) := by
  decide +kernel
theorem witness_CrownRestartLeavesWorkRunning :
    let s := { sUp with safety := { s0.safety with crown := .restarting }, host := { sUp.host with waiting := [.write .pf (.direct .pf) 0x6000 1 2 5] } }
    (nx (exec (.crownRestart true) sUp)).map (fun t => (t.safety.crown, t.safety.crownFault)) = some (.restarting, true) ∧
    (nx (exec (.crownRestart false) sUp)).map (fun t => t.safety.crownFault) = some false ∧
    (nx (exec .crownStateRestored s)).map (fun t => (t.safety.crown, t.nodeId, t.host.waiting)) = some (.running, 5, []) := by decide +kernel
theorem witness_PowerFailSavesJournal :
    sUp.power.powerFail = false ∧ 1 ≤ sUp.power.level ∧
    (nx (exec .pwrFail sUp)).map (fun t => (t.power.powerFail, t.admits, t.host.journal.length)) = some (true, false, 1) ∧
    ((nx (exec .pwrFail sUp)).bind (fun t => nx (exec .pwrFailRelease t))).map (fun t => t.power.powerFail) = some false := by decide +kernel
theorem witness_FirmwareSlots :
    let i := sUp.setOd 0x7030 2 2; let z := (i.setOd 0x7030 3 (2 ^ 51)).setOd 0x7030 4 16
    let h := { sUp with safety := { s0.safety with reqHandover := true } }
    let b := { (sUp.setLink 0 (tLink id)) with safety := { h.safety with reqRevert := true, oldMinors := [1, 1] } }; let t := { sUp with safety := { s0.safety with activeSlot := 1 } }
    i.od 0x7030 2 = 2 ∧ z.crownReads (z.od 0x7030 3) (z.od 0x7030 4) = false ∧
    (nx (exec .installDone z)).map (fun t => t.od 0x7030 2) = some 3 ∧
    h.safety.reqHandover = true ∧ h.safety.crown = .running ∧ b.safety.reqHandover = true ∧ raises [1, 1] [1, 0] = true ∧
    (nx (exec .fwHandover b)).map (fun t => (t.safety.activeSlot, t.safety.bootDefault, t.safety.minors)) = some (1, 0, [1, 1]) ∧
    (nx (exec .fwHandover b)).map (fun t => (t.link 0).training) = some true ∧
    (nx (exec .fwRevert h)).map (fun t => (t.safety.activeSlot, t.safety.reqHandover)) = some (0, false) ∧
    (nx (exec .trialExpiry t)).map (fun t => t.safety.bootDefault) = some 1 := by decide +kernel

/-! ### Power, reset, bring-up, pins -/

/-- The device at a service level. -/
def sAt (level : Nat) (f : Power → Power) : State := { s0 with power := f { s0.power with level := level } }
theorem witness_PorstKeepsOnlyTripAndFlash :
    let s := { sAt 4 (fun p => { p with tripped := true, tripTime := 2 ^ 32, stopped := true }) with dictP := [(odKey 0x6000 1, 5)], mem := writeMem [] 0 1 7 }
    swf s.dictP odDef ∧
    (nx (exec (.porst 9#4) s)).map (fun t => [t.power.straps, t.power.cause, t.nodeId, t.od 0x2300 3, t.mem.length]) = some [9, 3, 5, 65536, 0] ∧
    (nx (exec .pwrGoodFall (sAt 4 (fun p => { p with straps := 6 })))).map (fun t => (t.power.straps, t.power.cause)) = some (6, 1) := by
  decide +kernel
theorem witness_TimebaseOverResets :
    let s := { sAt 4 id with time := { s0.time with now := 99, inc := 7 } }
    (nx (exec (.porst 0#4) s)).map (fun t => (t.time.now, t.time.inc)) = some (0, 0x140000000) ∧
    (nx (exec .warmrst s)).map (fun t => (t.time.now, t.time.inc)) = some (99, 7) ∧
    (nx (exec .perst s)).map (fun t => (t.time.now, t.time.inc)) = some (99, 7) := by decide +kernel
theorem witness_WarmrstKeepsTimeHbmAndFlash :
    let s := { sAt 4 id with mem := writeMem (writeMem [] 64 1 7) (spBase 0) 1 9 }
    s.power.stopped = false ∧ 1 ≤ s.power.level ∧ s.power.level ≤ 5 ∧ keptOnWarm (odKey 0x6000 1) = false ∧
    (nx (exec .warmrst s)).map (fun t => (t.power.level, t.power.cause, t.byte 64, t.byte (spBase 0))) = some (1, 2, 7#8, 0#8) := by
  decide +kernel
theorem witness_BootVerifyOutcomes :
    let s := sAt 0 (fun p => { p with straps := 2 })
    s.power.level = 0 ∧ s.power.verified = false ∧ s.power.stopped = false ∧ s.power.straps % 4 = 2 ∧ s0.power.straps % 4 ≠ 2 ∧
    (nx (exec .bootVerify s)).map (fun t => (t.power.level, t.host.pcieUp)) = some (6, true) := by decide +kernel
theorem witness_ServiceLevelsInOrder :
    let v := sAt 0 (fun p => { p with verified := true, tripped := true }); let r := sAt 1 (fun p => { p with straps := 8 })
    let lv := fun (ok : Bool) (s : State) => (nx (exec (.serviceLevel ok) s)).map (·.power.level)
    v.power.stopped = false ∧ (nx (exec (.serviceLevel true) v)).map (fun t => (t.power.level, t.power.tripped)) = some (1, false) ∧
    lv true r = some 2 ∧ lv true (sAt 1 id) = some 3 ∧ lv true (sAt 2 id) = some 3 ∧ lv true (sAt 3 id) = some 4 ∧ lv false (sAt 3 id) = some 5 ∧
    lv true (sAt 5 id) = some 4 ∧ s0.safety.railOk.getD 0 false = false ∧ s0.safety.spare.getD 0 none = none ∧
    (nx (exec (.serviceLevel true) r)).map (fun t => (t.safety.railOk.getD 0 false, t.safety.spare.getD 0 none)) = some (true, some 8) := by
  decide +kernel
theorem witness_GovernorKeepsPackageLimit :
    let g := fun p1 => nx (exec (.governorTick p1 1000 []) sFull)
    (sFull.power.level = 4 ∨ sFull.power.level = 5) ∧ sFull.power.stopped = false ∧ swf sFull.dict odDef ∧ sFull.coreOwner 1 = some 1 ∧
    (∀ p < 72, 800 ≤ nth sFull.power.limit p ∧ nth sFull.power.limit p ≤ 1600) ∧
    (g 340001).map (fun t => (nth t.power.limit 1, nth t.power.limit 0, t.od 0x2100 10)) = some (800, 1600, 1) ∧
    (g 340000).map (fun t => nth t.power.limit 1) = some 1600 := by decide +kernel
theorem witness_FrequencyChangesAtBoundary :
    let r := sFull.setCore 1 { sFull.core 1 with mode := .running, job := some 1 }
    sFull.power.stopped = false ∧ sFull.inService 1 = true ∧ sFull.power.freq.length = 72 ∧
    nth sFull.power.freq 1 ≠ min (sFull.targetOf 1) (nth sFull.power.limit 1) ∧ (sFull.core 1).job = none ∧ (r.core 1).mode = .running ∧
    (nx (exec (.frequencyChange 1) sFull)).map (fun t => nth t.power.freq 1) = some (min (sFull.targetOf 1) 1600) ∧
    (nx (exec (.frequencyChange 1) r)).map (fun t => (t.core 1).needs) = some [.frequency] := by decide +kernel
theorem witness_PowerCapWarns :
    let s := { sFull with power := { sFull.power with limit := List.replicate 72 700 } }
    s.coreOwner 1 = some 1 ∧ nth s.power.limit 1 < s.targetOf 1 ∧
    (nx (exec (.powerCap 1) s)).map (fun t => t.host.journalNew.length) = some 1 := by decide +kernel
theorem witness_ThermalThrottleAndRestore :
    let th := s0.threshold; let hot := { s0 with power := { s0.power with throttled := true } }
    (nx (exec (.thermalRead [0, th + 1]) s0)).map (fun t => (t.power.throttled, t.power.hotCanton, t.host.journalNew.length)) = some (true, 1, 1) ∧
    (nx (exec (.thermalRead [0, th + 1]) hot)).map (fun t => t.host.journalNew.length) = some 0 ∧
    (nx (exec (.thermalRead [0, th]) s0)).map (fun t => (t.power.throttled, sext 16 (t.od 0x2300 2))) = some (false, th) ∧
    (nx (exec (.thermalRead [0, th - 39]) hot)).map (fun t => t.power.throttled) = some true ∧
    (nx (exec (.thermalRead [0, th - 40]) hot)).map (fun t => (t.power.throttled, t.host.journalNew.length)) = some (false, 1) ∧
    (nx (exec .thermalThrottleStep (hot.setOd 0x2300 2 (enc 16 (th + 1))))).map (fun t => t.power.capSteps.headD 9) = some 1 := by
  decide +kernel
theorem witness_ThermalTripStopsClocks :
    sFull.power.stopped = false ∧
    (nx (exec .thermalTrip sFull)).map (fun t => (t.power.stopped, t.faultPin, t.nextCmd 0)) = some (true, true, none) := by decide +kernel
theorem witness_FaultPinConditions :
    s0.faultPin = false ∧ (sAt 6 id).faultPin = true ∧ (sAt 4 (fun p => { p with tripped := true })).faultPin = true ∧
    { s0 with safety := { s0.safety with crownFault := true } }.faultPin = true := by decide +kernel
/-- Partition 1 timing-locked on canton 1 and one segment of stack 0, its core in the middle of a tile or at a boundary. -/
def sLocked (m : RunMode) (owed : Nat) : State :=
  let s := ((sFull.setOd 0x4180 2 7).setOd 0x4020 2 (2 ^ 15 + 1)).setCore 9 { Core.reset with mode := m, job := some 1 }
  { s with
    logical := (List.range 8).map (fun i => (64 + i, 9 + i))
    segOwner := [(5, 2)], segStack := [(5, 1)]
    bankOwner := (List.range 8).map (fun b => (8 + b, 2))
    power := { s.power with refreshOwed := [owed, 0, 0, 0] } }
theorem witness_HbmRefreshPostponed_free :
    sFull.power.refreshOwed.length = 4 ∧ (∀ k < 16, sFull.lockActive k = false) ∧
    (nx (exec (.hbmRefresh 0) { sFull with power := { sFull.power with refreshOwed := [3, 0, 0, 0] } })).map (fun t => t.power.refreshOwed) =
      some [0, 0, 0, 0] := by decide +kernel
theorem witness_HbmRefreshPostponed_locked :
    let r := fun n => sLocked .running n; let b := sLocked .boundary 3
    (r 7).lockActive 1 = true ∧ (r 7).lockActive 0 = false ∧ (r 7).segsOf 1 = [5] ∧ (r 7).allAtBoundary 1 = false ∧ b.lockActive 1 = true ∧
    b.allAtBoundary 1 = true ∧
    (nx (exec (.hbmRefresh 0) (r 7))).map (fun t => (t.power.refreshOwed, t.host.journalNew.length)) = some ([8, 0, 0, 0], 0) ∧
    (nx (exec (.hbmRefresh 0) (r 8))).map (fun t => (t.power.refreshOwed, t.host.journalNew.length)) = some ([8, 0, 0, 0], 1) ∧
    (nx (exec (.hbmRefresh 0) b)).map (fun t => (t.power.refreshOwed, t.host.journalNew.length)) = some ([0, 0, 0, 0], 0) ∧
    (r 8).pinned 1 = true ∧ (r 8).refreshAlign 1 = true ∧ ((r 8).setOd 0x4180 2 0).pinned 1 = false := by
  decide +kernel
theorem witness_TapShiftsAndDrives :
    let s := fun (x : TapSt) (i : TapInstr) => { s0 with tap := { s0.tap with st := x, ir := i, dr := 2 } }
    (nx (exec (.tap false true) (s .capDr .idcode))).map (fun t => (t.tap.st, t.tap.tdo.isSome)) = some (.shDr, true) ∧
    (nx (exec (.tap false true) (s .capDr .bypass))).map (fun t => t.tap.dr) = some 0 ∧
    (nx (exec (.tap false true) (s .shDr .bypass))).map (fun t => t.tap.dr) = some 1 ∧
    (nx (exec (.tap true true) (s .selIr .bypass))).map (fun t => (t.tap.st, t.tap.ir)) = some (.reset, .idcode) := by decide +kernel
theorem witness_RailAndCheckerFaultsTold :
    (nx (exec (.railFault 3 5#16) sUp)).map (fun t => t.host.journalNew.length) = some 1 ∧
    (nx (exec (.checkerTest 2 1 true) sUp)).map (fun t => t.host.journalNew.length) = some 0 ∧
    (nx (exec (.checkerTest 5 1 false) sUp)).map (fun t => t.host.journalNew.length) = some 1 := by decide +kernel

/-- 2 = 64 * 2^-5 but 2 * 64 = 128 does not fit I8 at 2^-6; -2 fits there as -128. -/
theorem witness_StageOneBlocks :
    s1Block 0 [0, 0] = (0, [0, 0]) ∧ s1Block 0 [1, -2] = (8, [64, 128]) ∧ s1Block 0 [2, -2] = (16, [64, 192]) ∧
    s1Rounded 0 (-2) = -128 ∧ s1Rounded 0 2 = 128 ∧ s1Rounded 1 2 = 64 := by decide
theorem witness_StageOneKept :
    let t := s0.closeS1 0 0 3; let u := t.closeS1 0 0 4
    s0.radio.s1out = [] ∧ t.radio.s1out.map (fun e => (e.slot, e.symbol)) = (List.range 14).map (fun m => (3, m)) ∧
    t.closeS1 0 0 3 = t ∧ u.radio.s1out.length = 28 ∧ (u.dropSlotData 0 0 3).radio.s1out.map (·.slot) = List.replicate 14 4 := by
  decide +kernel
theorem witness_FrameStreamsFreeze :
    let f := fun (r : Nat) (z : Bool) => s0.setFrames ⟨1, [], some 9, r, z⟩
    let g := fun (t : State) => ((t.frameStream 1).prev, (t.frameStream 1).run, (t.frameStream 1).frozen, t.od 0x5020 2,
      t.host.journalNew.length)
    s0.od 0x5020 1 = 4 ∧ swf s0.dict odDef ∧
    g ((f 3 false).compareFrame 1 9 true) = (some 9, 4, true, 1, 1) ∧
    g ((f 4 true).compareFrame 1 9 true) = (some 9, 5, true, 0, 0) ∧
    g ((f 4 true).compareFrame 1 8 true) = (some 8, 1, false, 0, 1) ∧
    (f 3 false).compareFrame 1 9 false = f 3 false := by decide +kernel

end Sys2Proof.Tests
end

section
/-! SUPPORT. What reset leaves: a unit of the state that nothing has written reads as its reset value. -/

namespace Sys2Proof.Machine

@[simp] theorem State.bank_reset (b : Nat) : State.reset.bank b = Bank.reset := rfl

@[simp] theorem State.od_reset (index sub : Nat) : State.reset.od index sub = odDef (odKey index sub) := rfl

@[simp] theorem State.ring_reset (f off : Nat) : State.reset.ring f off = Ring.reset := rfl

@[simp] theorem State.sig_reset (g : SigId) : State.reset.sig g = Sig.reset := by
  simp [State.sig, State.reset]

@[simp] theorem State.host_chans_reset (ch : Fin 19) : State.reset.host.chans[ch.val] = ⟨0, [], 0, 0⟩ := by
  simp [State.reset]

/-- At BOOT no canton serves. -/
@[simp] theorem State.cantonUp_reset (c : Nat) : State.reset.cantonUp c = false := rfl

/-- At BOOT no core is in service. -/
@[simp] theorem State.inService_reset (p : Nat) : State.reset.inService p = false := by
  simp [State.inService]

/-- A canton at reset reads no spare (0xF, state 3), its rail not good, no core retired or in service (R194, R554). -/
theorem State.cantonStatus_reset (c : CantonId) : State.reset.cantonStatus c.val = 0xFC := by
  have hspare : State.reset.safety.spare.getD c.val none = none := List.getD_replicate _ c.isLt
  have hst : State.reset.safety.spareSt.getD c.val .none = .none := List.getD_replicate _ c.isLt
  have hrail : State.reset.safety.railOk.getD c.val false = false := List.getD_replicate _ c.isLt
  have hret : State.reset.safety.retired = [] := rfl
  simp only [State.cantonStatus, hspare, hst, hrail, hret, State.inService_reset]
  simp [packBits, b2n, spareCode, List.range_succ]

/-- Every sparse map of the reset state is empty, so each is in canonical form. -/
theorem State.canonical_reset : State.reset.canonical :=
  ⟨State.reset_mem_wf, swf_nil _, swf_nil _, swf_nil _, swf_nil _⟩

end Sys2Proof.Machine

namespace Sys2Proof.Claims
open Machine

/-- The values that the rules give for reset, unit by unit. -/
theorem claimResetLeavesSpecValues_holds : claimResetLeavesSpecValues := by
  refine ⟨fun b => ?_, rfl, rfl, State.od_reset, fun ch => ?_, fun f off => ?_, rfl, State.sig_reset,
    State.cantonStatus_reset, rfl⟩
  · rw [State.bank_reset]
    exact ⟨rfl, rfl⟩
  · rw [State.host_chans_reset]
    exact ⟨rfl, rfl⟩
  · rw [State.ring_reset]
    exact ⟨rfl, rfl, rfl, rfl⟩

/-- Settles O2: each value of the spec is what the reset state's unit reads as, and its sparse maps are empty. -/
theorem resetLeavesSpecValues : Obligations.ResetLeavesSpecValues :=
  ⟨claimResetLeavesSpecValues_holds, State.canonical_reset⟩

end Sys2Proof.Claims
end

section
/-! SUPPORT. Fields of frames on the wire: a frame is known by its bytes, a field by its bytes from the most significant one
on, and a field written leaves every other byte (R7). -/

namespace Sys2Proof.Machine

theorem wireByte_zero (w : Nat) : wireByte w 0 = w % 256 := by simp [wireByte]

theorem wireByte_succ (w k : Nat) : wireByte w (k + 1) = wireByte (w / 256) k := by
  simp only [wireByte, pow_succ', Nat.div_div_eq_div_mul]

@[simp] theorem wireField_zero (w i : Nat) : wireField w i 0 = 0 := rfl

theorem wireField_succ (w i n : Nat) : wireField w i (n + 1) = 256 * wireField w i n + wireByte w (i + n) := by
  simp [wireField, List.range_succ]

/-- The bytes of a field's value, least significant first, are the frame's from the field's last byte down. -/
theorem wireByte_wireField (w i n k : Nat) (hk : k < n) : wireByte (wireField w i n) k = wireByte w (i + (n - 1 - k)) := by
  induction n generalizing k with
  | zero => omega
  | succ n ih =>
    have hb : wireByte w (i + n) < 256 := Nat.mod_lt _ (by decide)
    rw [wireField_succ]
    cases k with
    | zero => rw [wireByte_zero, Nat.mul_add_mod, Nat.mod_eq_of_lt hb]; simp
    | succ k =>
      rw [wireByte_succ, Nat.mul_add_div (by decide), Nat.div_eq_of_lt hb, Nat.add_zero, ih k (by omega)]
      congr 2
      omega

/-- A field whose bytes are those of v, the most significant first, reads as v. -/
theorem wireField_eq_of_bytes {w i n v : Nat} (h : ∀ k < n, wireByte w (i + k) = wireByte v (n - 1 - k)) :
    wireField w i n = v % 256 ^ n := by
  induction n generalizing v with
  | zero => simp [Nat.mod_one]
  | succ n ih =>
    have hlast : wireByte w (i + n) = v % 256 := by rw [h n (by omega), ← wireByte_zero]; congr 1; omega
    have hinit : wireField w i n = v / 256 % 256 ^ n := ih fun k hk => by
      rw [h k (by omega), ← wireByte_succ]; congr 1; omega
    rw [wireField_succ, hlast, hinit, pow_succ', Nat.mod_mul, Nat.add_comm]

/-- A value in its order on the wire: byte k is its byte n - 1 - k. -/
theorem wireByte_wireOrder (n v k : Nat) (hk : k < n) : wireByte (wireOrder n v) k = wireByte v (n - 1 - k) := by
  rw [wireOrder, wireByte_wireField _ _ _ _ hk, Nat.zero_add]

/-- A byte of a value cut to n bytes is the value's byte. -/
theorem wireByte_mod (v n k : Nat) (hk : k < n) : wireByte (v % 256 ^ n) k = wireByte v k := by
  obtain ⟨m, rfl⟩ := Nat.exists_eq_add_of_lt hk
  rw [wireByte, wireByte, show k + m + 1 = k + (m + 1) from rfl, pow_add, Nat.mod_mul_right_div_self,
    Nat.mod_mod_of_dvd _ (dvd_pow_self 256 (by omega))]

/-- A frame with n bytes replaced, byte by byte. -/
theorem setWire_eq {n : Nat} (w i v : Nat) (hn : 0 < n) :
    setWire w i n v = w % 256 ^ i + 256 ^ i * (wireOrder n (v % 256 ^ n) % 256 ^ n + 256 ^ n * (w / 256 ^ (i + n))) := by
  have hpow : ∀ k : Nat, 2 ^ (8 * k) = 256 ^ k := fun k => pow_mul 2 8 k
  rw [setWire, setBits, show 8 * (i + n) - 1 + 1 = 8 * (i + n) by omega, show 8 * (i + n) - 8 * i = 8 * n by omega, hpow,
    hpow, hpow, pow_add]
  ring

/-- The bytes of low + 256^i * high: low's below i, high's from i on. -/
theorem wireByte_low {i k : Nat} (lo hi : Nat) (hk : k < i) : wireByte (lo % 256 ^ i + 256 ^ i * hi) k = wireByte lo k := by
  rw [← wireByte_mod _ i k hk, Nat.add_mul_mod_self_left, Nat.mod_mod, wireByte_mod _ _ _ hk]

theorem wireByte_high (lo i hi k : Nat) : wireByte (lo % 256 ^ i + 256 ^ i * hi) (i + k) = wireByte hi k := by
  rw [wireByte, pow_add, ← Nat.div_div_eq_div_mul, Nat.add_mul_div_left _ _ (by positivity),
    Nat.div_eq_of_lt (Nat.mod_lt _ (by positivity)), Nat.zero_add, wireByte]

/-- A byte of the field written: the most significant byte of the value first. -/
theorem wireByte_setWire_inside (w i n v k : Nat) (hk : k < n) :
    wireByte (setWire w i n v) (i + k) = wireByte v (n - 1 - k) := by
  rw [setWire_eq w i v (by omega), wireByte_high, wireByte_low _ _ hk, wireByte_wireOrder _ _ _ hk,
    wireByte_mod _ _ _ (by omega)]

/-- A byte outside the field written stands. -/
theorem wireByte_setWire_outside {w i n v k : Nat} (hn : 0 < n) (hk : k < i ∨ i + n ≤ k) :
    wireByte (setWire w i n v) k = wireByte w k := by
  rw [setWire_eq w i v hn]
  rcases hk with hk | hk
  · exact wireByte_low _ _ hk
  · obtain ⟨m, rfl⟩ := Nat.exists_eq_add_of_le hk
    rw [Nat.add_assoc, wireByte_high, wireByte_high, ← Nat.add_assoc, wireByte, wireByte, Nat.div_div_eq_div_mul, ← pow_add]

/-- A field written reads back. -/
theorem wireField_setWire (w i n v : Nat) : wireField (setWire w i n v) i n = v % 256 ^ n :=
  wireField_eq_of_bytes fun _ hk => wireByte_setWire_inside w i n v _ hk

/-! ### Frames received and sent -/

/-- The stamp of a frame captured after its latency: the capture less ING_LAT, nothing taken from the free values (R468). -/
theorem State.ingressStamp_of_le {s : State} {f : PortFrame} (h : bits (s.latEntry f.port.val) 27 0 ≤ f.capture) :
    s.ingressStamp f = (toTime96 ((f.capture - bits (s.latEntry f.port.val) 27 0) * 2 ^ 16), s) := by
  simp [State.ingressStamp, h]

/-- A frame that is neither eCPRI nor a datagram of a tunnel or of in-band management is the servo's or PKT_RX's (R469). -/
theorem State.frameClass_plain {s : State} {f : PortFrame} (he : f.isEcpri = false)
    (hd : f.ipVersion ≠ 6 ∨ (f.udpDst ≠ 48620 ∧ f.udpDst ≠ 48621)) :
    s.frameClass f = if wirePtpAny f.content ∧ s.srcKind = 1 ∧ s.srcIndex = f.port.val then 3 else 4 := by
  have h1 : ¬ (f.ipVersion = 6 ∧ f.udpDst = 48621) := fun ⟨h6, hp⟩ => hd.elim (· h6) (·.2 hp)
  have h2 : ¬ (f.ipVersion = 6 ∧ f.udpDst = 48620) := fun ⟨h6, hp⟩ => hd.elim (· h6) (·.1 hp)
  simp only [State.frameClass, he, if_neg h1, if_neg h2, Bool.false_eq_true, if_false]

/-- Frames for fronthaul, tunnels and in-band management leave with their stamp, whatever they hold (R469). -/
theorem execFieldPortFrame_handed {f : PortFrame} {s : State} {stamp c : Nat} (hstamp : s.ingressStamp f = (stamp, s))
    (hc : s.frameClass f = c) (hlt : c < 3) : execFieldPortFrame f s = .next (s.emit (.pktRx c stamp)) := by
  simp only [execFieldPortFrame, hstamp, hc]
  match c, hlt with
  | 0, _ | 1, _ | 2, _ => rfl

/-- A frame for the PTP servo leaves with its stamp; of the state's other units it can change the servo's offsets and the
free values taken, and those only where it is an event message (R469). -/
theorem execFieldPortFrame_servo {f : PortFrame} {s : State} {stamp : Nat} (hstamp : s.ingressStamp f = (stamp, s))
    (hc : s.frameClass f = 3) : ∃ d, execFieldPortFrame f s = .next (if wirePtpEvent f.content then
      (s.emit (.pktRx 3 stamp)).takeFree.2.servoOffset d else s.emit (.pktRx 3 stamp)) := by
  simp only [execFieldPortFrame, hstamp, hc]
  exact ⟨_, rfl⟩

/-- Every other frame goes to PKT_RX (R469). -/
theorem execFieldPortFrame_received {f : PortFrame} {s : State} {stamp : Nat} (hstamp : s.ingressStamp f = (stamp, s))
    (hc : s.frameClass f = 4) : execFieldPortFrame f s = .next (s.pktReceive f stamp) := by
  simp only [execFieldPortFrame, hstamp, hc]

/-- A predicate that no increment meets holds of none of a list of increments. -/
theorem any_eq_false_of_incs {l : List TbAdj} (hl : ∀ a ∈ l, ∃ v, a = .inc v) {g : TbAdj → Bool}
    (hg : ∀ v, g (.inc v) = false) : l.any g = false := by
  refine List.any_eq_false.2 fun a ha => ?_
  obtain ⟨v, rfl⟩ := hl a ha
  simp [hg]

/-- A one-step frame waits while a step or set is pending (R463). -/
theorem execPktTxSend_waits {t : PtpTx} {s : State} (hmode : t.tsMode = 2) (hpend : ∃ a ∈ s.time.pend, ∀ v, a ≠ .inc v) :
    execPktTxSend t s = .next s := by
  obtain ⟨a, ha, hne⟩ := hpend
  refine congrArg Host.Outcome.next (if_pos (.inr (.inr ⟨hmode, List.any_eq_true.2 ⟨a, ha, ?_⟩⟩)))
  cases a with
  | inc v => exact absurd rfl (hne v)
  | _ => rfl

end Sys2Proof.Machine

namespace Sys2Proof.Claims
open Machine

/-- R7: a field goes out most significant byte first, reads back and leaves the other bytes. -/
theorem claimWireFieldsReadBack_holds : claimWireFieldsReadBack := by
  refine fun w i n v => ⟨wireField_setWire w i n v, fun hn => ?_, fun k hk hn => wireByte_setWire_outside hn hk⟩
  simpa [wireByte] using wireByte_setWire_inside w i n v 0 hn

/-- R468, R469: the class of a frame decides who takes it. -/
theorem claimFieldPortFramesStamped_holds : claimFieldPortFramesStamped := by
  intro f s hcap stamp
  have hstamp : s.ingressStamp f = (stamp, s) := State.ingressStamp_of_le hcap
  refine ⟨fun he => ?_, fun he h6 hp => ?_, fun he h6 hp => ?_, fun he hd hno => ?_, fun he hd hptp hk hi => ?_⟩
  · exact execFieldPortFrame_handed hstamp (by simp [State.frameClass, he]) (by decide)
  · exact execFieldPortFrame_handed hstamp (by simp [State.frameClass, he, h6, hp]) (by decide)
  · exact execFieldPortFrame_handed hstamp (by simp [State.frameClass, he, h6, hp]) (by decide)
  · refine execFieldPortFrame_received hstamp ?_
    rw [State.frameClass_plain he hd, if_neg]
    rintro ⟨hptp, hk, hi⟩
    exact hno.elim (by simp [hptp]) (·.elim (· hk) (· hi))
  · obtain ⟨d, hd⟩ := execFieldPortFrame_servo hstamp ((State.frameClass_plain he hd).trans (if_pos ⟨hptp, hk, hi⟩))
    refine ⟨_, hd, ?_⟩
    split
    · next hev => exact ⟨rfl, fun hno => absurd hev (by simp [hno]), rfl, rfl⟩
    · exact ⟨rfl, fun _ => rfl, rfl, rfl⟩

/-- R463, R472, R473: what PKT_TX_SEND does with the oldest entry, by its mode and its PTP header. -/
theorem claimOneStepFramesCorrected_holds : claimOneStepFramesCorrected := by
  intro t s off r te hr hc
  refine ⟨execPktTxSend_waits, fun hgo => ?_⟩
  have hexec : exec (.pktTxSend t) s = execPktTxSend t s := rfl
  simp only [execPktTxSend] at hexec
  rw [if_neg] at hexec
  case hnc =>
    rintro (h | h | ⟨h2, h⟩)
    · exact h hr
    · exact hc h
    · rw [any_eq_false_of_incs (hgo.resolve_left (absurd h2)) (fun _ => rfl)] at h
      cases h
  refine ⟨fun hdown => ?_, fun hup => ?_⟩
  · rw [hexec, if_pos (by simpa using hdown)]
  rw [if_neg (by simpa using hup)] at hexec
  refine ⟨fun hbad => ?_, fun hgood hm => ?_, fun hgood hm => ?_, fun hgood hm hptp hty => ?_, fun hgood hm hptp hty => ?_,
    fun hgood hm hno => ?_⟩
  · rw [hexec, if_pos hbad]
  all_goals rw [hexec, if_neg (by simp [hgood, hm])]
  · rw [if_pos hm]
  · rw [if_neg (by simp [hm]), if_pos hm]
  all_goals rw [if_neg (by simp [hm]), if_neg (by simp [hm])]
  · rw [if_pos ⟨hptp, hty⟩]
  · rw [if_neg (by simp [hty]), if_pos ⟨hptp, hty⟩]
  · rw [if_neg (fun h => hno.elim (by simp [h.1]) (·.1 h.2)), if_neg (fun h => hno.elim (by simp [h.1]) (·.2 h.2))]

/-- Settles O40: frames received by their class, frames sent by their mode, and the fields that are written into them. -/
theorem fieldPortFrames : Obligations.FieldPortFrames :=
  ⟨claimFieldPortFramesStamped_holds, claimOneStepFramesCorrected_holds, claimWireFieldsReadBack_holds⟩

end Sys2Proof.Claims
end

section
/-! SUPPORT. The rounds of a sub-bank: what the accesses of memory leave as it was, which requests stand in a round and in what
order, and that the parts of one master are granted one after another, each alone (R170 to R176). -/

namespace Sys2Proof.Machine

/-! ### What the accesses of memory leave as it was -/

/-- The units of the state that no access of a bank touches. -/
structure State.BesideMem (s t : State) : Prop where
  out : t.out = s.out
  cores : t.cores = s.cores
  sems : t.sems = s.sems
  dict : t.dict = s.dict
  host : t.host = s.host
  jobs : t.jobs = s.jobs

theorem State.BesideMem.refl (s : State) : s.BesideMem s := ⟨rfl, rfl, rfl, rfl, rfl, rfl⟩

theorem State.BesideMem.trans {s t u : State} (h : s.BesideMem t) (g : t.BesideMem u) : s.BesideMem u :=
  ⟨g.out.trans h.out, g.cores.trans h.cores, g.sems.trans h.sems, g.dict.trans h.dict, g.host.trans h.host,
    g.jobs.trans h.jobs⟩

theorem State.besideMem_wr (s : State) (a n v : Nat) : s.BesideMem (s.wr a n v) := by constructor <;> simp

theorem State.touchRow_noEcc {s : State} (h : s.ecc = []) (a : Nat) : (s.touchRow a).ecc = [] := by
  unfold State.touchRow
  split
  · simp only []
    split
    · simp [h]
    · exact h
  · exact h

theorem State.touchRows_noEcc {s : State} (h : s.ecc = []) (a n : Nat) : (s.touchRows a n).ecc = [] := by
  have hfold : ∀ (l : List Nat) (t : State), t.ecc = [] → (l.foldl State.touchRow t).ecc = [] := by
    intro l
    induction l with
    | nil => exact fun t ht => ht
    | cons b l ih => exact fun t ht => ih _ (State.touchRow_noEcc ht b)
  unfold State.touchRows
  split
  · exact h
  · exact hfold _ s h

/-- Where no word has a latent error, a write finds none and counts none (R174, R185). -/
theorem State.wr_noEcc {s : State} (h : s.ecc = []) (a n v : Nat) :
    (s.wr a n v).ecc = [] ∧ (s.wr a n v).visor = s.visor := by
  have hrows := State.touchRows_noEcc h a n
  have hvisor : (s.touchRows a n).visor = s.visor := by rw [State.touchRows_frame]
  rw [State.wr_eq]
  simp [eccAfter, State.eccMerge, hrows, hvisor]

/-- What a read finds in the check bits changes the pending write-backs and Visor's counts alone (R185, R186). -/
theorem State.eccRead_frame (s : State) (a n : Nat) :
    s.eccRead a n = { s with writeBack := (s.eccRead a n).writeBack, visor := (s.eccRead a n).visor } := by
  suffices h : ∀ (l : SMap EccErr) (f : State → Nat × EccErr → State),
      (∀ t e, f t e = { t with writeBack := (f t e).writeBack, visor := (f t e).visor }) →
      ∀ t : State, l.foldl f t = { t with writeBack := (l.foldl f t).writeBack, visor := (l.foldl f t).visor } by
    refine h _ _ (fun t e => ?_) s
    split
    · split
      · simp only []
        split
        · rw [State.countEcc_frame]
        · rw [State.countEcc_frame]
      · rw [State.countEcc_frame]
      · rfl
    · rfl
  intro l f hf
  induction l with
  | nil => intro t; rfl
  | cons x xs ih => intro t; rw [List.foldl_cons, ih, hf]

@[simp] theorem State.eccRead_mem (s : State) (a n : Nat) : (s.eccRead a n).mem = s.mem := by rw [State.eccRead_frame]
@[simp] theorem State.eccRead_ecc (s : State) (a n : Nat) : (s.eccRead a n).ecc = s.ecc := by rw [State.eccRead_frame]
@[simp] theorem State.eccRead_banks (s : State) (a n : Nat) : (s.eccRead a n).banks = s.banks := by rw [State.eccRead_frame]

theorem State.besideMem_eccRead (s : State) (a n : Nat) : s.BesideMem (s.eccRead a n) := by
  constructor <;> rw [State.eccRead_frame]

/-- An atomic reads, and writes where it found no uncorrectable word. -/
theorem State.besideMem_atomicAt (s : State) (mode a v : Nat) : s.BesideMem (s.atomicAt mode a v).s := by
  by_cases hp : s.poisoned a 8 = true
  · simp only [State.atomicAt, if_pos hp]
    exact s.besideMem_eccRead a 8
  · simp only [State.atomicAt, if_neg hp]
    exact (s.besideMem_eccRead a 8).trans (State.besideMem_wr _ _ _ _)

theorem State.besideMem_wins (s : State) (k : Nat) (x : Part) : s.BesideMem (s.wins k x) := ⟨rfl, rfl, rfl, rfl, rfl, rfl⟩

/-- An uncorrectable word is found by its mark and its row's valid bit alone. -/
theorem State.poisoned_congr {s t : State} (he : t.ecc = s.ecc) (hb : t.banks = s.banks) (a n : Nat) :
    t.poisoned a n = s.poisoned a n := by
  simp only [State.poisoned, State.bank, he, hb]

theorem State.rd_congr {s t : State} (h : t.mem = s.mem) (a n : Nat) : t.rd a n = s.rd a n := by
  simp only [State.rd, h]

/-! ### The order of a round in which one master stands -/

theorem State.rankAt_lt (s : State) (b : Nat) (m : Master) : s.rankAt b m < 12 := by
  cases m with
  | corePort i =>
    simp only [State.rankAt]
    split
    · exact (List.length_filter_le _ _).trans_lt (by simp)
    · exact i.isLt.trans (by decide)
  | _ => simp [State.rankAt, masterRank]

/-- Picking what stands at two places p < q out of the places below n. -/
theorem filterMap_range_two {α : Type} {p q : Nat} (hpq : p < q) (x y : α) (n : Nat) :
    (List.range n).filterMap (fun i => if i = p then some x else if i = q then some y else none) =
      (if p < n then [x] else []) ++ (if q < n then [y] else []) := by
  induction n with
  | zero => simp
  | succ n ih =>
    rw [List.range_succ, List.filterMap_append, ih]
    rcases Nat.lt_trichotomy n p with h | h | h
    · simp [h.ne, (h.trans hpq).ne, show ¬ p < n by omega, show ¬ q < n by omega, show ¬ p < n + 1 by omega,
        show ¬ q < n + 1 by omega]
    · simp [h, hpq.not_gt, show ¬ q < p + 1 by omega]
    · rcases Nat.lt_trichotomy n q with h' | h' | h'
      · simp [h.ne', h'.ne, h, show p < n + 1 by omega, show ¬ q < n by omega, show ¬ q < n + 1 by omega]
      · simp [h', hpq, hpq.ne', show p < q + 1 by omega]
      · simp [h.ne', h'.ne', h, h', show p < n + 1 by omega, show q < n + 1 by omega]

/-- Picking what stands at one place p out of the places below n. -/
theorem filterMap_range_one {α : Type} (p : Nat) (x : α) (n : Nat) :
    (List.range n).filterMap (fun i => if i = p then some x else none) = if p < n then [x] else [] := by
  induction n with
  | zero => simp
  | succ n ih =>
    rw [List.range_succ, List.filterMap_append, ih]
    rcases Nat.lt_trichotomy n p with h | h | h
    · simp [h.ne, show ¬ p < n by omega, show ¬ p < n + 1 by omega]
    · simp [h]
    · simp [h.ne', h, show p < n + 1 by omega]

/-- Of requests at one place in the order, where all are the first one's master's, the first stands (R170). -/
theorem find?_turn_first (k i : Nat) (turn : Master) (x : Part) (t : List Part)
    (h : ∀ y ∈ t, y.acc.req.master = x.acc.req.master) :
    ((x :: t).find? (fun y => i == 4 && decide (k < 1152) && y.acc.req.master == turn) = some x) ∨
    ((x :: t).find? (fun y => i == 4 && decide (k < 1152) && y.acc.req.master == turn) = none) := by
  by_cases hx : (i == 4 && decide (k < 1152) && x.acc.req.master == turn) = true
  · exact .inl (List.find?_cons_of_pos hx)
  · refine .inr (List.find?_eq_none.2 fun y hy => ?_)
    rcases List.mem_cons.1 hy with rfl | hy
    · exact hx
    · rwa [h y hy]

/-- What stands in a round where the requests at each place of the order are one master's (R170). -/
theorem State.standing_eq (s : State) (k : Nat) (ps : List Part) (pick : Nat → Option Part)
    (h : ∀ i, (∃ x t, ps.filter (fun y => s.rankAt (k / 4) y.acc.req.master == i) = x :: t ∧ pick i = some x ∧
        ∀ y ∈ t, y.acc.req.master = x.acc.req.master) ∨
      (ps.filter (fun y => s.rankAt (k / 4) y.acc.req.master == i) = [] ∧ pick i = none)) :
    s.standing k ps = (List.range 12).filterMap pick := by
  simp only [State.standing]
  congr 1
  funext i
  rcases h i with ⟨x, t, hf, hp, hm⟩ | ⟨hf, hp⟩
  · rw [hf, hp]
    rcases find?_turn_first k i (if sget s.dmaLast zeroD k = 1 then .crossbar else .dma) x t hm with hx | hx <;> rw [hx]
    rfl
  · rw [hf, hp]
    rfl

/-- Where one master asks, its first request stands. -/
theorem State.standing_one (s : State) (k : Nat) (x : Part) (t : List Part)
    (h : ∀ y ∈ t, y.acc.req.master = x.acc.req.master) : s.standing k (x :: t) = [x] := by
  rw [s.standing_eq k (x :: t) (fun i => if i = s.rankAt (k / 4) x.acc.req.master then some x else none) fun i => ?_,
    filterMap_range_one, if_pos (s.rankAt_lt _ _)]
  have hrank : ∀ y ∈ x :: t, s.rankAt (k / 4) y.acc.req.master = s.rankAt (k / 4) x.acc.req.master := by simp_all
  by_cases hi : i = s.rankAt (k / 4) x.acc.req.master
  · exact .inl ⟨x, t, List.filter_eq_self.2 fun y hy => by simp [hrank y hy, hi], if_pos hi, h⟩
  · exact .inr ⟨List.filter_eq_nil_iff.2 fun y hy => by simp [hrank y hy, Ne.symm hi], if_neg hi⟩

/-- Where one request of each of two masters at different places asks, both stand, by their places. -/
theorem State.standing_two (s : State) (k : Nat) {x y : Part}
    (h : s.rankAt (k / 4) x.acc.req.master < s.rankAt (k / 4) y.acc.req.master) :
    s.standing k [x, y] = [x, y] ∧ s.standing k [y, x] = [x, y] := by
  have hpick : ∀ l, l = [x, y] ∨ l = [y, x] → s.standing k l = [x, y] := by
    intro l hl
    rw [s.standing_eq k l (fun i => if i = s.rankAt (k / 4) x.acc.req.master then some x
        else if i = s.rankAt (k / 4) y.acc.req.master then some y else none) fun i => ?_,
      filterMap_range_two h, if_pos (s.rankAt_lt _ _), if_pos (s.rankAt_lt _ _), List.singleton_append]
    by_cases hx : i = s.rankAt (k / 4) x.acc.req.master
    · refine .inl ⟨x, [], ?_, if_pos hx, by simp⟩
      rcases hl with rfl | rfl <;> simp [hx, h.ne']
    by_cases hy : i = s.rankAt (k / 4) y.acc.req.master
    · refine .inl ⟨y, [], ?_, by rw [if_neg hx, if_pos hy], by simp⟩
      rcases hl with rfl | rfl <;> simp [hy, h.ne]
    · refine .inr ⟨?_, by rw [if_neg hx, if_neg hy]⟩
      rcases hl with rfl | rfl <;> simp [Ne.symm hx, Ne.symm hy]
  exact ⟨hpick _ (.inl rfl), hpick _ (.inr rfl)⟩

/-- Where one master asks, its first request is all of the round. -/
theorem State.ordered_one (s : State) (k : Nat) (x : Part) (t : List Part)
    (h : ∀ y ∈ t, y.acc.req.master = x.acc.req.master) : s.ordered k (x :: t) = [x] := by
  simp only [State.ordered, s.standing_one k x t h]
  cases ha : s.agedAt k x.acc.req.master <;> simp [ha]

@[simp] theorem State.ordered_nil (s : State) (k : Nat) : s.ordered k [] = [] := by
  simp [State.ordered, State.standing]

open Claims in
/-- Of two masters' requests the one whose master stands before the other's is granted (R170, R171). -/
theorem State.ordered_two (s : State) (k : Nat) {x y : Part}
    (h : standsBefore s k x.acc.req.master y.acc.req.master) : s.ordered k [x, y] = [x, y] := by
  obtain ⟨hne, hbefore⟩ := h
  simp only [State.ordered]
  by_cases hage : s.agedAt k x.acc.req.master = s.agedAt k y.acc.req.master
  · rw [if_pos hage] at hbefore
    rw [(s.standing_two k hbefore).1]
    cases hx : s.agedAt k x.acc.req.master <;> simp [hx, ← hage]
  · rw [if_neg hage] at hbefore
    have hy : s.agedAt k y.acc.req.master = false := by simpa [hbefore] using hage
    rcases Nat.lt_or_gt_of_ne hne with hlt | hlt
    · simp [(s.standing_two k hlt).1, hbefore, hy]
    · simp [(s.standing_two k hlt).2, hbefore, hy]

/-! ### The parts of one master's accesses -/

@[simp] theorem State.grant_alone_wait (s : State) (cyc : Nat) (x : Part) : (s.grant cyc x []).wait = [] := by
  simp only [State.grant]
  split <;> simp [State.merge]

/-- Parts granted one after another, each alone: the state after them and what became of each. -/
inductive State.ServedAlone : State → List Part → State → List PartDone → Prop
  | nil (s : State) : ServedAlone s [] s []
  | cons {s t : State} {x : Part} {xs : List Part} {ds : List PartDone} (k cyc : Nat)
      (h : ServedAlone ((s.grant cyc x []).s.wins k x) xs t ds) :
      ServedAlone s (x :: xs) t ((s.grant cyc x []).done ++ ds)

theorem State.ServedAlone.append {s t u : State} {xs ys : List Part} {ds es : List PartDone}
    (h : s.ServedAlone xs t ds) (g : t.ServedAlone ys u es) : s.ServedAlone (xs ++ ys) u (ds ++ es) := by
  induction h with
  | nil s => exact g
  | cons k cyc h ih => rw [List.cons_append, List.append_assoc]; exact .cons k cyc (ih g)

/-- In a sub-bank the parts of one master are granted one after another, each alone (R170). -/
theorem State.rounds_servedAlone {m : Master} (k : Nat) {ps : List Part} (s : State) (f cyc : Nat) (hf : ps.length ≤ f)
    (hm : ∀ x ∈ ps, x.acc.req.master = m) (hlo : ps.Pairwise (fun x y => x.lo ≠ y.lo)) :
    s.ServedAlone ps (s.rounds k f cyc ps).1 (s.rounds k f cyc ps).2 := by
  induction ps generalizing s f cyc with
  | nil => cases f <;> simp only [State.rounds, State.ordered_nil] <;> exact .nil s
  | cons x xs ih =>
    obtain ⟨f, rfl⟩ : ∃ g, f = g + 1 := ⟨f - 1, by simp at hf; omega⟩
    obtain ⟨hx, hxs⟩ := List.pairwise_cons.1 hlo
    have hone : s.ordered k (x :: xs) = [x] := s.ordered_one k x xs fun y hy => by
      rw [hm y (List.mem_cons_of_mem _ hy), hm x List.mem_cons_self]
    have hbehind : xs.filter (fun y => !(x.n == y.n && x.lo == y.lo)) = xs :=
      List.filter_eq_self.2 fun y hy => by simp [hx y hy]
    simp only [State.rounds, hone, State.grant_alone_wait, List.any_nil, List.any_cons, Bool.or_false, List.foldl_cons,
      List.foldl_nil, Bool.false_eq_true, if_false, List.nil_append]
    rw [List.filter_cons_of_neg (by simp), hbehind]
    exact .cons k cyc (ih _ f _ (by simpa using hf) (fun y hy => hm y (List.mem_cons_of_mem _ hy)) hxs)

/-- A list sorted into those of each key holds the same elements. -/
theorem perm_flatMap_filter {α : Type} (f : α → Nat) (l : List α) (ks : List Nat) (hk : ks.Nodup) :
    (ks.flatMap (fun k => l.filter (fun x => f x == k))).Perm (l.filter (fun x => ks.contains (f x))) := by
  induction ks with
  | nil => simp
  | cons k ks ih =>
    obtain ⟨hnot, hk⟩ := List.nodup_cons.1 hk
    have hhead : (l.filter (fun x => (k :: ks).contains (f x))).filter (fun x => f x == k) = l.filter (fun x => f x == k) := by
      rw [List.filter_filter]
      exact List.filter_congr fun x _ => by by_cases hx : f x = k <;> simp [hx]
    have htail : (l.filter (fun x => (k :: ks).contains (f x))).filter (fun x => !(f x == k)) =
        l.filter (fun x => ks.contains (f x)) := by
      rw [List.filter_filter]
      exact List.filter_congr fun x _ => by
        by_cases hx : f x = k
        · simp [hx, hnot]
        · simp [hx]
    have hsplit := List.filter_append_perm (fun x => f x == k) (l.filter (fun x => (k :: ks).contains (f x)))
    rw [hhead, htail] at hsplit
    rw [List.flatMap_cons]
    exact ((ih hk).append_left _).trans hsplit

/-- Lists of parts served in turn, key by key. -/
theorem State.foldl_servedAlone (parts : Nat → List Part) (run : State → Nat → State × List PartDone)
    (hrun : ∀ (u : State) (k : Nat), u.ServedAlone (parts k) (run u k).1 (run u k).2) (ks : List Nat) (u : State)
    (ds : List PartDone) :
    ∃ t es, ks.foldl (fun st k => ((run st.1 k).1, st.2 ++ (run st.1 k).2)) (u, ds) = (t, ds ++ es) ∧
      u.ServedAlone (ks.flatMap parts) t es := by
  induction ks generalizing u ds with
  | nil => exact ⟨u, [], by simp, .nil u⟩
  | cons k ks ih =>
    obtain ⟨t, es, heq, hserved⟩ := ih (run u k).1 (ds ++ (run u k).2)
    exact ⟨t, _, heq.trans (by rw [List.append_assoc]), (hrun u k).append hserved⟩

/-- The parts of one master in the large memories are granted one after another, each alone, in some order. -/
theorem State.runLarge_servedAlone {m : Master} (s : State) (ps : List Part) (hm : ∀ x ∈ ps, x.acc.req.master = m)
    (hlo : ps.Pairwise (fun x y => x.lo ≠ y.lo)) :
    ∃ qs, qs.Perm ps ∧ s.ServedAlone qs (s.runLarge ps).1 (s.runLarge ps).2 := by
  let parts := fun k => ps.filter (fun x => subKey x.lo == k)
  obtain ⟨t, es, heq, hserved⟩ := State.foldl_servedAlone parts (fun u k => u.rounds k (parts k).length 0 (parts k))
    (fun u k => State.rounds_servedAlone k u _ 0 (Nat.le_refl _) (fun x hx => hm x (List.mem_filter.1 hx).1) (hlo.filter _))
    (ps.map (fun x => subKey x.lo)).dedup s []
  have hrunLarge : s.runLarge ps = (t, es) := heq
  have hperm := perm_flatMap_filter (fun x : Part => subKey x.lo) ps (ps.map (fun x => subKey x.lo)).dedup
    (List.nodup_dedup _)
  rw [List.filter_eq_self.2 fun x hx => by simpa using ⟨x, hx, rfl⟩] at hperm
  rw [hrunLarge]
  exact ⟨_, hperm, hserved⟩

end Sys2Proof.Machine
end

section
/-! SUPPORT. The parts of an access: they tile its bytes, and served alone they write, find and answer what the access as a
whole does (R166 to R176, R182, R186). -/

namespace Sys2Proof.Machine

/-! ### The parts of an access -/

/-- Part y is one of request n for access x: it lies in x's bytes, and each of its words is still to be stored. -/
structure Part.Of (n : Nat) (x : MemAccess) (y : Part) : Prop where
  n : y.n = n
  acc : y.acc = x
  lo_ge : addrBase x.req.addr ≤ y.lo
  left : y.left = wordsOf y.lo y.len

/-- Byte b lies in part y. -/
def Part.covers (y : Part) (b : Nat) : Prop := y.lo ≤ b ∧ b < y.lo + y.len

theorem of_mem_partsOf {n : Nat} {x : MemAccess} {y : Part} (h : y ∈ partsOf n x) : y.Of n x := by
  simp only [partsOf, List.mem_map] at h
  obtain ⟨i, _, rfl⟩ := h
  exact ⟨rfl, rfl, Nat.le_max_left _ _, rfl⟩

/-- The parts of an access start at different bytes. -/
theorem partsOf_lo_ne (n : Nat) (x : MemAccess) : (partsOf n x).Pairwise (fun y z => y.lo ≠ z.lo) := by
  refine List.pairwise_map.2 (List.pairwise_lt_range.imp fun {i j} hij => ?_)
  simp only [ne_eq]
  omega

/-- The parts of an access cover its bytes. -/
theorem partsOf_covers (n : Nat) (x : MemAccess) (b : Nat) :
    (∃ y ∈ partsOf n x, y.covers b) ↔ addrBase x.req.addr ≤ b ∧ b < addrBase x.req.addr + x.req.len := by
  simp only [partsOf, Part.covers, List.mem_map, List.mem_range]
  generalize addrBase x.req.addr = a
  constructor
  · rintro ⟨_, ⟨i, hi, rfl⟩, h1, h2⟩
    simp only at h1 h2
    omega
  · rintro ⟨h1, h2⟩
    refine ⟨_, ⟨b / 64 - a / 64, by omega, rfl⟩, ?_⟩
    simp only
    omega

theorem partsOf_ne_nil (n : Nat) (x : MemAccess) (h : 0 < x.req.len) : partsOf n x ≠ [] := by
  obtain ⟨y, hy, _⟩ := (partsOf_covers n x (addrBase x.req.addr)).2 ⟨le_rfl, by omega⟩
  exact List.ne_nil_of_mem hy

/-- An access of one word is one part. -/
theorem partsOf_word (n : Nat) (x : MemAccess) (ha : addrBase x.req.addr % 8 = 0) (hl : x.req.len = 8) :
    partsOf n x = [⟨n, x, addrBase x.req.addr, 8, [addrBase x.req.addr / 8]⟩] := by
  simp only [partsOf, hl]
  generalize addrBase x.req.addr = a at *
  have hparts : (a % 64 + 8 + 63) / 64 = 1 := by omega
  have hlo : max a (64 * (a / 64)) = a := by omega
  have hhi : min (a + 8) (64 * (a / 64) + 64) - a = 8 := by omega
  simp only [hparts, List.range_one, List.map_cons, List.map_nil, Nat.add_zero, hlo, hhi, wordsOf, ha]
  rfl

/-! ### Writes -/

/-- From s to t the bytes that C names took the values that f gives, no other byte changed, and nothing beside memory did. -/
structure State.Stores (C : Nat → Prop) (f : Nat → Byte) (s t : State) : Prop where
  beside : s.BesideMem t
  wf : Memory.wf s.mem → Memory.wf t.mem
  stored : Memory.wf s.mem → ∀ b, C b → t.byte b = f b
  kept : Memory.wf s.mem → ∀ b, ¬ C b → t.byte b = s.byte b
  noEcc : s.ecc = [] → t.ecc = [] ∧ t.visor = s.visor

theorem State.Stores.trans {C D : Nat → Prop} {f : Nat → Byte} {s t u : State} (h : State.Stores C f s t)
    (g : State.Stores D f t u) : State.Stores (fun b => C b ∨ D b) f s u where
  beside := h.beside.trans g.beside
  wf := g.wf ∘ h.wf
  stored hs b hb := by
    by_cases hd : D b
    · exact g.stored (h.wf hs) b hd
    · rw [g.kept (h.wf hs) b hd]
      exact h.stored hs b (hb.resolve_right hd)
  kept hs b hb := (g.kept (h.wf hs) b (hb ∘ .inr)).trans (h.kept hs b (hb ∘ .inl))
  noEcc he := by
    obtain ⟨he1, hv1⟩ := h.noEcc he
    obtain ⟨he2, hv2⟩ := g.noEcc he1
    exact ⟨he2, hv2.trans hv1⟩

theorem State.Stores.congr {C D : Nat → Prop} {f : Nat → Byte} {s t : State} (h : State.Stores C f s t)
    (hCD : ∀ b, C b ↔ D b) : State.Stores D f s t := by
  obtain rfl : C = D := funext fun b => propext (hCD b)
  exact h

/-- What changes neither a byte, nor an error mark, nor anything beside memory stores nothing. -/
theorem State.stores_nothing {f : Nat → Byte} {s t : State} (hb : s.BesideMem t) (hm : t.mem = s.mem) (he : t.ecc = s.ecc)
    (hv : t.visor = s.visor) : State.Stores (fun _ => False) f s t where
  beside := hb
  wf hs := by rwa [hm]
  stored _ _ h := h.elim
  kept _ b _ := by simp only [State.byte, hm]
  noEcc h := ⟨he.trans h, hv⟩

theorem State.stores_wr {f : Nat → Byte} (s : State) (a n v : Nat)
    (hf : ∀ b, a ≤ b → b < a + n → BitVec.ofNat 8 (v / 256 ^ (b - a)) = f b) :
    State.Stores (fun b => a ≤ b ∧ b < a + n) f s (s.wr a n v) where
  beside := s.besideMem_wr a n v
  wf hs := State.wr_wf hs a n v
  stored hs b h := (State.byte_wr_inside hs h.1 h.2).trans (hf b h.1 h.2)
  kept hs b h := State.byte_wr_outside hs (by omega)
  noEcc h := State.wr_noEcc h a n v

theorem State.stores_foldl {ι : Type} {f : Nat → Byte} {C : ι → Nat → Prop} {g : State → ι → State} (l : List ι)
    (h : ∀ w ∈ l, ∀ s, State.Stores (C w) f s (g s w)) (s : State) :
    State.Stores (fun b => ∃ w ∈ l, C w b) f s (l.foldl g s) := by
  induction l generalizing s with
  | nil => exact (State.stores_nothing (.refl s) rfl rfl rfl).congr fun b => by simp
  | cons w l ih =>
    refine ((h w List.mem_cons_self s).trans (ih (fun v hv => h v (List.mem_cons_of_mem _ hv)) _)).congr fun b => ?_
    simp

/-- Byte b of a write's data. -/
def dataByte (r : MemReq) (b : Nat) : Byte := BitVec.ofNat 8 (r.data / 256 ^ (b - addrBase r.addr))

/-- Byte d of a field of k bytes cut out of a value at byte j is the value's byte j + d. -/
theorem byte_of_cut (v : Nat) {j k d : Nat} (hd : d < k) :
    BitVec.ofNat 8 (v / 256 ^ j % 256 ^ k / 256 ^ d) = BitVec.ofNat 8 (v / 256 ^ (j + d)) := by
  obtain ⟨m, rfl⟩ := Nat.exists_eq_add_of_lt hd
  apply BitVec.eq_of_toNat_eq
  rw [BitVec.toNat_ofNat, BitVec.toNat_ofNat, show d + m + 1 = d + (m + 1) from rfl, pow_add 256 d,
    Nat.mod_mul_right_div_self, Nat.div_div_eq_div_mul, ← pow_add, show (2 : Nat) ^ 8 = 256 from rfl,
    Nat.mod_mod_of_dvd _ (dvd_pow_self 256 (by omega))]

/-- A part stored stores its bytes of the access's data (R173, R174). -/
theorem State.stores_storePart {n : Nat} {x : MemAccess} {y : Part} (h : y.Of n x) (s : State) :
    State.Stores y.covers (dataByte x.req) s (s.storePart y) := by
  obtain ⟨_, hacc, hge, hleft⟩ := h
  have hpiece : ∀ w ∈ y.left, ∀ t : State, State.Stores (fun b => (y.piece w).1 ≤ b ∧ b < (y.piece w).1 + (y.piece w).2.1)
      (dataByte x.req) t (t.wr (y.piece w).1 (y.piece w).2.1 (y.piece w).2.2) := by
    refine fun w _ t => State.stores_wr t _ _ _ fun b h1 h2 => ?_
    simp only [Part.piece, hacc] at h1 h2 ⊢
    rw [byte_of_cut _ (by omega), dataByte]
    congr 3
    omega
  refine (State.stores_foldl y.left hpiece s).congr fun b => ?_
  simp only [hleft, wordsOf, Part.piece, Part.covers, List.mem_map, List.mem_range]
  constructor
  · rintro ⟨w, _, h1, h2⟩
    omega
  · rintro ⟨h1, h2⟩
    exact ⟨b / 8, ⟨b / 8 - y.lo / 8, by omega, by omega⟩, by omega, by omega⟩

theorem State.grant_write {s : State} {cyc : Nat} {y : Part} (h : y.acc.kind = .write) :
    s.grant cyc y [] = ⟨s.storePart y, [⟨y.n, if y.whole then cyc else cyc + 1, 0, y.lo, 0, none⟩], []⟩ := by
  simp [State.grant, h, State.merge]

/-- A part of request n done without more to tell than OK. -/
structure PartDone.Ok (n : Nat) (d : PartDone) : Prop where
  n : d.n = n
  code : d.code = 0
  data : d.data = 0
  lost : d.lost = none

/-- Parts of a write, served alone, store their bytes and answer nothing but OK. -/
theorem State.ServedAlone.write {n : Nat} {x : MemAccess} {s t : State} {ps : List Part} {ds : List PartDone}
    (h : s.ServedAlone ps t ds) (hk : x.kind = .write) (hof : ∀ y ∈ ps, y.Of n x) :
    State.Stores (fun b => ∃ y ∈ ps, y.covers b) (dataByte x.req) s t ∧
      (∀ d ∈ ds, d.Ok n) ∧ ds.length = ps.length := by
  induction h with
  | nil s => exact ⟨(State.stores_nothing (.refl s) rfl rfl rfl).congr fun b => by simp, by simp, rfl⟩
  | @cons s t y ys ds k cyc _ ih =>
    obtain ⟨hstores, hds, hlen⟩ := ih fun z hz => hof z (List.mem_cons_of_mem _ hz)
    have hy := hof y List.mem_cons_self
    rw [State.grant_write (by rw [hy.acc, hk])] at hstores ⊢
    have hwins := State.stores_nothing (f := dataByte x.req) ((s.storePart y).besideMem_wins k y) rfl rfl rfl
    refine ⟨(((State.stores_storePart hy s).trans hwins).trans hstores).congr fun b => by simp, ?_, by simp [hlen]⟩
    simpa using And.intro (PartDone.Ok.mk hy.n rfl rfl rfl) hds

/-! ### Reads -/

/-- What became of a part, its cycle left out. -/
def PartDone.timeless (d : PartDone) : PartDone := { d with cycle := 0 }

/-- What a read of part y answers in state s: its bytes, POISON where a word of them is uncorrectable (R172, R186). -/
def State.readPart (s : State) (y : Part) : PartDone :=
  ⟨y.n, 0, if s.poisoned y.lo y.len then 6 else 0, y.lo, s.rd y.lo y.len, none⟩

theorem State.grant_read {s : State} {cyc : Nat} {y : Part} (h : y.acc.kind = .read) :
    s.grant cyc y [] = ⟨y.left.dedup.foldl (fun st w => st.eccRead (8 * w) 8) s,
      [⟨y.n, cyc, if s.poisoned y.lo y.len then 6 else 0, y.lo, s.rd y.lo y.len, none⟩], []⟩ := by
  simp [State.grant, h]

/-- Reading words changes no byte, no error mark, no bank and nothing beside memory. -/
theorem State.eccRead_foldl (ws : List Nat) (s : State) :
    let t := ws.foldl (fun st w => st.eccRead (8 * w) 8) s
    s.BesideMem t ∧ t.mem = s.mem ∧ t.ecc = s.ecc ∧ t.banks = s.banks := by
  induction ws generalizing s with
  | nil => exact ⟨.refl s, rfl, rfl, rfl⟩
  | cons w ws ih =>
    obtain ⟨hb, hm, he, hk⟩ := ih (s.eccRead (8 * w) 8)
    exact ⟨(s.besideMem_eccRead _ _).trans hb, by simp [hm], by simp [he], by simp [hk]⟩

/-- Parts of a read, served alone, answer what they would in the first state, and change no byte. -/
theorem State.ServedAlone.read {x : MemAccess} {s t : State} {ps : List Part} {ds : List PartDone} {n : Nat}
    (h : s.ServedAlone ps t ds) (hk : x.kind = .read) (hof : ∀ y ∈ ps, y.Of n x) :
    s.BesideMem t ∧ t.mem = s.mem ∧ ds.map PartDone.timeless = ps.map s.readPart := by
  suffices h : s.BesideMem t ∧ t.mem = s.mem ∧ ∀ u : State, s.mem = u.mem → s.ecc = u.ecc → s.banks = u.banks →
      ds.map PartDone.timeless = ps.map u.readPart from ⟨h.1, h.2.1, h.2.2 s rfl rfl rfl⟩
  induction h with
  | nil s => exact ⟨.refl s, rfl, fun _ _ _ _ => rfl⟩
  | @cons s t y ys ds k cyc _ ih =>
    obtain ⟨hbeside, hmem, hds⟩ := ih fun z hz => hof z (List.mem_cons_of_mem _ hz)
    have hy := hof y List.mem_cons_self
    rw [State.grant_read (by rw [hy.acc, hk])] at hbeside hmem hds ⊢
    obtain ⟨hb, hm, he, hkb⟩ := s.eccRead_foldl y.left.dedup
    refine ⟨(hb.trans (State.besideMem_wins _ k y)).trans hbeside, hmem.trans hm, fun u hum hue hub => ?_⟩
    rw [List.map_append, hds u (hm.trans hum) (he.trans hue) (hkb.trans hub)]
    simp [PartDone.timeless, State.readPart, State.poisoned_congr hue hub, State.rd_congr hum]

/-- What does not look at the cycles is known of the parts of a read from what they answer. -/
theorem map_of_timeless {s : State} {ds : List PartDone} {ps : List Part} (h : ds.map PartDone.timeless = ps.map s.readPart)
    {β : Type} (g : PartDone → β) (hg : ∀ d, g d.timeless = g d) : ds.map g = ps.map (g ∘ s.readPart) := by
  rw [← List.map_map, ← h, List.map_map]
  exact List.map_congr_left fun d _ => (hg d).symm

theorem forall_of_timeless {s : State} {ds : List PartDone} {ps : List Part} (h : ds.map PartDone.timeless = ps.map s.readPart)
    {β : Type} (g : PartDone → β) {v : β} (hg : ∀ d, g d.timeless = g d) (hv : ∀ y ∈ ps, g (s.readPart y) = v) :
    ∀ d ∈ ds, g d = v := by
  intro d hd
  obtain ⟨y, hy, he⟩ := List.mem_map.1 (map_of_timeless h g hg ▸ List.mem_map_of_mem (f := g) hd)
  exact he.symm.trans (hv y hy)

/-- The lowest of codes that are POISON or OK: POISON where one is. -/
theorem leastCode_poison {α : Type} (p : α → Bool) (l : List α) :
    leastCode (l.map (fun y => ((if p y then 6 else 0) != 0, if p y then 6 else 0))) = if l.any p then 6 else 0 := by
  have hfold : ∀ (l : List α) (m : Nat), m = 0 ∨ m = 6 →
      ((l.map (fun y => ((if p y then 6 else 0) != 0, if p y then 6 else 0))).filter (·.1)).foldl
        (fun m e => if m = 0 then e.2 else min m e.2) m = if m = 6 ∨ l.any p then 6 else 0 := by
    intro l
    induction l with
    | nil => rintro m (rfl | rfl) <;> simp
    | cons y l ih =>
      intro m hm
      cases hp : p y
      · simpa [hp] using ih m hm
      · rcases hm with rfl | rfl <;> simpa [hp] using ih 6 (.inr rfl)
  simpa [leastCode] using hfold l 0 (.inl rfl)

/-- n + k bytes are n bytes and the k behind them. -/
theorem readMem_add (m : SMap Byte) (a n k : Nat) : readMem m a (n + k) = readMem m a n + 256 ^ n * readMem m (a + n) k := by
  induction n generalizing a with
  | zero => simp [readMem]
  | succ n ih =>
    rw [show n + 1 + k = (n + k) + 1 by omega]
    simp only [readMem]
    rw [ih, show a + 1 + n = a + (n + 1) by omega, pow_succ']
    ring

/-- The bytes of an access's parts, each at its place, are the access's bytes. -/
theorem partsOf_rd_sum (s : State) (n : Nat) (x : MemAccess) :
    ((partsOf n x).map (fun y => s.rd y.lo y.len * 256 ^ (y.lo - addrBase x.req.addr))).sum =
      s.rd (addrBase x.req.addr) x.req.len := by
  simp only [partsOf, List.map_map, Function.comp_def, State.rd]
  generalize addrBase x.req.addr = a
  generalize x.req.len = l
  have hsum : ∀ j, j ≤ (a % 64 + l + 63) / 64 → ((List.range j).map (fun i =>
      readMem s.mem (max a (64 * (a / 64 + i))) (min (a + l) (64 * (a / 64 + i) + 64) - max a (64 * (a / 64 + i))) *
        256 ^ (max a (64 * (a / 64 + i)) - a))).sum = readMem s.mem a (min (a + l) (max a (64 * (a / 64 + j))) - a) := by
    intro j
    induction j with
    | zero =>
      intro _
      rw [show min (a + l) (max a (64 * (a / 64 + 0))) - a = 0 by omega]
      rfl
    | succ j ih =>
      intro hj
      obtain ⟨d, hd⟩ : ∃ d, max a (64 * (a / 64 + j)) = a + d := ⟨_, (Nat.add_sub_of_le (Nat.le_max_left _ _)).symm⟩
      have hdl : d ≤ l := by omega
      rw [List.range_succ, List.map_append, List.sum_append, ih (by omega), hd]
      simp only [List.map_cons, List.map_nil, List.sum_singleton, hd]
      rw [show min (a + l) (a + d) - a = d by omega, show a + d - a = d by omega, Nat.mul_comm, ← readMem_add]
      congr 1
      omega
  rw [hsum _ le_rfl]
  congr 1
  omega

/-- The words that an access meets are those that its parts meet. -/
theorem partsOf_meets (n : Nat) (x : MemAccess) (hl : 0 < x.req.len) (w : Nat) :
    (∃ y ∈ partsOf n x, y.lo < 8 * w + 8 ∧ 8 * w < y.lo + y.len) ↔
      addrBase x.req.addr < 8 * w + 8 ∧ 8 * w < addrBase x.req.addr + x.req.len := by
  simp only [partsOf, List.mem_map, List.mem_range]
  generalize addrBase x.req.addr = a
  constructor
  · rintro ⟨_, ⟨i, hi, rfl⟩, h1, h2⟩
    simp only at h1 h2
    omega
  · rintro ⟨h1, h2⟩
    refine ⟨_, ⟨max a (8 * w) / 64 - a / 64, by omega, rfl⟩, ?_⟩
    simp only
    omega

/-- n bytes hold an uncorrectable word where they meet a word with a double-bit error in a checked row (R186, R193). -/
theorem State.poisoned_iff (s : State) (a n : Nat) : s.poisoned a n = true ↔
    ∃ e ∈ s.ecc, (a < 8 * e.1 + 8 ∧ 8 * e.1 < a + n) ∧ e.2 = .double ∧ s.rowChecked (8 * e.1) = true := by
  have hrow : s.poisoned a n = s.ecc.any (fun e =>
      e.2 == .double && decide (a < 8 * e.1 + 8 ∧ 8 * e.1 < a + n) && s.rowChecked (8 * e.1)) := rfl
  rw [hrow, List.any_eq_true]
  refine exists_congr fun e => and_congr_right fun _ => ?_
  simp only [Bool.and_eq_true, decide_eq_true_eq, beq_iff_eq]
  tauto

/-- An access meets an uncorrectable word where one of its parts does. -/
theorem partsOf_poisoned (s : State) (n : Nat) (x : MemAccess) (hl : 0 < x.req.len) :
    (partsOf n x).any (fun y => s.poisoned y.lo y.len) = s.poisoned (addrBase x.req.addr) x.req.len := by
  rw [Bool.eq_iff_iff, List.any_eq_true, s.poisoned_iff]
  simp only [s.poisoned_iff, ← partsOf_meets n x hl]
  constructor
  · rintro ⟨y, hy, e, he, hmeets, hrest⟩
    exact ⟨e, he, ⟨y, hy, hmeets⟩, hrest⟩
  · rintro ⟨e, he, ⟨y, hy, hmeets⟩, hrest⟩
    exact ⟨y, hy, e, he, hmeets, hrest⟩

/-! ### One access alone at a bank -/

/-- The response to a request all of whose parts are done and none of which lost a word. -/
theorem respond_done (n : Nat) (x : MemAccess) {ds : List PartDone} (hne : ds ≠ []) (hn : ∀ d ∈ ds, d.n = n)
    (hl : ∀ d ∈ ds, d.lost = none) :
    ∃ c, respond n x ds = some ⟨n, c, x, leastCode (ds.map (fun d => (d.code != 0, d.code))),
      (ds.map (fun d => d.data * 256 ^ (d.lo - addrBase x.req.addr))).sum, none⟩ := by
  have hmine : ds.filter (fun d => d.n == n) = ds := List.filter_eq_self.2 fun d hd => by simp [hn d hd]
  have hlost : ds.filterMap (·.lost) = [] := List.filterMap_eq_nil_iff.2 hl
  simp only [respond, hmine, hlost, List.isEmpty_iff, hne, if_false]
  exact ⟨_, rfl⟩

/-- Access x, which counts as y, reaches a bank: it is issued, admitted, and does not wait. -/
structure State.Reaches (s : State) (x y : MemAccess) : Prop where
  issued : issuedAccess x = true
  settled : settledAccess x = y
  judged : s.judged y = 0
  awake : s.mustWait y.req = false
  sram : (placeOf y.req.addr).isSram = true

/-- An access alone at a bank, with what became of its parts in the rounds of the large banks or at a small one. -/
theorem State.memCycle_bank {s t : State} {x y : MemAccess} {ds : List PartDone} (h : s.Reaches x y)
    (hr : (if smallAccess y then s.runSmall 0 [(0, y)] else s.runLarge (partsOf 0 y)) = (t, ds))
    (hne : ds ≠ []) (hn : ∀ d ∈ ds, d.n = 0) (hl : ∀ d ∈ ds, d.lost = none) :
    s.memCycle [x] = t.emit (.memResp y.req.master y.req.core (leastCode (ds.map (fun d => (d.code != 0, d.code))))
      (ds.map (fun d => d.data * 256 ^ (d.lo - addrBase y.req.addr))).sum) := by
  obtain ⟨hi, rfl, hj, hw, ho⟩ := h
  obtain ⟨c, hc⟩ := respond_done 0 (settledAccess x) hne hn hl
  cases hs : smallAccess (settledAccess x) <;> rw [hs] at hr
  · replace hr : s.runLarge (partsOf 0 (settledAccess x)) = (t, ds) := hr
    simp [State.memCycle, State.memServe, hi, hj, hw, ho, hs, hr, hc, State.runSmall, List.range_succ, List.zip,
      responseOrder, State.respondTo, State.noteLost]
  · replace hr : s.runSmall 0 [(0, settledAccess x)] = (t, ds) := hr
    by_cases hm : (settledAccess x).req.master = .signalCore <;>
      simp [State.memCycle, State.memServe, hi, hj, hw, ho, hs, hm, hr, hc, State.runLarge, List.range_succ, List.zip,
        responseOrder, State.respondTo, State.noteLost]

/-- The rounds of an access alone at a large bank: its parts in some order, each granted alone. -/
theorem State.runLarge_partsOf (s : State) (y : MemAccess) :
    ∃ qs t ds, s.runLarge (partsOf 0 y) = (t, ds) ∧ qs.Perm (partsOf 0 y) ∧ (∀ z ∈ qs, z.Of 0 y) ∧
      s.ServedAlone qs t ds := by
  obtain ⟨qs, hperm, hserved⟩ := s.runLarge_servedAlone (m := y.req.master) (partsOf 0 y)
    (fun z hz => by rw [(of_mem_partsOf hz).acc]) (partsOf_lo_ne 0 y)
  exact ⟨qs, _, _, rfl, hperm, fun z hz => of_mem_partsOf (hperm.mem_iff.1 hz), hserved⟩

/-- The lowest of codes that are all OK. -/
theorem leastCode_ok {ds : List PartDone} (h : ∀ d ∈ ds, d.code = 0) : leastCode (ds.map (fun d => (d.code != 0, d.code))) = 0 := by
  rw [leastCode, List.filter_eq_nil_iff.2 (by simpa using h)]
  rfl

/-- A write alone stores its bytes and is answered OK (R166, R173, R182). -/
theorem State.memCycle_write {s : State} {x y : MemAccess} (h : s.Reaches x y) (hk : y.kind = .write) (hl : 0 < y.req.len) :
    ∃ t, s.memCycle [x] = t.emit (.memResp y.req.master y.req.core 0 0) ∧
      State.Stores (fun b => addrBase y.req.addr ≤ b ∧ b < addrBase y.req.addr + y.req.len) (dataByte y.req) s t := by
  by_cases hs : smallAccess y = true
  · have hr : s.runSmall 0 [(0, y)] = (s.wr (addrBase y.req.addr) y.req.len y.req.data,
        [⟨0, 0, 0, addrBase y.req.addr, 0, none⟩]) := by simp [State.runSmall, hk]
    refine ⟨_, ?_, State.stores_wr s _ _ y.req.data fun b _ _ => rfl⟩
    rw [State.memCycle_bank h ((if_pos hs).trans hr) (by simp) (by simp) (by simp), leastCode_ok (by simp)]
    simp
  · obtain ⟨qs, t, ds, hr, hperm, hof, hserved⟩ := s.runLarge_partsOf y
    obtain ⟨hstores, hds, hlen⟩ := hserved.write hk hof
    have hne : ds ≠ [] := by
      rintro rfl
      rw [hperm.length_eq] at hlen
      exact partsOf_ne_nil 0 y hl (List.length_eq_zero_iff.1 hlen.symm)
    have hsum : (ds.map (fun d => d.data * 256 ^ (d.lo - addrBase y.req.addr))).sum = 0 :=
      List.sum_eq_zero fun v hv => by
        obtain ⟨d, hd, rfl⟩ := List.mem_map.1 hv
        rw [(hds d hd).data, Nat.zero_mul]
    refine ⟨t, ?_, hstores.congr fun b => by simpa only [hperm.mem_iff] using partsOf_covers 0 y b⟩
    rw [State.memCycle_bank h ((if_neg hs).trans hr) hne (fun d hd => (hds d hd).n) (fun d hd => (hds d hd).lost),
      leastCode_ok fun d hd => (hds d hd).code, hsum]

/-- A read alone is answered its bytes, with POISON where a word of them is uncorrectable (R172, R182, R186). -/
theorem State.memCycle_read {s : State} {x y : MemAccess} (h : s.Reaches x y) (hk : y.kind = .read) (hl : 0 < y.req.len) :
    ∃ t, s.memCycle [x] = t.emit (.memResp y.req.master y.req.core
        (if s.poisoned (addrBase y.req.addr) y.req.len then 6 else 0) (s.rd (addrBase y.req.addr) y.req.len)) ∧
      s.BesideMem t ∧ t.mem = s.mem := by
  by_cases hs : smallAccess y = true
  · have hr : s.runSmall 0 [(0, y)] = (s.eccRead (addrBase y.req.addr) y.req.len, [⟨0, 0,
        if s.poisoned (addrBase y.req.addr) y.req.len then 6 else 0, addrBase y.req.addr,
        s.rd (addrBase y.req.addr) y.req.len, none⟩]) := by simp [State.runSmall, hk]
    refine ⟨_, ?_, s.besideMem_eccRead (addrBase y.req.addr) y.req.len, by simp⟩
    rw [State.memCycle_bank h ((if_pos hs).trans hr) (by simp) (by simp) (by simp)]
    simp
  · obtain ⟨qs, t, ds, hr, hperm, hof, hserved⟩ := s.runLarge_partsOf y
    obtain ⟨hbeside, hmem, hwhat⟩ := hserved.read hk hof
    have hne : ds ≠ [] := by
      rintro rfl
      rw [List.map_nil, eq_comm, List.map_eq_nil_iff] at hwhat
      exact partsOf_ne_nil 0 y hl (List.nil_perm.1 (hwhat ▸ hperm))
    have hcode : ds.map (fun d => (d.code != 0, d.code)) =
        qs.map (fun z => ((if s.poisoned z.lo z.len then 6 else 0) != 0, if s.poisoned z.lo z.len then 6 else 0)) :=
      map_of_timeless hwhat _ fun _ => rfl
    have hdata : ds.map (fun d => d.data * 256 ^ (d.lo - addrBase y.req.addr)) =
        qs.map (fun z => s.rd z.lo z.len * 256 ^ (z.lo - addrBase y.req.addr)) := map_of_timeless hwhat _ fun _ => rfl
    refine ⟨t, ?_, hbeside, hmem⟩
    rw [State.memCycle_bank h ((if_neg hs).trans hr) hne
      (forall_of_timeless hwhat (·.n) (fun _ => rfl) fun z hz => (hof z hz).n)
      (forall_of_timeless hwhat (·.lost) (fun _ => rfl) fun _ _ => rfl), hcode, hdata, leastCode_poison, hperm.any_eq,
      (hperm.map _).sum_eq, partsOf_poisoned s 0 y hl, partsOf_rd_sum]

/-- The kind of an atomic, and the mode of its address (R166). -/
def atomicKind (set : Bool) : AccKind := if set then .set else .clr
def atomicMode (set : Bool) : Nat := if set then 1 else 2

/-- An atomic served alone answers the word it found, and leaves what an atomic leaves (R169). -/
theorem State.ServedAlone.atomic {s t : State} {y : MemAccess} {set : Bool} {a n : Nat} {ws : List Nat} {ds : List PartDone}
    (h : s.ServedAlone [⟨n, y, a, 8, ws⟩] t ds) (hk : y.kind = atomicKind set) (ha : a % 8 = 0) :
    let r := s.atomicAt (atomicMode set) a y.req.data
    s.BesideMem t ∧ t.mem = r.s.mem ∧ t.ecc = r.s.ecc ∧ ∃ cyc, ds = [⟨n, cyc, r.code, a, r.data, none⟩] := by
  intro r
  cases h with
  | cons k cyc h =>
    cases h
    have hgrant : s.grant cyc ⟨n, y, a, 8, ws⟩ [] = ⟨r.s, [⟨n, cyc + 1, r.code, a, r.data, none⟩], []⟩ := by
      have hword : a / 8 * 8 = a := by omega
      cases set <;> simp [State.grant, hk, hword, r, atomicKind, atomicMode]
    rw [hgrant]
    exact ⟨(s.besideMem_atomicAt _ _ _).trans (State.besideMem_wins _ _ _), rfl, rfl, cyc + 1, rfl⟩

/-- An atomic alone answers the word it found, and leaves what an atomic leaves (R169, R186). -/
theorem State.memCycle_atomic {s : State} {x y : MemAccess} {set : Bool} {a : Nat} (h : s.Reaches x y)
    (hk : y.kind = atomicKind set) (hbase : addrBase y.req.addr = a) (ha : a % 8 = 0) (hl : y.req.len = 8) :
    let r := s.atomicAt (atomicMode set) a y.req.data
    ∃ t, s.memCycle [x] = t.emit (.memResp y.req.master y.req.core r.code r.data) ∧
      s.BesideMem t ∧ t.mem = r.s.mem ∧ t.ecc = r.s.ecc := by
  intro r
  subst hbase
  by_cases hs : smallAccess y = true
  · have hr : s.runSmall 0 [(0, y)] = (r.s, [⟨0, 0, r.code, addrBase y.req.addr, r.data, none⟩]) := by
      cases set <;> simp [State.runSmall, hk, r, atomicKind, atomicMode]
    refine ⟨r.s, ?_, s.besideMem_atomicAt _ _ _, rfl, rfl⟩
    rw [State.memCycle_bank h ((if_pos hs).trans hr) (by simp) (by simp) (by simp)]
    simp
  · obtain ⟨qs, t, ds, hr, hperm, _, hserved⟩ := s.runLarge_partsOf y
    rw [partsOf_word 0 y ha hl, List.perm_singleton] at hperm
    rw [hperm] at hserved
    obtain ⟨hbeside, hmem, hecc, cyc, rfl⟩ := hserved.atomic hk ha
    refine ⟨t, ?_, hbeside, hmem, hecc⟩
    rw [State.memCycle_bank h ((if_neg hs).trans hr) (by simp) (by simp) (by simp)]
    simp [r]

end Sys2Proof.Machine
end

section
/-! SUPPORT. What each access of the memories does as a step: atomics, Crown's semaphore writes, two writes of one word, and
the statement about them (R169, R176, R177, R259, R578). -/

namespace Sys2Proof.Machine

/-! ### Addresses and response codes -/

/-- An address of normal mode is its own base (R166). -/
theorem addrBase_of_mode_zero {a : Nat} (h : addrMode a = 0) : addrBase a = a := by
  simp only [addrMode, bits, Nat.shiftRight_eq_div_pow] at h
  simp only [addrBase]
  omega

/-- Mode bits put to an address of memory are its mode, and take no part in its base (R166). -/
theorem addrBase_add_mode {a k : Nat} (ha : a < 2 ^ 48) (hk : k < 4) : addrBase (a + k * 2 ^ 48) = a := by
  simp only [addrBase]
  omega

theorem addrMode_add_mode {a k : Nat} (ha : a < 2 ^ 48) (hk : k < 4) : addrMode (a + k * 2 ^ 48) = k := by
  simp only [addrMode, bits, Nat.shiftRight_eq_div_pow]
  omega

theorem writeKind_of_mode_zero {a : Nat} (h : addrMode a = 0) : writeKind a = .write := by simp [writeKind, h]

/-- Where the lowest of codes other than 0 is 0, no cause applies. -/
theorem leastCode_eq_zero {l : List (Bool × Nat)} (hpos : ∀ e ∈ l, e.1 = true → e.2 ≠ 0) (h : leastCode l = 0) :
    ∀ e ∈ l, e.1 = false := by
  have hfold : ∀ (l : List (Bool × Nat)) (m : Nat), (∀ e ∈ l, e.2 ≠ 0) → m ≠ 0 →
      l.foldl (fun m e => if m = 0 then e.2 else min m e.2) m ≠ 0 := by
    intro l
    induction l with
    | nil => exact fun m _ hm => hm
    | cons e l ih =>
      intro m hl hm
      have he := hl e List.mem_cons_self
      exact ih _ (fun e' he' => hl e' (List.mem_cons_of_mem _ he')) (by simp only [if_neg hm]; omega)
  have hnone : l.filter (·.1) = [] := by
    rw [leastCode] at h
    rcases hf : l.filter (·.1) with _ | ⟨e, es⟩
    · exact hf
    · have hmem : ∀ e' ∈ e :: es, e'.2 ≠ 0 := fun e' he' => by
        rw [← hf, List.mem_filter] at he'
        exact hpos e' he'.1 he'.2
      rw [hf, List.foldl_cons, if_pos rfl] at h
      exact absurd h (hfold es _ (fun e' he' => hmem e' (List.mem_cons_of_mem _ he')) (hmem e List.mem_cons_self))
  intro e he
  simpa using List.filter_eq_nil_iff.1 hnone e he

/-- An admitted access is admitted at its first place (R182). -/
theorem State.placeCode_of_accessCode {s : State} {who : Req} {addr len : Nat} {k : Acc2}
    (h : s.accessCode who addr len k = 0) : s.placeCode who addr len k (placeOf addr) = 0 := by
  have hcauses := leastCode_eq_zero (by simp) h
  simpa [probes] using hcauses _ (List.mem_map_of_mem (List.mem_append_left _ List.mem_cons_self))

/-- An admitted atomic is one aligned word (R169, R182). -/
theorem State.word_of_atomic_admitted {s : State} {who : Req} {addr len : Nat} (h : s.accessCode who addr len .write = 0)
    (hm : addrMode addr = 1 ∨ addrMode addr = 2) (hs : (placeOf addr).isSram = true) : len = 8 ∧ addrBase addr % 8 = 0 := by
  have hcauses := leastCode_eq_zero (by simp) (State.placeCode_of_accessCode h)
  have halign := hcauses ((placeOf addr).isSram && (addrMode addr == 1 || addrMode addr == 2) && Acc2.write == Acc2.write &&
    !(len == 8 && addrBase addr % 8 == 0), 5) (by simp)
  rcases hm with hm | hm <;> simpa [hs, hm] using halign

/-! ### SET and CLR -/

theorem State.atomicAt_poisoned {s : State} {a : Nat} (h : s.poisoned a 8 = true) (mode v : Nat) :
    s.atomicAt mode a v = ⟨6, s.rd a 8, s.eccRead a 8⟩ := by
  simp [State.atomicAt, h]

/-- The word that an atomic writes: the old one with the bits of v set (mode 1) or cleared (mode 2) (R166). -/
def atomicWord (set : Bool) (old v : Nat) : Nat :=
  if set then Nat.lor old (v % 2 ^ 64) else Nat.land old (2 ^ 64 - 1 - v % 2 ^ 64)

theorem State.atomicAt_clean {s : State} {a : Nat} (h : s.poisoned a 8 = false) (set : Bool) (v : Nat) :
    s.atomicAt (atomicMode set) a v = ⟨0, s.rd a 8, (s.eccRead a 8).wr a 8 (atomicWord set (s.rd a 8) v)⟩ := by
  cases set <;> simp [State.atomicAt, h, atomicWord, atomicMode]

theorem testBit_atomicWord (set : Bool) (old v : Nat) {i : Nat} (hi : i < 64) :
    (atomicWord set old v % 256 ^ 8).testBit i =
      if set then old.testBit i || v.testBit i else old.testBit i && !v.testBit i := by
  have hcut : ∀ w : Nat, (w % 256 ^ 8).testBit i = w.testBit i := fun w => by
    rw [show (256 : Nat) ^ 8 = 2 ^ 64 from rfl, Nat.testBit_mod_two_pow]
    simp [hi]
  have hnot : (2 ^ 64 - 1 - v % 2 ^ 64).testBit i = !v.testBit i := by
    rw [show 2 ^ 64 - 1 - v % 2 ^ 64 = 2 ^ 64 - (v % 2 ^ 64 + 1) by omega,
      Nat.testBit_two_pow_sub_succ (Nat.mod_lt _ (by decide)), Nat.testBit_mod_two_pow]
    simp [hi]
  rw [hcut, atomicWord]
  cases set
  · simp only [Bool.false_eq_true, if_false]
    exact (Nat.testBit_land _ _ _).trans (by rw [hnot])
  · simp only [if_true]
    exact (Nat.testBit_lor _ _ _).trans (by rw [Nat.testBit_mod_two_pow]; simp [hi])

/-! ### Semaphores written by Crown -/

theorem placeOf_sem {n k : Nat} (hn : n < 65536) (hk : k < 8) : placeOf (semBase + 8 * n + k) = .sem n := by
  have hbase : addrBase (semBase + 8 * n + k) = semBase + 8 * n + k := by
    simp only [addrBase, semBase]
    omega
  have hword : (semBase + 8 * n + k) % 2 ^ 36 / 8 = n := by simp only [semBase]; omega
  simp only [placeOf, hbase]
  rw [if_neg, if_neg, if_neg, if_neg, if_pos, hword] <;> simp only [spBase, cantonBase, sigBase, semBase] <;> omega

/-- A byte of a count replaced, then the bytes above it: the count's bytes below, the value's from there on. -/
theorem count_byte_replaced {k : Nat} (hk : k < 8) (c v : Nat) :
    (setBits c (8 * k + 7) (8 * k) (v % 256) % 2 ^ 32 % 256 ^ (k + 1) + 256 ^ (k + 1) * (v / 256)) % 2 ^ 32 =
      (c % 256 ^ k + 256 ^ k * v) % 2 ^ 32 := by
  interval_cases k <;> simp only [setBits] <;> omega

/-- Bytes k to 7 of semaphore n's word written: the count's bytes below k, the value's from there on; every other count
stands, and so do memory, cores and dictionary (R259). -/
theorem State.storeSem_word {s : State} (hs : swf s.sems zeroD) {n : Nat} (hn : n < 65536) (m k v : Nat) (hk : k + m + 1 = 8) :
    let t := s.storeSem (semBase + 8 * n + k) v (m + 1)
    t.semCount n = (s.semCount n % 256 ^ k + 256 ^ k * v) % 2 ^ 32 ∧ (∀ j, j ≠ n → t.semCount j = s.semCount j) ∧
      t.mem = s.mem ∧ t.cores = s.cores ∧ t.dict = s.dict := by
  have hword : (semBase + 8 * n + k) % 2 ^ 36 / 8 = n := by simp only [semBase]; omega
  have hbyte : (semBase + 8 * n + k) % 8 = k := by simp only [semBase]; omega
  induction m generalizing s k v with
  | zero =>
    obtain rfl : k = 7 := by omega
    simp only [State.storeSem, hword, hbyte]
    refine ⟨?_, fun j hj => State.semCount_setSem_other _ hj _, by simp, by simp, by simp⟩
    rw [State.semCount_setSem_same hs]
    simp only [setBits]
    omega
  | succ m ih =>
    rw [State.storeSem, hword, hbyte]
    obtain ⟨hcount, hother, hmem, hcores, hdict⟩ := ih (State.setSem_sems_wf hs n
      (setBits (s.semCount n) (8 * k + 7) (8 * k) (v % 256) % 2 ^ 32)) (k + 1) (v / 256) (by omega)
      (by simp only [semBase]; omega) (by simp only [semBase]; omega)
    rw [State.semCount_setSem_same hs, count_byte_replaced (by omega)] at hcount
    refine ⟨hcount, fun j hj => (hother j hj).trans (State.semCount_setSem_other _ hj _), ?_, ?_, ?_⟩
    · exact hmem.trans (State.setSem_mem _ _ _)
    · exact hcores.trans (State.setSem_cores _ _ _)
    · exact hdict.trans (State.setSem_dict _ _ _)

/-- Crown may write every semaphore (R259). -/
theorem State.accessCode_crown_sem (s : State) {n : Nat} (hn : n < 65536) :
    s.accessCode .crown (semBase + 8 * n) 8 .write = 0 := by
  have hplace := placeOf_sem hn (k := 0) (by decide)
  have hlast := placeOf_sem hn (k := 7) (by decide)
  have hmode : addrMode (semBase + 8 * n) = 0 := by
    simp only [addrMode, bits, Nat.shiftRight_eq_div_pow, semBase]
    omega
  have hprobes : probes 8 (semBase + 8 * n) 8 = [semBase + 8 * n, semBase + 8 * n + 7] := by
    have hnext : ¬ ((semBase + 8 * n) / 8 + 1) * 8 < semBase + 8 * n + 8 := by simp only [semBase]; omega
    simp [probes, hnext]
  have hcode : s.placeCode .crown (semBase + 8 * n) 8 .write (.sem n) = 0 := by
    simp [State.placeCode, hmode, Place.isSram, leastCode]
  simp only [Nat.add_zero] at hplace
  simp [State.accessCode, hplace, hprobes, hlast, hcode, leastCode]

/-- A semaphore's word is in no bank, so that nothing is woken for it. -/
theorem State.wakeSpan_sem (s : State) {n : Nat} (hn : n < 65536) : s.wakeSpan (semBase + 8 * n) 8 = s := by
  have hplace := placeOf_sem hn (k := 0) (by decide)
  have hlast := placeOf_sem hn (k := 7) (by decide)
  simp only [Nat.add_zero] at hplace
  simp [State.wakeSpan, probes, State.wake, hplace, hlast]

/-- Crown's write of a semaphore's word sets its count alone (R259). -/
theorem execSemaphoreCrownWrite_word {s : State} (hs : swf s.sems zeroD) {n : Nat} (hn : n < 65536) (data : Nat) :
    ∃ t, execSemaphoreCrownWrite (semBase + 8 * n) 8 data s = .next t ∧ t.semCount n = data % 2 ^ 32 ∧
      (∀ m, m ≠ n → t.semCount m = s.semCount m) ∧ t.mem = s.mem ∧ t.cores = s.cores ∧ t.dict = s.dict := by
  have hplace := placeOf_sem hn (k := 0) (by decide)
  have hbase : addrBase (semBase + 8 * n) = semBase + 8 * n := by simp only [addrBase, semBase]; omega
  obtain ⟨hcount, hrest⟩ := State.storeSem_word hs hn 7 0 data (by decide)
  simp only [Nat.add_zero, pow_zero, Nat.mod_one, Nat.zero_add, Nat.one_mul, Nat.reduceAdd] at hplace hcount hrest
  have hkind : writeKind (semBase + 8 * n) = .write := by simp [writeKind, hplace, Place.isSram]
  have hwrite : s.writeAccess .crown (semBase + 8 * n) 8 data = (0, s.storeSem (semBase + 8 * n) data 8) := by
    simp [State.writeAccess, s.accessCode_crown_sem hn, s.wakeSpan_sem hn, hkind, State.store, hplace, hbase]
  generalize s.storeSem (semBase + 8 * n) data 8 = t at hcount hrest hwrite
  exact ⟨t.emit (.memResp .network 0 0 0), by simp only [execSemaphoreCrownWrite, hplace, hwrite], hcount, hrest⟩

/-! ### Two writes of one word -/

/-- A discarded write is counted in Visor alone (R177, R512). -/
theorem State.countWLost_eq (s : State) (b : Nat) (p : Option Nat) :
    s.countWLost b p = { s with visor := (s.countWLost b p).visor } := by
  unfold State.countWLost
  split
  · exact s.visorCount_eq _ _ _ _ _
  · split
    · exact s.visorCount_eq _ _ _ _ _
    · rfl

@[simp] theorem State.wLost_mem (s : State) (r : MemReq) (w : Nat) : (s.wLost r w).mem = s.mem := by
  simp only [State.wLost]
  rw [State.countWLost_eq]
  split <;> simp [State.warn, State.raise]

@[simp] theorem State.wLost_out (s : State) (r : MemReq) (w : Nat) : (s.wLost r w).out = s.out := by
  simp only [State.wLost]
  rw [State.countWLost_eq]
  split <;> simp [State.warn, State.raise]

/-- A sequencer's discarded write is noticed, once (R177). -/
theorem State.wLost_noticed (s : State) {r : MemReq} (h : r.seq = true) (w : Nat) :
    (s.wLost r w).host.journalNew.length = s.host.journalNew.length + 1 := by
  simp only [State.wLost, h, if_true]
  rw [State.countWLost_eq]
  simp [State.warn, State.raise]

/-- Another master's discarded write is counted, not noticed (R177). -/
theorem State.wLost_counted (s : State) {r : MemReq} (h : r.seq = false) (w : Nat) : (s.wLost r w).host = s.host := by
  simp only [State.wLost, h, Bool.false_eq_true, if_false]
  rw [State.countWLost_eq]

/-- Part of request n that writes the aligned word at a. -/
def wordPart (n : Nat) (r : MemReq) (a : Nat) : Part := ⟨n, ⟨.write, r⟩, a, 8, [a / 8]⟩

/-- The word's bytes of its write: all eight. -/
theorem piece_wordPart (n : Nat) {r : MemReq} {a : Nat} (hr : addrBase r.addr = a) (ha : a % 8 = 0) :
    (wordPart n r a).piece (a / 8) = (a, 8, r.data % 256 ^ 8) := by
  have hlo : max a (8 * (a / 8)) = a := by omega
  have hhi : min (a + 8) (8 * (a / 8) + 8) - a = 8 := by omega
  simp only [Part.piece, wordPart, hr, hlo, hhi, Nat.sub_self, pow_zero, Nat.div_one]

open Claims in
/-- Of two writes of one word in one round, the one ahead is stored, and the other is discarded (R170, R173, R176). -/
theorem State.rounds_two_writes {s : State} {r q : MemReq} {a k : Nat} (hr : addrBase r.addr = a) (ha : a % 8 = 0)
    (h : standsBefore s k r.master q.master) :
    s.rounds k 2 0 [wordPart 0 r a, wordPart 1 q a] =
      (((s.wr a 8 (r.data % 256 ^ 8)).wins k (wordPart 0 r a)).wins k (wordPart 1 q a),
        [⟨0, 0, 0, a, 0, none⟩, ⟨1, 0, 1, a, 0, some (a / 8)⟩]) := by
  have horder : s.ordered k [wordPart 0 r a, wordPart 1 q a] = [wordPart 0 r a, wordPart 1 q a] := s.ordered_two k h
  have hpiece := piece_wordPart 0 hr ha
  have hstore : s.storePart (wordPart 0 r a) = s.wr a 8 (r.data % 256 ^ 8) := by
    show [a / 8].foldl _ s = _
    simp only [List.foldl_cons, List.foldl_nil, hpiece]
  have hwhole : (wordPart 0 r a).whole = true := by
    show [a / 8].all _ = true
    simp [hpiece]
  have hgrant : s.grant 0 (wordPart 0 r a) [wordPart 1 q a] = ⟨s.wr a 8 (r.data % 256 ^ 8),
      [⟨0, 0, 0, a, 0, none⟩, ⟨1, 0, 1, a, 0, some (a / 8)⟩], []⟩ := by
    simp only [State.grant, hstore, hwhole]
    simp [wordPart, State.merge, State.storePart]
  simp only [State.rounds, horder, hgrant]
  simp [wordPart]

open Claims in
/-- The large memories with two writes of one word: the round of its sub-bank, and nothing else. -/
theorem State.runLarge_two_writes {s : State} {r q : MemReq} {a b : Nat} (hb : placeOf a = .bank b) (hlarge : b < 352)
    (hr : addrBase r.addr = a) (ha : a % 8 = 0) (h : standsBefore s (4 * b + a / 64 % 4) r.master q.master) :
    ∃ t, s.runLarge [wordPart 0 r a, wordPart 1 q a] =
        (t, [⟨0, 0, 0, a, 0, none⟩, ⟨1, 0, 1, a, 0, some (a / 8)⟩]) ∧
      t.mem = writeMem s.mem a 8 (r.data % 256 ^ 8) ∧ t.out = s.out ∧ t.host = s.host := by
  have hkey : ∀ n p, subKey (wordPart n p a).lo = 4 * b + a / 64 % 4 := fun n p => by simp [wordPart, subKey, hb, hlarge]
  obtain ⟨u, hu⟩ : ∃ u, u = s.wr a 8 (r.data % 256 ^ 8) := ⟨_, rfl⟩
  refine ⟨(u.wins (4 * b + a / 64 % 4) (wordPart 0 r a)).wins (4 * b + a / 64 % 4) (wordPart 1 q a), ?_, ?_, ?_, ?_⟩
  · simp [State.runLarge, hkey, State.rounds_two_writes hr ha h, hu]
  · exact (congrArg State.mem hu).trans (s.wr_mem _ _ _)
  · exact (congrArg State.out hu).trans (s.wr_out _ _ _)
  · exact (congrArg State.host hu).trans (s.wr_host _ _ _)

/-- A write of one word is one part. -/
theorem partsOf_write_word (n : Nat) {r : MemReq} {a : Nat} (hr : addrBase r.addr = a) (ha : a % 8 = 0) (hl : r.len = 8) :
    partsOf n ⟨.write, r⟩ = [wordPart n r a] := by
  subst hr
  exact partsOf_word n ⟨.write, r⟩ ha hl

/-- The cycle of two writes of one word, both admitted, neither waiting: the round, then the responses by requester number
(R170, R578). -/
theorem State.memCycle_two_writes_eq {s : State} {r q : MemReq} {b : Nat} (hr : s.Reaches ⟨.write, r⟩ ⟨.write, r⟩)
    (hq : s.Reaches ⟨.write, q⟩ ⟨.write, q⟩) (hb : placeOf r.addr = .bank b) (hlarge : b < 352)
    (hbase : addrBase r.addr = r.addr) (hword : r.addr % 8 = 0) (hlr : r.len = 8) (haddr : q.addr = r.addr) (hlq : q.len = 8)
    (h : Claims.standsBefore s (4 * b + r.addr / 64 % 4) r.master q.master) :
    ∃ t : State, (s.memCycle [⟨.write, r⟩, ⟨.write, q⟩] =
        if r.core ≤ q.core then
          ((t.emit (.memResp r.master r.core 0 0)).wLost q (r.addr / 8)).emit (.memResp q.master q.core 1 0)
        else ((t.wLost q (r.addr / 8)).emit (.memResp q.master q.core 1 0)).emit (.memResp r.master r.core 0 0)) ∧
      t.mem = writeMem s.mem r.addr 8 (r.data % 256 ^ 8) ∧ t.out = s.out ∧ t.host = s.host := by
  obtain ⟨hir, hsr, hjr, hwr, hor⟩ := hr
  obtain ⟨hiq, hsq, hjq, hwq, hoq⟩ := hq
  obtain ⟨t, hrun, hrest⟩ := State.runLarge_two_writes hb hlarge hbase hword h
  have hpr := partsOf_write_word 0 hbase hword hlr
  have hpq := partsOf_write_word 1 (by rw [haddr, hbase]) hword hlq
  have hsmallr : smallAccess ⟨.write, r⟩ = false := by simp [smallAccess, hb, hlarge]
  have hsmallq : smallAccess ⟨.write, q⟩ = false := by simp [smallAccess, haddr, hb, hlarge]
  have hserve : s.memServe [⟨.write, r⟩, ⟨.write, q⟩] = (t, responseOrder [⟨0, 0, ⟨.write, r⟩, 0, 0, none⟩,
      ⟨1, 0, ⟨.write, q⟩, 1, 0, some (r.addr / 8)⟩]) := by
    simp [State.memServe, hir, hiq, hsr, hsq, hjr, hjq, hwr, hwq, hor, hoq, hsmallr, hsmallq, hpr, hpq, hrun,
      State.runSmall, respond, leastCode, List.range_succ, List.zip]
  refine ⟨t, ?_, hrest⟩
  simp only [State.memCycle, hserve]
  by_cases hcore : r.core ≤ q.core <;> simp [responseOrder, hcore, State.respondTo, State.noteLost]

/-- Two writes of one word, both admitted, neither waiting: the one whose master stands ahead is stored and answered OK, the
other is discarded and answered W_LOST; the responses leave by requester number (R170, R173, R176, R578). -/
theorem State.memCycle_two_writes {s : State} {r q : MemReq} {b : Nat} (hr : s.Reaches ⟨.write, r⟩ ⟨.write, r⟩)
    (hq : s.Reaches ⟨.write, q⟩ ⟨.write, q⟩) (hb : placeOf r.addr = .bank b) (hlarge : b < 352)
    (hbase : addrBase r.addr = r.addr) (hword : r.addr % 8 = 0) (hlr : r.len = 8) (haddr : q.addr = r.addr) (hlq : q.len = 8)
    (h : Claims.standsBefore s (4 * b + r.addr / 64 % 4) r.master q.master) :
    let won : Emission := .memResp r.master r.core 0 0
    let lost : Emission := .memResp q.master q.core 1 0
    let t := s.memCycle [⟨.write, r⟩, ⟨.write, q⟩]
    t.mem = writeMem s.mem r.addr 8 (r.data % 256 ^ 8) ∧
      t.out = s.out ++ (if r.core ≤ q.core then [won, lost] else [lost, won]) ∧
      (q.seq = true → t.host.journalNew.length = s.host.journalNew.length + 1) ∧ (q.seq = false → t.host = s.host) := by
  intro won lost
  obtain ⟨t, ht, hmem, hout, hhost⟩ := State.memCycle_two_writes_eq hr hq hb hlarge hbase hword hlr haddr hlq h
  rw [ht]
  split <;> exact ⟨by simp [hmem], by simp [hout, won, lost], fun hseq => by simp [State.wLost_noticed _ hseq, hhost],
    fun hseq => by simp [State.wLost_counted _ hseq, hhost]⟩

/-! ### Accesses that reach a bank -/

/-- A write of a master that writes, of normal mode, admitted and not waiting, reaches its bank as it is (R166, R168). -/
theorem State.reaches_write {s : State} {r : MemReq} {b : Nat} (hb : placeOf r.addr = .bank b) (hm : addrMode r.addr = 0)
    (hw : s.mustWait r = false) (hf : r.master ≠ .feeders) (hl : r.master ≠ .loader)
    (hc : s.accessCode (Req.of r.who) r.addr r.len .write = 0) : s.Reaches ⟨.write, r⟩ ⟨.write, r⟩ where
  issued := by simp [issuedAccess, hf, hl]
  settled := by simp [settledAccess, writeKind_of_mode_zero hm]
  judged := hc
  awake := hw
  sram := by rw [hb]; rfl

/-- A write is judged as a write, whatever kind its address's mode makes of it (R166, R182). -/
theorem State.judged_write (s : State) (r : MemReq) :
    s.judged (settledAccess ⟨.write, r⟩) = s.accessCode (Req.of r.who) r.addr r.len .write := by
  have hkind : writeKind r.addr ≠ .read := by
    unfold writeKind
    split_ifs <;> simp
  simp [State.judged, settledAccess, hkind]

theorem State.reaches_read {s : State} {r : MemReq} {b : Nat} (hb : placeOf r.addr = .bank b) (hw : s.mustWait r = false)
    (hc : s.accessCode (Req.of r.who) r.addr r.len .read = 0) : s.Reaches ⟨.read, r⟩ ⟨.read, r⟩ where
  issued := by simp [issuedAccess]
  settled := rfl
  judged := hc
  awake := hw
  sram := by rw [hb]; rfl

/-- A request at another address: its other fields stand. -/
def atAddr (r : MemReq) (addr : Nat) : MemReq := { r with addr := addr }

@[simp] theorem atAddr_master (r : MemReq) (addr : Nat) : (atAddr r addr).master = r.master := rfl
@[simp] theorem atAddr_who (r : MemReq) (addr : Nat) : (atAddr r addr).who = r.who := rfl
@[simp] theorem atAddr_core (r : MemReq) (addr : Nat) : (atAddr r addr).core = r.core := rfl
@[simp] theorem atAddr_addr (r : MemReq) (addr : Nat) : (atAddr r addr).addr = addr := rfl
@[simp] theorem atAddr_len (r : MemReq) (addr : Nat) : (atAddr r addr).len = r.len := rfl
@[simp] theorem atAddr_data (r : MemReq) (addr : Nat) : (atAddr r addr).data = r.data := rfl

/-- A SET or CLR counts as one at its mode's address (R166). -/
theorem settledAccess_atomic (set : Bool) (r : MemReq) : settledAccess ⟨atomicKind set, r⟩ =
    ⟨atomicKind set, atAddr r (addrBase r.addr + atomicMode set * 2 ^ 48)⟩ := by
  cases set <;> simp [settledAccess, atomicKind, atomicMode, atAddr]

/-- A SET or CLR of a master that issues such, admitted and not waiting, reaches its bank by its mode's address (R168). -/
theorem State.reaches_atomic {s : State} {r : MemReq} {set : Bool} {addr : Nat}
    (haddr : addr = addrBase r.addr + atomicMode set * 2 ^ 48) (hm : streamMaster r.master = false)
    (hc : s.accessCode (Req.of r.who) addr r.len .write = 0) (hw : s.mustWait (atAddr r addr) = false)
    (ho : (placeOf addr).isSram = true) : s.Reaches ⟨atomicKind set, r⟩ ⟨atomicKind set, atAddr r addr⟩ where
  issued := by cases set <;> simp [issuedAccess, atomicKind, hm]
  settled := by rw [settledAccess_atomic, haddr]
  judged := by cases set <;> simpa [State.judged, atomicKind] using hc
  awake := hw
  sram := ho

/-- SET and CLR alone are one access of their kind (R169). -/
theorem exec_atomic (set : Bool) (r : MemReq) (s : State) :
    exec (if set then .setWrite ⟨r, []⟩ else .clrWrite ⟨r, []⟩) s = .next (s.memCycle [⟨atomicKind set, r⟩]) := by
  cases set <;> rfl

/-- SET or CLR alone at a bank, admitted and not waiting: answered with what the atomic found, its effect the atomic's. -/
theorem exec_atomic_alone {s : State} {r : MemReq} {set : Bool} {addr : Nat} (ha : addrBase r.addr < 2 ^ 48)
    (haddr : addr = addrBase r.addr + atomicMode set * 2 ^ 48) (hm : streamMaster r.master = false)
    (hc : s.accessCode (Req.of r.who) addr r.len .write = 0) (hl : r.len = 8)
    (hw : s.mustWait (atAddr r addr) = false) (ho : (placeOf addr).isSram = true) :
    let x := s.atomicAt (atomicMode set) (addrBase r.addr) r.data
    ∃ t, exec (if set then .setWrite ⟨r, []⟩ else .clrWrite ⟨r, []⟩) s =
        .next (t.emit (.memResp r.master r.core x.code x.data)) ∧
      s.BesideMem t ∧ t.mem = x.s.mem ∧ t.ecc = x.s.ecc := by
  have hlt : atomicMode set < 4 := by cases set <;> decide
  have hbase : addrBase addr = addrBase r.addr := by rw [haddr, addrBase_add_mode ha hlt]
  have hmode : addrMode addr = 1 ∨ addrMode addr = 2 := by
    rw [haddr, addrMode_add_mode ha hlt]
    cases set <;> simp [atomicMode]
  obtain ⟨_, hword⟩ := State.word_of_atomic_admitted hc hmode ho
  have halone := State.memCycle_atomic (State.reaches_atomic haddr hm hc hw ho) rfl hbase (hbase ▸ hword)
    ((atAddr_len r addr).trans hl)
  simp only [atAddr_master, atAddr_core, atAddr_data] at halone
  obtain ⟨t, ht, hrest⟩ := halone
  exact ⟨t, by rw [exec_atomic, ht], hrest⟩

end Sys2Proof.Machine

namespace Sys2Proof.Claims
open Machine

/-- Settles O13: a lone access is what its parts, granted one after another, do (`memCycle_write`, `memCycle_read`,
`memCycle_atomic`); of two writes of one word the round stores the one ahead (`memCycle_two_writes`); Crown's write of a
semaphore's word replaces the count's bytes (`execSemaphoreCrownWrite_word`). -/
theorem memoryAccesses : Obligations.MemoryAccesses := by
  intro s hs
  obtain ⟨hwf, _, _, hsems, _⟩ := hs
  refine ⟨?_, ?_, ?_, ?_, ?_, fun n data hn => execSemaphoreCrownWrite_word hsems hn data⟩
  · intro r b hb hm hl hw hf hld hc
    obtain ⟨t, ht, hst⟩ := State.memCycle_write (State.reaches_write hb hm hw hf hld hc) rfl hl
    dsimp only at ht hst
    refine ⟨_, congrArg Host.Outcome.next ht, fun i hi => ?_, fun a ha => hst.kept hwf a (by omega), ?_, hst.beside.cores,
      hst.beside.sems, hst.beside.dict, hst.beside.host, hst.beside.jobs, fun he => (hst.noEcc he).2⟩
    · refine (hst.stored hwf _ ⟨by omega, by omega⟩).trans ?_
      rw [dataByte, Nat.add_sub_cancel_left]
    · rw [State.emit_out, hst.beside.out]
  · intro r q b hb hlarge hm hword hlr haddr hlq hw hfr hlr' hfq hlq' hcr hcq hbefore won lost
    have hwq : s.mustWait q = false := by rw [← hw, State.mustWait, State.mustWait, haddr, hlq, hlr]
    have hrr := State.reaches_write hb hm hw hfr hlr' (by rw [hlr]; exact hcr)
    have hrq := State.reaches_write (haddr ▸ hb) (haddr ▸ hm) hwq hfq hlq' (by rw [hlq, haddr]; exact hcq)
    obtain ⟨hmem, hout, hnoticed, hcounted⟩ :=
      State.memCycle_two_writes hrr hrq hb hlarge (addrBase_of_mode_zero hm) hword hlr haddr hlq hbefore
    refine ⟨_, rfl, ?_, fun a ha => ?_, hout, hnoticed, hcounted⟩
    · rw [State.rd, hmem, readMem_writeMem_same hwf, Nat.mod_mod]
    · rw [State.byte, hmem, sget_writeMem hwf, if_neg (by omega), State.byte]
  · intro r hc hf hl
    have hcode := s.judged_write r
    have ht := s.memCycle_refused ⟨.write, r⟩ (by simp [issuedAccess, hf, hl]) (by rwa [hcode])
    rw [hcode] at ht
    exact congrArg Host.Outcome.next ht
  · intro r set a addr ha hm hc hl hw ho
    obtain ⟨t, ht, hbeside, hmem, hecc⟩ := exec_atomic_alone (set := set) ha rfl hm hc hl hw ho
    have hout : ∀ e, (t.emit e).out = s.out ++ [e] := fun e => by rw [State.emit_out, hbeside.out]
    refine ⟨fun hp => ?_, fun hp => ?_⟩
    · rw [State.atomicAt_clean hp] at ht hmem
      simp only [State.wr_mem, State.eccRead_mem] at hmem
      refine ⟨_, ht, hout _, fun i hi => ?_, fun x hx => ?_, hbeside.cores, hbeside.sems⟩
      · show (readMem t.mem a 8).testBit i = _
        rw [hmem, readMem_writeMem_same hwf, testBit_atomicWord _ _ _ hi]
      · show sget t.mem memDef x = _
        rw [hmem, sget_writeMem hwf, if_neg (by omega)]
        rfl
    · rw [State.atomicAt_poisoned hp] at ht hmem hecc
      exact ⟨_, ht, hout _, hmem.trans (by simp), hecc.trans (by simp)⟩
  · intro r b hb hl hw hc
    obtain ⟨t, ht, hbeside, hmem⟩ := State.memCycle_read (State.reaches_read hb hw hc) rfl hl
    refine ⟨_, congrArg Host.Outcome.next ht, ?_, hmem, hbeside.cores, hbeside.sems, hbeside.dict, hbeside.host⟩
    rw [State.emit_out, hbeside.out]

end Sys2Proof.Claims
end

section
/-! SUPPORT. The power governor: what each of its operations leaves as it was, and what holds of a core's limit through all of
them (R290, R547). -/

namespace Sys2Proof.Machine

/-! ### What the governor's operations keep -/

/-- The governor goes from s to t: only limits, Visor's counts and what notices touch may change, and what Q says of a core's
limit stays true of it. -/
structure State.Governs (Q : Nat → Prop) (s t : State) : Prop where
  limit : ∀ p < 72, Q (nth s.power.limit p) → Q (nth t.power.limit p)
  freq : t.power.freq = s.power.freq
  dict : t.dict = s.dict
  mem : t.mem = s.mem
  cores : t.cores = s.cores
  sigs : t.sigs = s.sigs
  jobs : t.jobs = s.jobs
  banks : t.banks = s.banks
  fab : t.fab = s.fab
  time : t.time = s.time
  safety : t.safety = s.safety

variable {Q : Nat → Prop}

theorem State.Governs.refl (s : State) : s.Governs Q s :=
  ⟨fun _ _ h => h, rfl, rfl, rfl, rfl, rfl, rfl, rfl, rfl, rfl, rfl⟩

theorem State.Governs.trans {s t u : State} (h : s.Governs Q t) (g : t.Governs Q u) : s.Governs Q u where
  limit p hp hq := g.limit p hp (h.limit p hp hq)
  freq := g.freq.trans h.freq
  dict := g.dict.trans h.dict
  mem := g.mem.trans h.mem
  cores := g.cores.trans h.cores
  sigs := g.sigs.trans h.sigs
  jobs := g.jobs.trans h.jobs
  banks := g.banks.trans h.banks
  fab := g.fab.trans h.fab
  time := g.time.trans h.time
  safety := g.safety.trans h.safety

theorem State.governs_foldl {ι : Type} {f : State → ι → State} (hf : ∀ (t : State) i, t.Governs Q (f t i)) (l : List ι) (s : State) :
    s.Governs Q (l.foldl f s) := by
  induction l generalizing s with
  | nil => exact .refl s
  | cons i l ih => exact (hf s i).trans (ih _)

/-- A core named has its limit changed, any other keeps it. -/
theorem State.relimit_limit (s : State) (l : List Nat) (f : Nat → Nat) {p : Nat} (hp : p < 72) :
    nth (s.relimit l f).power.limit p = if l.contains p then f (nth s.power.limit p) else nth s.power.limit p := by
  simp [State.relimit, nth, List.getD_eq_getElem?_getD, hp]

theorem State.governs_relimit (s : State) (l : List Nat) {f : Nat → Nat} (hf : ∀ x, Q x → Q (f x)) :
    s.Governs Q (s.relimit l f) where
  limit p hp hq := by
    rw [s.relimit_limit l f hp]
    split
    · exact hf _ hq
    · exact hq
  freq := rfl
  dict := rfl
  mem := rfl
  cores := rfl
  sigs := rfl
  jobs := rfl
  banks := rfl
  fab := rfl
  time := rfl
  safety := rfl

/-- A TIMING_BREAK is counted and told, and touches no limit (R290). -/
theorem State.governs_timingBreak (s : State) (k : Nat) : s.Governs Q (s.timingBreak k) := by
  constructor <;> simp [State.timingBreak, State.warn, State.raise, State.countDev]

theorem State.governs_noteBreaks (s old : State) : s.Governs Q (s.noteBreaks old) :=
  State.governs_foldl (fun t k => t.governs_timingBreak k) _ s

/-! ### The stages of GOVERNOR_TICK -/

/-- The ticks of calm so far, this one with them. -/
def State.calmTicks (s : State) (p1 p2 : Nat) (cs : List Nat) : Nat :=
  if s.powerCalm p1 p2 cs then s.power.calm + 1 else 0

/-- The tick recorded: the ticks of calm, and the package power in W. -/
def State.recordTick (s : State) (p1 p2 : Nat) (cs : List Nat) : State :=
  ({ s with power := { s.power with calm := s.calmTicks p1 p2 cs } }).setOd 0x2100 10 (p2 / 1000 % 65536)

/-- The first threshold: above 340 W the cores of partitions 1 to 15 are limited to 800 MHz. -/
def State.cutPackage (s : State) (p1 : Nat) : State :=
  if 340000 < p1 then
    s.relimit ((List.range 72).filter (fun p => match s.coreOwner p with | some k => k != 0 | none => false)) (fun x => min x 800)
  else s

/-- The package's cap and the cantons' caps as they stand in `old`: the widest canton, then each above its cap, lowered. -/
def State.lowerOver (s old : State) (p2 : Nat) (cs : List Nat) : State :=
  ((List.range 8).filter (fun c => old.overCap c (nth cs c) 100)).foldl (fun st c => st.lowerCanton c)
    (if old.od 0x2100 1 * 1000 < p2 then (match s.widest cs with | some c => s.lowerCanton c | none => s) else s)

/-- Every canton raised after n ticks of calm, where n is 1 ms. -/
def State.raiseCalm (s : State) (n : Nat) : State :=
  if 100 ≤ n then (List.range 8).foldl (fun st c => st.raiseCanton c) s else s

/-- GOVERNOR_TICK in full service is its stages one after another (R547). -/
theorem exec_governorTick_full {s : State} (hl : s.power.level = 4 ∨ s.power.level = 5) (hs : s.power.stopped = false)
    (p1 p2 : Nat) (cs : List Nat) :
    let s1 := s.recordTick p1 p2 cs
    exec (.governorTick p1 p2 cs) s =
      .next ((((s1.cutPackage p1).lowerOver s p2 cs).raiseCalm (s.calmTicks p1 p2 cs)).noteBreaks s1) := by
  have hfull : ¬(s.power.level ≠ 4 ∧ s.power.level ≠ 5 ∨ s.power.stopped = true) := by
    rcases hl with h | h <;> simp [h, hs]
  exact congrArg Host.Outcome.next (if_neg hfull)

/-- Above 340 W no core of partitions 1 to 15 keeps more than 800 MHz (R547). -/
theorem State.cutPackage_limit {s : State} {p1 p k : Nat} (h1 : 340000 < p1) (hp : p < 72) (ho : s.coreOwner p = some k)
    (hk : k ≠ 0) : nth (s.cutPackage p1).power.limit p ≤ 800 := by
  rw [State.cutPackage, if_pos h1, s.relimit_limit _ _ hp, if_pos (by simp [hp, ho, hk])]
  exact min_le_right _ _

theorem State.governs_cutPackage (s : State) (p1 : Nat) (hcut : ∀ x, Q x → Q (min x 800)) : s.Governs Q (s.cutPackage p1) := by
  unfold State.cutPackage
  split
  · exact s.governs_relimit _ hcut
  · exact .refl s

theorem State.governs_lowerOver (s old : State) (p2 : Nat) (cs : List Nat) (hlower : ∀ x, Q x → Q (max 800 (x - 100))) :
    s.Governs Q (s.lowerOver old p2 cs) := by
  have hcanton : ∀ (t : State) c, t.Governs Q (t.lowerCanton c) := fun t c => t.governs_relimit _ hlower
  refine State.Governs.trans ?_ (State.governs_foldl hcanton _ _)
  split
  · split
    · exact hcanton s _
    · exact .refl s
  · exact .refl s

theorem State.governs_raiseCalm (s : State) (n : Nat) (hraise : 100 ≤ n → ∀ x, Q x → Q (min 1600 (x + 25))) :
    s.Governs Q (s.raiseCalm n) := by
  unfold State.raiseCalm
  split
  · next hn => exact State.governs_foldl (fun t c => t.governs_relimit _ (hraise hn)) _ s
  · exact .refl s

/-- The stages after the first threshold keep of a limit what lowering keeps, and raising where power was calm for 1 ms. -/
theorem State.governs_afterCut (s old : State) (p2 n : Nat) (cs : List Nat) (hlower : ∀ x, Q x → Q (max 800 (x - 100)))
    (hraise : 100 ≤ n → ∀ x, Q x → Q (min 1600 (x + 25))) (before : State) :
    s.Governs Q (((s.lowerOver old p2 cs).raiseCalm n).noteBreaks before) :=
  ((s.governs_lowerOver old p2 cs hlower).trans (State.governs_raiseCalm _ n hraise)).trans (State.governs_noteBreaks _ before)

/-- A package above 340 W is not calm. -/
theorem State.calmTicks_of_over {p1 : Nat} (h1 : 340000 < p1) (s : State) (p2 : Nat) (cs : List Nat) : s.calmTicks p1 p2 cs = 0 := by
  have hover : ¬100 * p1 ≤ 95 * 340000 := by omega
  simp [State.calmTicks, State.powerCalm, hover]

end Sys2Proof.Machine
end

section
/-! SUPPORT. Core frequencies: FREQUENCY_CHANGE on a core at a boundary and on one in the middle of a tile (R265, R546). -/

namespace Sys2Proof.Machine

/-! ### A core's new frequency -/

theorem State.setFreq_freq (s : State) (p f : Nat) : (s.setFreq p f).power.freq = s.power.freq.set p f := rfl

/-- What a core is needed for no more is not among its needs. -/
theorem Core.notMem_needs_needDone (n : Need) (c : Core) : n ∉ (Core.needDone n c).needs := by
  simp [Core.needDone]

/-- A core that the device needs for n has n among its needs. -/
theorem State.mem_needs_needCore (s : State) (p : CoreId) (n : Need) : n ∈ ((s.needCore p.val n).core p).needs := by
  rw [State.needCore, s.modCoreAt_of_lt p.isLt, State.core_setCore_same]
  split
  · next h => simpa using h
  · simp

/-- In full service a core is to run at the lower of its partition's target and the governor's limit (R546). -/
theorem State.wantFreq_full {s : State} (hl : s.power.level = 4 ∨ s.power.level = 5) (p : Nat) :
    s.wantFreq p = min (s.targetOf p) (nth s.power.limit p) :=
  if_neg (by omega)

/-- FREQUENCY_CHANGE on a core in service whose frequency is to change: done at once without a task or at a boundary, else the
core is needed at its next one (R546). -/
theorem exec_frequencyChange_due {p : CoreId} {s : State} (hs : s.power.stopped = false) (hin : s.inService p.val = true)
    (hf : nth s.power.freq p.val ≠ s.wantFreq p.val) :
    exec (.frequencyChange p) s =
      .next (if (s.core p).job.isNone ∨ (s.core p).stopped then
          (s.setFreq p.val (s.wantFreq p.val)).modCoreAt p.val (Core.needDone .frequency)
        else s.needCore p.val .frequency) := by
  rw [State.needCore, s.modCoreAt_of_lt p.isLt]
  exact congrArg Host.Outcome.next (if_neg (by simp [hs, hin, hf]))

/-- A core stands at a boundary where it stopped or halted there with every TILE.END retired (R263, R265). -/
theorem Core.stopped_iff (c : Core) :
    c.stopped = true ↔ (c.mode = .boundary ∨ c.mode = .halted) ∧ c.tileEnds = [] := by
  simp [Core.stopped]

end Sys2Proof.Machine

namespace Sys2Proof.Claims
open Machine

/-- Above 340 W the cut leaves at most 800 MHz, and what follows it only lowers; a limit within 800 to 1,600 MHz stays there at
every stage. -/
theorem claimGovernorKeepsPackageLimit_holds : claimGovernorKeepsPackageLimit := by
  intro p1 p2 cs s hl hs hd
  let s1 := s.recordTick p1 p2 cs
  let n := s.calmTicks p1 p2 cs
  have hcapped (h1 : 340000 < p1) := (s1.cutPackage p1).governs_afterCut (Q := (· ≤ 800)) s p2 n cs
    (by omega) (by rw [show n = 0 from State.calmTicks_of_over h1 s p2 cs]; omega) s1
  have hrange := (s1.governs_cutPackage (Q := fun x => 800 ≤ x ∧ x ≤ 1600) p1 (by omega)).trans
    ((s1.cutPackage p1).governs_afterCut s p2 n cs (by omega) (by omega) s1)
  refine ⟨_, exec_governorTick_full hl hs p1 p2 cs, fun h1 p k hp ho hk => ?_, fun hr p hp => hrange.limit p hp (hr p hp), ?_,
    hrange.freq, hrange.mem, hrange.cores, hrange.sigs, hrange.jobs, hrange.banks, hrange.fab, hrange.time, hrange.safety⟩
  · exact (hcapped h1).limit p hp (State.cutPackage_limit h1 hp ho hk)
  · rw [State.od, hrange.dict]
    exact State.od_setOd_same hd 0x2100 10 _

/-- A core without a task or at a boundary takes its new frequency at once; one that runs a tile is needed at its boundary. -/
theorem claimFrequencyChangesAtBoundary_holds : claimFrequencyChangesAtBoundary := by
  intro p s hs hin hl hlen f hf
  have hwant : s.wantFreq p.val = f := State.wantFreq_full hl p.val
  have hexec := exec_frequencyChange_due hs hin (hwant ▸ hf)
  rw [hwant] at hexec
  refine ⟨fun hfree => ?_, fun hjob hrun => ?_⟩
  · rw [if_pos (by rwa [Option.isNone_iff_eq_none, Core.stopped_iff])] at hexec
    refine ⟨_, hexec, ?_, fun q hq hne => ?_, ?_, State.modCoreAt_mem .., State.modCoreAt_jobs ..,
      State.modCoreAt_host ..⟩
    · simp [State.setFreq_freq, nth, hlen]
    · simp [State.setFreq_freq, nth, List.getElem?_set_ne hne.symm]
    · rw [State.modCoreAt_of_lt _ p.isLt, State.core_setCore_same]
      exact Core.notMem_needs_needDone _ _
  · rw [if_neg (by simp [Core.stopped_iff, hjob, hrun])] at hexec
    exact ⟨_, hexec, State.modCoreAt_power .., s.mem_needs_needCore p _, State.modCoreAt_mem .., State.modCoreAt_jobs ..,
      State.modCoreAt_host ..⟩

/-- Settles O55: every stage of a governor's tick keeps the limits in range and the cut is undone by none of them
(`State.governs_afterCut`); a change of frequency waits for the boundary (`exec_frequencyChange_due`). -/
theorem governorAndFrequency : Obligations.GovernorAndFrequency :=
  ⟨claimGovernorKeepsPackageLimit_holds, claimFrequencyChangesAtBoundary_holds⟩

end Sys2Proof.Claims
end

section
/-! SUPPORT. Integers stored in an integer format: an exact integer is limited to the format, a quotient is rounded half up
(R33, R37, R41). -/

namespace Sys2Proof.Machine

/-! ### Rounding half up -/

theorem roundDiv_one (n : Int) : roundDiv n 1 = n := by
  unfold roundDiv
  omega

/-- Rounding gives back the numerator exactly where the divisor divides it. -/
theorem roundDiv_mul_eq_iff {d : Nat} (hd : 0 < d) (n : Int) : roundDiv n d * d = n ↔ (d : Int) ∣ n := by
  refine ⟨fun h => ⟨roundDiv n d, by rw [mul_comm, h]⟩, ?_⟩
  rintro ⟨q, rfl⟩
  have hq : roundDiv (d * q) d = q := by
    unfold roundDiv
    rw [show 2 * ((d : Int) * q) + d = d + 2 * d * q by ring, Int.add_mul_ediv_left _ _ (by omega),
      Int.ediv_eq_zero_of_lt (by omega) (by omega), zero_add]
  rw [hq, mul_comm]

/-- A quotient of a number within bounds around 0 rounds to one within them. -/
theorem roundDiv_mem {d : Nat} (hd : 0 < d) {lo hi n : Int} (hlo : lo ≤ n) (hhi : n ≤ hi) (hneg : lo ≤ 0) (hpos : 0 ≤ hi) :
    lo ≤ roundDiv n d ∧ roundDiv n d ≤ hi := by
  unfold roundDiv
  constructor
  · rw [Int.le_ediv_iff_mul_le (by omega)]
    nlinarith
  · rw [← Int.lt_add_one_iff, Int.ediv_lt_iff_lt_mul (by omega)]
    nlinarith

/-! ### Storing -/

/-- The integer x limited to w bits, SAT and INX set where it was limited. -/
def limited (w : Nat) (x : Int) : Stored :=
  ⟨enc w (max (-(2 ^ (w - 1))) (min x (2 ^ (w - 1) - 1))),
    if -(2 ^ (w - 1)) ≤ x ∧ x ≤ 2 ^ (w - 1) - 1 then Flags.clear else Flags.saturated⟩

/-- An integer is stored limited to the format (R37). -/
theorem storeInt_integer (w : Nat) (x : Int) (z : Bool) : storeInt w (.num x 1 z) = limited w x := by
  have hpos : (0 : Int) < 2 ^ (w - 1) := by positivity
  simp only [storeInt, limited, roundDiv_one]
  split
  · next hlow => rw [if_neg (by omega), max_eq_left (by omega)]
  · split
    · next hhigh => rw [if_neg (by omega), min_eq_right (by omega), max_eq_right (by omega)]
    · rw [if_pos (by omega), min_eq_left (by omega), max_eq_right (by omega)]
      simp [Flags.ofInx, Flags.clear]

/-- A quotient of an integer of the format is stored rounded, INX set where the divisor does not divide it (R33, R41). -/
theorem storeInt_quotient (w : Nat) {d : Nat} (hd : 0 < d) {n : Int} (hlo : -(2 ^ (w - 1)) ≤ n) (hhi : n ≤ 2 ^ (w - 1) - 1)
    (z : Bool) : storeInt w (.num n d z) = ⟨enc w (roundDiv n d), Flags.ofInx (decide (¬(d : Int) ∣ n))⟩ := by
  have hpos : (0 : Int) < 2 ^ (w - 1) := by positivity
  obtain ⟨hrlo, hrhi⟩ := roundDiv_mem hd hlo hhi (by omega) (by omega)
  simp only [storeInt]
  rw [if_neg (by omega), if_neg (by omega)]
  simp [roundDiv_mul_eq_iff hd]

/-! ### Operations that give an exact integer -/

/-- The result r is the integer x and sets no INV; the sign that r keeps where x is 0 is left open. -/
def ValI.Exactly (x : Int) (r : ValI) : Prop := ∃ z, r = (.num x 1 z, false)

theorem valAdd_exactly (a b : Int) (y z : Bool) : ValI.Exactly (a + b) (valAdd (.num a 1 y) (.num b 1 z)) :=
  ⟨a == 0 && b == 0 && y && z, by simp [valAdd]⟩

theorem valMul_exactly (a b : Int) : ValI.Exactly (a * b) (valMul (ofInt a) (ofInt b)) := ⟨_, rfl⟩

theorem valFma_exactly (a b c : Int) : ValI.Exactly (a * b + c) (valFma (ofInt a) (ofInt b) (ofInt c)) := by
  obtain ⟨z, hmul⟩ := valMul_exactly a b
  obtain ⟨y, hadd⟩ := valAdd_exactly (a * b) c z false
  refine ⟨y, ?_⟩
  simp only [valFma, hmul]
  simp [ofInt, hadd, Val.sigInv]

theorem valMax_exactly (a b : Int) : ValI.Exactly (max a b) (valMax (ofInt a) (ofInt b)) := by
  refine ⟨false, ?_⟩
  rcases lt_trichotomy a b with h | rfl | h
  · simp [valMax, valEq, valLt, ofInt, Val.isNan, h, h.ne, h.le]
  · simp [valMax, valEq, ofInt, Val.isNan]
  · simp [valMax, valEq, valLt, ofInt, Val.isNan, h.ne', h.not_gt, h.le]

theorem valMin_exactly (a b : Int) : ValI.Exactly (min a b) (valMin (ofInt a) (ofInt b)) := by
  refine ⟨false, ?_⟩
  rcases lt_trichotomy a b with h | rfl | h
  · simp [valMin, valEq, valLt, ofInt, Val.isNan, h, h.ne, h.le]
  · simp [valMin, valEq, ofInt, Val.isNan]
  · simp [valMin, valEq, valLt, ofInt, Val.isNan, h.ne', h.not_gt, h.le]

theorem abs_exactly (a : Int) : ValI.Exactly |a| ((ofInt a).abs, (ofInt a).sigInv) :=
  ⟨false, by simp [ofInt, Val.abs, Val.sigInv]⟩

theorem neg_exactly (a : Int) : ValI.Exactly (-a) ((ofInt a).neg, (ofInt a).sigInv) := ⟨_, rfl⟩

/-- What an operation gives exactly is stored limited to the integer format, without other flags. -/
theorem storeInv_exactly {fmt w : Nat} (hf : encOf fmt = some (.int w)) {x : Int} {r : ValI} (hr : r.Exactly x) :
    storeInv fmt r = limited w x := by
  obtain ⟨z, rfl⟩ := hr
  simp only [storeInv, storeFmt, hf, storeInt_integer]
  simp [Flags.join, Flags.ofInv]

/-! ### The results of the integer formats -/

theorem encOf_integer {w fmt : Nat} (hw : (w, fmt) ∈ [(4, 0), (8, 1), (16, 2)]) : encOf fmt = some (.int w) := by
  simp only [List.mem_cons, Prod.mk.injEq, List.not_mem_nil, or_false] at hw
  rcases hw with ⟨rfl, rfl⟩ | ⟨rfl, rfl⟩ | ⟨rfl, rfl⟩ <;> rfl

/-- A format that stores integers of w bits has elements of w bits (R25, R202). -/
theorem fmtBits_of_encOf {w fmt : Nat} (hf : encOf fmt = some (.int w)) : fmtBits fmt = w := by
  unfold encOf at hf
  split at hf <;> simp_all [fmtBits]

/-- SHR of an integer of the format: divided by 2 to the shift, rounded half up (R144). -/
theorem arithRes_shr {w fmt : Nat} (hf : encOf fmt = some (.int w)) (al imm : Nat) {a : Int} (hlo : -(2 ^ (w - 1)) ≤ a)
    (hhi : a ≤ 2 ^ (w - 1) - 1) (b c : Val) :
    arithRes 0x0B fmt al imm (ofInt a) b c =
      ⟨enc w (roundDiv a (2 ^ (imm % 16))), Flags.ofInx (decide (¬(2 ^ (imm % 16) : Int) ∣ a))⟩ := by
  have hstore : arithRes 0x0B fmt al imm (ofInt a) b c = storeFmt fmt (.num a (1 * 2 ^ (imm % 16)) false) := rfl
  rw [hstore, one_mul]
  simp only [storeFmt, hf, storeInt_quotient w (Nat.two_pow_pos _) hlo hhi]
  norm_cast

end Sys2Proof.Machine

namespace Sys2Proof.Claims
open Machine

/-- Settles O10: eight operations give an exact integer, stored limited (`storeInv_exactly`); SHR stores a quotient
(`arithRes_shr`); AND, OR and XOR act on the bits of the codes. -/
theorem vectorIntegerResults : Obligations.VectorIntegerResults := by
  intro w opf al imm a b c hw lo hi out hloa hhia _ _ _ _ r
  have hf := encOf_integer hw
  have hwidth := fmtBits_of_encOf hf
  have hshr : r 0x0B = _ := arithRes_shr hf al imm hloa hhia (ofInt b) (ofInt c)
  refine ⟨storeInv_exactly hf (valAdd_exactly a b _ _), ?_, storeInv_exactly hf (valMul_exactly a b),
    storeInv_exactly hf (valFma_exactly a b c), storeInv_exactly hf (valMax_exactly a b),
    storeInv_exactly hf (valMin_exactly a b), storeInv_exactly hf (abs_exactly a), storeInv_exactly hf (neg_exactly a),
    ?_, ?_, fun i _ => ⟨?_, ?_, ?_⟩⟩
  · rw [sub_eq_add_neg]
    exact storeInv_exactly hf (valAdd_exactly a (-b) _ _)
  · rw [hshr, roundDiv, pow_succ']
    norm_cast
  · simp [hshr, Flags.ofInx]
  · rw [← hwidth]
    exact Nat.testBit_and ..
  · rw [← hwidth]
    exact Nat.testBit_or ..
  · rw [← hwidth]
    exact Nat.testBit_xor ..

end Sys2Proof.Claims
end

section
/-! SUPPORT. Accumulators: the sum of two within 112 bits and beyond, and the additions of a GADD, which touch no core
(R100, R101, R220). -/

namespace Sys2Proof.Machine

/-! ### Sums of accumulators -/

/-- A sum within the range is exact and sets no flag (R101). -/
theorem accSum_of_mem (sat : Bool) {x : Int} (hlo : accMin ≤ x) (hhi : x ≤ accMax) :
    accSum sat x = ⟨⟨if sat then .sat else .fin, x⟩, Flags.clear⟩ := by
  rw [accSum, if_neg hlo.not_gt, if_neg hhi.not_gt]

theorem accSum_of_lt (sat : Bool) {x : Int} (h : x < accMin) : accSum sat x = ⟨⟨.sat, accMin⟩, Flags.ofSat true⟩ :=
  if_pos h

theorem accSum_of_gt (sat : Bool) {x : Int} (h : accMax < x) : accSum sat x = ⟨⟨.sat, accMax⟩, Flags.ofSat true⟩ := by
  have hlow : ¬ x < accMin := by
    simp only [accMin, accMax] at h ⊢
    omega
  rw [accSum, if_neg hlow, if_pos h]

/-- In states finite and SAT the ACC fields add (R101). -/
theorem accAdd_of_numbers {a b : Acc} (ha : a.st = .fin ∨ a.st = .sat) (hb : b.st = .fin ∨ b.st = .sat) :
    accAdd a b = accSum (a.st == .sat || b.st == .sat) (a.acc + b.acc) := by
  rcases ha with ha | ha <;> rcases hb with hb | hb <;> simp [accAdd, ha, hb]

/-- No rule of the table "State combination" depends on the order of its operands (R100). -/
theorem accAdd_comm (a b : Acc) : accAdd a b = accAdd b a := by
  simp only [accAdd, or_comm, and_comm, Bool.or_comm, Int.add_comm]

/-! ### A GADD touches no core -/

theorem State.besideMem_setBank (s : State) (b : Nat) (x : Bank) : s.BesideMem (s.setBank b x) := by constructor <;> simp

theorem State.besideMem_visorCount (s : State) (i n e : Nat) (p : Option Nat) (k : Nat) :
    s.BesideMem (s.visorCount i n e p k) := by
  rw [s.visorCount_eq]
  exact ⟨rfl, rfl, rfl, rfl, rfl, rfl⟩

theorem State.besideMem_wakeMacro (s : State) (b m : Nat) : s.BesideMem (s.wakeMacro b m) := by
  unfold State.wakeMacro
  refine State.BesideMem.trans ?_ (State.besideMem_eccRead _ _ _)
  split
  · exact (s.besideMem_setBank b _).trans (State.besideMem_visorCount _ _ _ _ _ _)
  · exact s.besideMem_setBank b _

theorem State.besideMem_wake (s : State) (a : Nat) : s.BesideMem (s.wake a) := by
  unfold State.wake
  split
  · simp only []
    split_ifs
    · exact s.besideMem_setBank _ _
    · exact s.besideMem_setBank _ _
    · exact s.besideMem_wakeMacro _ _
    · exact .refl s
  · exact .refl s

theorem State.besideMem_wakeSpan (s : State) (a n : Nat) : s.BesideMem (s.wakeSpan a n) := by
  unfold State.wakeSpan
  split
  · exact .refl s
  · exact List.foldlRecOn _ _ (.refl s) (fun t ht b _ => ht.trans (t.besideMem_wake b))

/-- A read changes check bits' counts and write-backs and wakes banks, nothing else (R185, R190). -/
theorem State.besideMem_readAccess (s : State) (who : Req) (addr n : Nat) : s.BesideMem (s.readAccess who addr n).2.2 := by
  unfold State.readAccess
  simp only []
  split
  · exact .refl s
  · exact (s.besideMem_eccRead _ _).trans (State.besideMem_wakeSpan _ _ _)

@[simp] theorem State.storeSem_cores (s : State) (a v n : Nat) : (s.storeSem a v n).cores = s.cores := by
  induction n generalizing s a v with
  | zero => rfl
  | succ n ih => rw [State.storeSem, ih, State.setSem_cores]

@[simp] theorem State.store_cores (s : State) (addr n v : Nat) : (s.store addr n v).cores = s.cores := by
  unfold State.store
  simp only []
  split
  · exact s.storeSem_cores _ _ _
  · rfl
  · exact s.wr_cores _ _ _

/-- One addition of a GADD reads and stores at its destination and may count an event; a failed one does nothing (R220, R225). -/
theorem State.dmaLocal_gadd_cores (s : State) (x : Dma) (run : Nat) (c : Nat × Nat × Nat) (hop : dmaOp x.desc = 2) :
    (s.dmaLocal x run c).2.cores = s.cores := by
  simp only [State.dmaLocal, hop]
  split_ifs
  · rfl
  · rfl
  · rfl
  · rw [State.countDev, State.visorCount_cores, State.store_cores, (s.besideMem_readAccess _ _ _).cores]
  · rw [State.store_cores, (s.besideMem_readAccess _ _ _).cores]

end Sys2Proof.Machine

namespace Sys2Proof.Claims
open Machine

/-- Settles O6: finite and SAT operands add as `accSum` says, by where their exact sum lies; `accAdd_comm`;
`State.dmaLocal_gadd_cores`. -/
theorem accumulatorSums : Obligations.AccumulatorSums := by
  refine ⟨fun a b ha hb => ?_, accAdd_comm, State.dmaLocal_gadd_cores⟩
  intro x
  rw [accAdd_of_numbers ha hb]
  refine ⟨fun hlo hhi => ?_, accSum_of_lt _, accSum_of_gt _⟩
  rw [accSum_of_mem _ hlo hhi]
  refine ⟨rfl, rfl, ?_⟩
  rcases ha with ha | ha <;> rcases hb with hb | hb <;> simp [ha, hb]

end Sys2Proof.Claims
end

section
/-! SUPPORT. Contributions: the rounding of an exact value within the limits of a contribution (R107, R108), and so the
conversion of a value into a grid word (R118). -/

namespace Sys2Proof.Machine

/-! ### Contributions -/

/-- Within the limits a contribution is the value rounded half up; UNF and INX stand where that is not exact (R107, R108). -/
theorem contribute_of_mem {n : Int} {d : Nat} (hlo : conMin ≤ roundDiv n d) (hhi : roundDiv n d ≤ conMax) :
    contribute n d = ⟨⟨.fin, roundDiv n d⟩, ⟨false, false,
      decide (roundDiv n d * d ≠ n) && decide (n ≠ 0 ∧ roundDiv n d = 0), decide (roundDiv n d * d ≠ n)⟩⟩ := by
  simp only [contribute]
  rw [if_neg hlo.not_gt, if_neg hhi.not_gt]

theorem contribute_of_lt {n : Int} {d : Nat} (h : roundDiv n d < conMin) :
    contribute n d = ⟨⟨.sat, conMin⟩, Flags.ofSat true⟩ :=
  if_pos h

theorem contribute_of_gt {n : Int} {d : Nat} (h : conMax < roundDiv n d) :
    contribute n d = ⟨⟨.sat, conMax⟩, Flags.ofSat true⟩ := by
  have hlow : ¬ roundDiv n d < conMin := by
    simp only [conMin, conMax] at h ⊢
    omega
  simp only [contribute]
  rw [if_neg hlow, if_pos h]

/-- A whole number within the limits contributes itself, without a flag. -/
theorem contribute_whole {n : Int} (hlo : conMin ≤ n) (hhi : n ≤ conMax) : contribute n 1 = ⟨⟨.fin, n⟩, Flags.clear⟩ := by
  rw [contribute_of_mem (by rwa [roundDiv_one]) (by rwa [roundDiv_one])]
  simp [roundDiv_one, Flags.clear]

/-! ### Rounding as rational numbers -/

/-- `pow2` is the power of two as a fraction of positive integers. -/
theorem pow2_spec (e : Int) : 0 < (pow2 e).1 ∧ 0 < (pow2 e).2 ∧ ((pow2 e).1 : ℚ) / ((pow2 e).2 : ℚ) = 2 ^ e := by
  unfold pow2
  split
  · next h =>
    obtain ⟨k, rfl⟩ := Int.eq_ofNat_of_zero_le h
    simp
  · next h =>
    obtain ⟨k, hk⟩ := Int.eq_ofNat_of_zero_le (show 0 ≤ -e by omega)
    obtain rfl : e = -k := by omega
    simp

/-- `roundDiv` is the floor of the quotient and a half. -/
theorem roundDiv_eq_floor (n : Int) {d : Nat} (hd : 0 < d) : roundDiv n d = ⌊(n : ℚ) / (d : ℚ) + 1 / 2⌋ := by
  have hq : (n : ℚ) / d + 1 / 2 = ((2 * n + d : Int) : ℚ) / ((2 * d : Nat) : ℚ) := by
    push_cast
    field_simp
  rw [hq, Rat.floor_intCast_div_natCast, roundDiv]
  push_cast
  rfl

/-- A quotient rounds to itself exactly where it is whole. -/
theorem roundDiv_cast_eq_iff (n : Int) {d : Nat} (hd : 0 < d) :
    (roundDiv n d : ℚ) = (n : ℚ) / (d : ℚ) ↔ roundDiv n d * d = n := by
  rw [eq_div_iff (by positivity)]
  norm_cast

/-- UNF of a contribution: a value that is not 0 became 0, which is never exact (R108). -/
theorem contribute_unf_iff (n : Int) (d : Nat) :
    (decide (roundDiv n d * d ≠ n) && decide (n ≠ 0 ∧ roundDiv n d = 0)) = true ↔ n ≠ 0 ∧ roundDiv n d = 0 := by
  simp only [Bool.and_eq_true, decide_eq_true_eq, and_iff_right_iff_imp]
  rintro ⟨hn, hzero⟩
  rw [hzero, zero_mul]
  exact hn.symm

end Sys2Proof.Machine

namespace Sys2Proof.Claims
open Machine

/-- Settles O7: the value converted is the contribution of the quotient scaled by `pow2`, whose `roundDiv` is the floor
that R118 names (`roundDiv_eq_floor`). -/
theorem gridConversionRounds : Obligations.GridConversionRounds := by
  intro n d z g hd y c r
  obtain ⟨hnum, hden, hpow⟩ := pow2_spec (40 - g)
  have hpos : 0 < d * (pow2 (40 - g)).2 := Nat.mul_pos hd hden
  have hy : y = ((n * (pow2 (40 - g)).1 : Int) : ℚ) / ((d * (pow2 (40 - g)).2 : Nat) : ℚ) := by
    push_cast
    rw [← div_mul_div_comm, hpow]
  have hc : c = roundDiv (n * (pow2 (40 - g)).1) (d * (pow2 (40 - g)).2) := by
    rw [roundDiv_eq_floor _ hpos, ← hy]
  have hr : r = contribute (n * (pow2 (40 - g)).1) (d * (pow2 (40 - g)).2) := rfl
  rw [hr, hc]
  refine ⟨contribute_of_lt, contribute_of_gt, fun hlo hhi => ?_, fun _ => rfl, rfl, rfl⟩
  rw [contribute_of_mem hlo hhi]
  refine ⟨rfl, rfl, rfl, ?_, ?_⟩
  · rw [decide_eq_true_eq, hy, Ne, Ne, roundDiv_cast_eq_iff _ hpos]
  · rw [contribute_unf_iff, mul_ne_zero_iff_right hnum.ne']

end Sys2Proof.Claims
end

section
/-! SUPPORT. The terms of a row pass landing in an accumulator: their exact sum, and the residues that are checked on the way
(R105, R110, R126). -/

namespace Sys2Proof.Machine

/-! ### Residues modulo 7 -/

theorem res7_cast (v : Int) : (res7 v : Int) = v % 7 := Int.toNat_of_nonneg (Int.emod_nonneg v (by decide))

/-- Integers congruent modulo 7 have one residue. -/
theorem res7_congr {u v : Int} (h : u ≡ v [ZMOD 7]) : res7 u = res7 v := congrArg Int.toNat h

theorem res7_modEq (v : Int) : (res7 v : Int) ≡ v [ZMOD 7] := by
  rw [res7_cast]
  exact Int.mod_modEq v 7

theorem res7_add (u v : Int) : (res7 u + res7 v) % 7 = res7 (u + v) := by
  have hu := res7_cast u
  have hv := res7_cast v
  have huv := res7_cast (u + v)
  omega

theorem res7_mul_left (u m : Int) : res7 ((res7 u : Int) * m) = res7 (u * m) := res7_congr ((res7_modEq u).mul_right m)

theorem res7_mul_right (u m : Int) : res7 (u * (res7 m : Int)) = res7 (u * m) := res7_congr ((res7_modEq m).mul_left u)

/-- Powers of two repeat modulo 7 with period 3. -/
theorem two_pow_modEq (k : Nat) : (2 : Int) ^ k ≡ 2 ^ (k % 3) [ZMOD 7] :=
  calc (2 : Int) ^ k = (2 ^ 3) ^ (k / 3) * 2 ^ (k % 3) := by rw [← pow_mul, ← pow_add, Nat.div_add_mod]
    _ ≡ 1 ^ (k / 3) * 2 ^ (k % 3) [ZMOD 7] := (Int.ModEq.pow _ (by decide)).mul_right _
    _ = 2 ^ (k % 3) := by rw [one_pow, one_mul]

/-- An exact shift to the left passes its check (R126, stage 10). -/
theorem shiftChecked_exact (q : Int) {sigma : Int} (h : 0 ≤ sigma) : shiftChecked q (q * 2 ^ sigma.toNat) sigma = true := by
  have hexp : (sigma % 3).toNat = sigma.toNat % 3 := by omega
  rw [shiftChecked, if_pos h, beq_iff_eq, hexp, res7_mul_left]
  exact res7_congr ((two_pow_modEq _).mul_left q)

/-! ### Terms that land exactly -/

/-- What a term adds under grid exponent G where its shift drops nothing (R105). -/
def Term.value (g : Int) (t : Term) : Int := t.sum * t.mu * 2 ^ (t.x + 40 - g).toNat

/-- A term is finite, whole under G and within the limits of a contribution. -/
def Term.Exact (g : Int) (t : Term) : Prop :=
  t.sp = .fin ∧ 0 ≤ t.x + 40 - g ∧ -(2 ^ 88) ≤ t.value g ∧ t.value g ≤ 2 ^ 88 - 1

theorem Term.Exact.contribution {g : Int} {t : Term} (h : t.Exact g) :
    unitContribution (t.sum * t.mu) t.x g = ⟨⟨.fin, t.value g⟩, Flags.clear⟩ := by
  obtain ⟨-, hshift, hlo, hhi⟩ := h
  have hpow : pow2 (t.x + 40 - g) = (2 ^ (t.x + 40 - g).toNat, 1) := if_pos hshift
  simp only [unitContribution, hpow]
  exact contribute_whole hlo hhi

theorem Flags.join_clear (f : Flags) : f.join Flags.clear = f := by simp [Flags.join, Flags.clear]

/-- Without a bit error an exact term adds its value to a finite accumulator that can hold the sum and sets no flag; where
the residues are right, every check passes and the running residue stays right (R101, R105, R126). -/
theorem landTerm_exact {g a : Int} {t : Term} (h : t.Exact g) {l : Landed} (hl : l.acc = ⟨.fin, a⟩)
    (hlo : accMin ≤ a + t.value g) (hhi : a + t.value g ≤ accMax) :
    (landTerm g 0 0 0 0 l t).acc = ⟨.fin, a + t.value g⟩ ∧ (landTerm g 0 0 0 0 l t).fl = l.fl ∧
    (l.res = res7 a → t.res = res7 t.sum →
      (landTerm g 0 0 0 0 l t).res = res7 (a + t.value g) ∧ (landTerm g 0 0 0 0 l t).bad = l.bad) := by
  have hadd : accAdd ⟨.fin, a⟩ ⟨.fin, t.value g⟩ = ⟨⟨.fin, a + t.value g⟩, Flags.clear⟩ := by
    rw [accAdd_of_numbers (.inl rfl) (.inl rfl)]
    exact accSum_of_mem _ hlo hhi
  have ⟨hfin, hwhole, _, _⟩ := h
  have hshift : shiftChecked (t.sum * t.mu) (t.value g) (t.x + 40 - g) = true := shiftChecked_exact _ hwhole
  have hclear : Flags.clear.sat = false := rfl
  simp only [landTerm, if_pos hfin, add_zero, h.contribution, hl, hadd, Flags.join_clear, true_and]
  intro hres hterm
  simp [hclear, hres, hterm, hshift, res7_mul_left, res7_mul_right, res7_add]

/-- Exact terms add their exact sum, one after another, to an accumulator far enough from its bounds. -/
theorem foldl_landTerm_exact {g : Int} (ts : List Term) (hts : ∀ t ∈ ts, t.Exact g) {a : Int} {l : Landed}
    (hl : l.acc = ⟨.fin, a⟩) (hlo : accMin ≤ a - ts.length * 2 ^ 88) (hhi : a + ts.length * 2 ^ 88 ≤ accMax) :
    let r := ts.foldl (landTerm g 0 0 0 0) l
    r.acc = ⟨.fin, a + (ts.map (Term.value g)).sum⟩ ∧ r.fl = l.fl ∧
    (l.res = res7 a → (∀ t ∈ ts, t.res = res7 t.sum) → r.res = res7 r.acc.acc ∧ r.bad = l.bad) := by
  induction ts generalizing a l with
  | nil => simp [hl]
  | cons t ts ih =>
    obtain ⟨ht, hts⟩ := List.forall_mem_cons.1 hts
    have ⟨_, _, hvlo, hvhi⟩ := ht
    simp only [List.length_cons, Nat.cast_add, Nat.cast_one] at hlo hhi
    obtain ⟨hacc, hfl, hchecks⟩ := landTerm_exact ht hl (by omega) (by omega)
    obtain ⟨hacc', hfl', hchecks'⟩ := ih hts hacc (by omega) (by omega)
    rw [List.foldl_cons, List.map_cons, List.sum_cons, ← add_assoc]
    refine ⟨hacc', hfl'.trans hfl, fun hres hterms => ?_⟩
    obtain ⟨hterm, hterms⟩ := List.forall_mem_cons.1 hterms
    obtain ⟨hr, hb⟩ := hchecks hres hterm
    obtain ⟨hr', hb'⟩ := hchecks' hr hterms
    exact ⟨hr', hb'.trans hb⟩

/-- Without bit errors no term depends on its place in the row pass. -/
theorem landColumn_noErrors (j : Nat) (g : Int) (a : Acc) (res : Nat) (ts : List Term) :
    landColumn [] j g a res ts = ts.foldl (landTerm g 0 0 0 0) ⟨a, res, Flags.clear, []⟩ := by
  have herr : ∀ stage u, errorAt [] stage j u = 0 := fun _ _ => rfl
  simp only [landColumn, herr]
  rw [← List.foldl_map (f := Prod.fst) (g := landTerm g 0 0 0 0), List.zipIdx_map_fst]

/-- Exact terms of one row pass land exactly (R110): 2^21 of them keep an accumulator within 2^110 inside its range. -/
theorem landColumn_exact (j : Nat) {g a : Int} (r : Nat) {ts : List Term} (hts : ∀ t ∈ ts, t.Exact g)
    (hlen : ts.length ≤ 2 ^ 21) (hlo : -(2 ^ 110) ≤ a) (hhi : a ≤ 2 ^ 110) :
    let l := landColumn [] j g ⟨.fin, a⟩ r ts
    l.acc = ⟨.fin, a + (ts.map (Term.value g)).sum⟩ ∧ l.fl = Flags.clear ∧
    (r = res7 a → (∀ t ∈ ts, t.res = res7 t.sum) → l.res = res7 l.acc.acc ∧ l.bad = []) := by
  have hlen' : (ts.length : Int) ≤ 2 ^ 21 := by exact_mod_cast hlen
  rw [landColumn_noErrors]
  exact foldl_landTerm_exact ts hts rfl (by simp only [accMin]; omega) (by simp only [accMax]; omega)

end Sys2Proof.Machine

namespace Sys2Proof.Claims
open Machine

/-- Settles O8: `landColumn_exact`, for the terms and for any reordering of them, whose sum is the same. -/
theorem contributionsLandExactly : Obligations.ContributionsLandExactly := by
  intro j g a r ts us v hts hlen hlo hhi l k
  obtain ⟨hacc, hfl, hchecks⟩ := landColumn_exact j r hts hlen hlo hhi
  refine ⟨hacc, hfl, fun hperm => ?_, hchecks⟩
  obtain ⟨hacc', hfl', -⟩ :=
    landColumn_exact j r (fun t ht => hts t (hperm.mem_iff.1 ht)) (hperm.length_eq.trans_le hlen) hlo hhi
  have hsum : (us.map (Term.value g)).sum = (ts.map (Term.value g)).sum := (hperm.map _).sum_eq
  exact ⟨(hacc'.trans (by rw [hsum])).trans hacc.symm, hfl'.trans hfl.symm⟩

end Sys2Proof.Claims
end

section
/-! SUPPORT. Comparisons of the vector engine: exact values compared across their denominators are compared as rational
numbers; a NaN gives 0, and 1 for CMPNE (R145). -/

namespace Sys2Proof.Machine

theorem Val.sigInv_iff (v : Val) : v.sigInv = true ↔ v = .nan true := by
  cases v <;> simp [Val.sigInv]

theorem valEq_num_iff (n m : Int) {d e : Nat} (y z : Bool) (hd : 0 < d) (he : 0 < e) :
    valEq (.num n d y) (.num m e z) = true ↔ (n : ℚ) / d = m / e := by
  rw [div_eq_div_iff (by positivity) (by positivity), valEq, decide_eq_true_eq]
  norm_cast

theorem valLt_num_iff (n m : Int) {d e : Nat} (y z : Bool) (hd : 0 < d) (he : 0 < e) :
    valLt (.num n d y) (.num m e z) = true ↔ (n : ℚ) / d < m / e := by
  rw [div_lt_div_iff₀ (by positivity) (by positivity), valLt, decide_eq_true_eq]
  norm_cast

/-- A comparison in which a NaN takes part does not look at the order. -/
theorem cmpRes_of_nan (i : Nat) {a b : Val} (h : a.isNan = true ∨ b.isNan = true) :
    cmpRes i a b = (i == 0x11, a.sigInv || b.sigInv) :=
  if_pos (by simpa using h)

end Sys2Proof.Machine

namespace Sys2Proof.Claims
open Machine

/-- Settles O11: on numbers each comparison is made of `valLt` and `valEq`, which are the order of the rationals and do not
look at the sign of a zero; `cmpRes_of_nan` for the rest. -/
theorem comparisonsOrderValues : Obligations.ComparisonsOrderValues := by
  constructor
  · intro n m d e y z hd he a b x w
    have heq : valEq a b = true ↔ x = w := valEq_num_iff n m y z hd he
    have hlt : valLt a b = true ↔ x < w := valLt_num_iff n m y z hd he
    have hgt : valLt b a = true ↔ w < x := valLt_num_iff m n z y he hd
    refine ⟨fun _ _ => rfl, heq, ?_, hlt, ?_, hgt, ?_⟩
    · calc (!valEq a b) = true ↔ ¬ valEq a b = true := by rw [Bool.not_eq_true', Bool.not_eq_true]
        _ ↔ x ≠ w := not_congr heq
    · calc (valLt a b || valEq a b) = true ↔ x < w ∨ x = w := by rw [Bool.or_eq_true, hlt, heq]
        _ ↔ x ≤ w := le_iff_lt_or_eq.symm
    · calc (valLt b a || valEq a b) = true ↔ w < x ∨ w = x := by rw [Bool.or_eq_true, hgt, heq, eq_comm (a := x)]
        _ ↔ w ≤ x := le_iff_lt_or_eq.symm
  · intro i a b hnan
    rw [cmpRes_of_nan i hnan]
    simp [Val.sigInv_iff]

end Sys2Proof.Claims
end

section
/-! SUPPORT. Decoding a core's next command, and the least code of the faults that apply to it (R91, R184, R212, R238). -/

namespace Sys2Proof.Machine

/-! ### Units -/

@[simp] theorem State.setCore_core (s : State) (p : CoreId) : s.setCore p (s.core p) = s := by
  simp [State.setCore, State.core]

@[simp] theorem State.setCore_setCore (s : State) (p : CoreId) (c d : Core) : (s.setCore p c).setCore p d = s.setCore p d := by
  simp [State.setCore]

theorem State.core_congr {s t : State} (h : t.cores = s.cores) (p : CoreId) : t.core p = s.core p := by
  simp only [State.core, h]

theorem State.coreAt_val (s : State) (p : CoreId) : s.coreAt p.val = s.core p := s.coreAt_of_lt p.isLt

theorem State.modCoreAt_val (s : State) (p : CoreId) (f : Core → Core) : s.modCoreAt p.val f = s.setCore p (f (s.core p)) :=
  s.modCoreAt_of_lt p.isLt f

/-! ### The least code -/

/-- A cause that applies and below which no other applies gives the least code (R91). -/
theorem leastCode_eq_of_least {l : List (Bool × Nat)} {k : Nat} (hk : 0 < k) (hmem : (true, k) ∈ l)
    (hleast : ∀ e ∈ l, e.1 = true → k ≤ e.2) : leastCode l = k := by
  have hfold : ∀ (l : List (Bool × Nat)) (m : Nat), (∀ e ∈ l, k ≤ e.2) →
      (m = k ∨ (m = 0 ∨ k ≤ m) ∧ (true, k) ∈ l) → l.foldl (fun m e => if m = 0 then e.2 else min m e.2) m = k := by
    intro l
    induction l with
    | nil => simp
    | cons e l ih =>
      intro m hl hm
      have he := hl e List.mem_cons_self
      refine ih _ (fun e' he' => hl e' (List.mem_cons_of_mem _ he')) ?_
      rcases hm with rfl | ⟨hm, hin⟩
      · simp only [if_neg hk.ne', min_eq_left he, true_or]
      · rcases List.mem_cons.1 hin with rfl | hin
        · left
          rcases hm with rfl | hm
          · rfl
          · simp only [if_neg (hk.trans_le hm).ne', min_eq_right hm]
        · refine .inr ⟨?_, hin⟩
          simp only []
          split_ifs <;> omega
  refine hfold _ 0 (fun e he => ?_) (.inr ⟨.inl rfl, List.mem_filter.2 ⟨hmem, rfl⟩⟩)
  obtain ⟨he, htrue⟩ := List.mem_filter.1 he
  exact hleast e he htrue

/-- A cause that does not apply has no part in the least code. -/
@[simp] theorem leastCode_cons_false (k : Nat) (l : List (Bool × Nat)) : leastCode ((false, k) :: l) = leastCode l := rfl

/-- Behind causes that do not apply, the least code is at least that of every other. -/
theorem least_of_append {pre rest : List (Bool × Nat)} {k : Nat} (hpre : ∀ e ∈ pre, e.1 = false)
    (hrest : ∀ e ∈ rest, k ≤ e.2) : ∀ e ∈ pre ++ rest, e.1 = true → k ≤ e.2 := by
  intro e he htrue
  rcases List.mem_append.1 he with he | he
  · exact absurd ((hpre e he).symm.trans htrue) Bool.false_ne_true
  · exact hrest e he

theorem orFault_of_none {causes : List (Bool × Nat)} (h : leastCode causes = 0) (k : DecR) : orFault causes k = k := if_pos h

theorem orFault_of_least {causes : List (Bool × Nat)} {code : Nat} (hpos : 0 < code) (hmem : (true, code) ∈ causes)
    (hleast : ∀ e ∈ causes, e.1 = true → code ≤ e.2) (k : DecR) : orFault causes k = .fault code 0 := by
  rw [orFault, leastCode_eq_of_least hpos hmem hleast, if_neg hpos.ne']

/-! ### Reads by the sequencer -/

/-- A core's own banks answer OK, POISON or BANK_OFF (R184). -/
theorem State.ownCode_cases (s : State) (read : Bool) (l : List (Nat × Nat)) :
    (s.ownCode read l).1 = 0 ∨ (s.ownCode read l).1 = 6 ∨ (s.ownCode read l).1 = 7 := by
  unfold State.ownCode
  split
  · exact .inl rfl
  · refine List.foldlRecOn (motive := fun m : Nat × Nat => m.1 = 0 ∨ m.1 = 6 ∨ m.1 = 7) _ _ (.inl rfl) (fun m hm e _ => ?_)
    simp only []
    split_ifs <;> simp_all

theorem State.seqRead_of_ok {s : State} {l : List (Nat × Nat)} (h : (s.ownCode true l).1 = 0) (pre : List (Bool × Nat))
    (k : State → DecR) : s.seqRead l pre k = k (s.readAll l) := if_pos h

/-- A cause below the codes of a failed read is the fault, whether the read fails or not (R91, R184). -/
theorem State.seqRead_of_least {s : State} {l : List (Nat × Nat)} {pre : List (Bool × Nat)} {k : State → DecR} {code : Nat}
    (hpos : 0 < code) (hlt : code < 0x43) (hmem : (true, code) ∈ pre) (hleast : ∀ e ∈ pre, e.1 = true → code ≤ e.2)
    (hk : k (s.readAll l) = .fault code 0) : s.seqRead l pre k = .fault code 0 := by
  by_cases hok : (s.ownCode true l).1 = 0
  · rw [State.seqRead_of_ok hok, hk]
  · have hread : 0x43 ≤ memFault (s.ownCode true l).1 := by
      rcases s.ownCode_cases true l with h | h | h
      · exact absurd h hok
      · simp [h, memFault]
      · simp [h, memFault]
    have hcode : leastCode ((true, memFault (s.ownCode true l).1) :: pre) = code := by
      refine leastCode_eq_of_least hpos (List.mem_cons_of_mem _ hmem) (fun e he htrue => ?_)
      rcases List.mem_cons.1 he with rfl | he
      · exact (hlt.trans_le hread).le
      · exact hleast e he htrue
    simp only [State.seqRead, if_neg hok, hcode]
    rw [if_neg (by omega)]

/-! ### Decoding -/

open Claims in
theorem State.decodeCmd_of_ok {s t : State} {p : CoreId} {op cmd : Nat} {k : State → Nat → DecR} (h : atHead s p op cmd)
    (hk : k (past s p) cmd = .ok t) : s.decodeCmd p op k = t := by
  obtain ⟨hnext, hop⟩ := h
  simp only [past] at hk
  simp only [State.decodeCmd, hnext, hop, if_true, hk]

open Claims in
theorem State.decodeCmd_of_fault {s : State} {p : CoreId} {op cmd code detail : Nat} {k : State → Nat → DecR}
    (h : atHead s p op cmd) (hk : k (past s p) cmd = .fault code detail) :
    s.decodeCmd p op k = s.fault p.val code detail cmd (s.core p).pos := by
  obtain ⟨hnext, hop⟩ := h
  simp only [past] at hk
  simp only [State.decodeCmd, hnext, hop, if_true, hk]

open Claims in
/-- Only the command at the head is decoded: what two decoders make of it is the same where they agree on it. -/
theorem State.decodeCmd_congr {s : State} {p : CoreId} {op cmd : Nat} {k l : State → Nat → DecR} (h : atHead s p op cmd)
    (hk : k (past s p) cmd = l (past s p) cmd) : s.decodeCmd p op k = s.decodeCmd p op l := by
  obtain ⟨hnext, -⟩ := h
  simp only [past] at hk
  simp only [State.decodeCmd, hnext, hk]

end Sys2Proof.Machine
end

section
/-! SUPPORT. The VECTOR queue: what a core's reads and stores leave of it, and the queues of a core run where they hold one
command that has just been decoded (R239, R240, R256, R257). -/

namespace Sys2Proof.Machine

/-! ### What reads and stores leave as it was -/

@[simp] theorem State.wakeMacro_mem (s : State) (b m : Nat) : (s.wakeMacro b m).mem = s.mem := by
  unfold State.wakeMacro
  rw [State.eccRead_mem]
  split
  · simp [State.countCore]
  · rfl

@[simp] theorem State.wake_mem (s : State) (a : Nat) : (s.wake a).mem = s.mem := by
  unfold State.wake
  split
  · simp only []
    split_ifs <;> simp
  · rfl

@[simp] theorem State.wakeSpan_mem (s : State) (a n : Nat) : (s.wakeSpan a n).mem = s.mem := by
  unfold State.wakeSpan
  split
  · rfl
  · exact List.foldlRecOn (motive := fun t : State => t.mem = s.mem) _ _ rfl (fun t ht b _ => (t.wake_mem b).trans ht)

@[simp] theorem State.readAll_mem (s : State) (l : List (Nat × Nat)) : (s.readAll l).mem = s.mem :=
  List.foldlRecOn (motive := fun t : State => t.mem = s.mem) l _
    (List.foldlRecOn (motive := fun t : State => t.mem = s.mem) l _ rfl (fun t ht e _ => (t.eccRead_mem e.1 e.2).trans ht))
    (fun t ht e _ => (t.wakeSpan_mem e.1 e.2).trans ht)

theorem State.besideMem_readAll (s : State) (l : List (Nat × Nat)) : s.BesideMem (s.readAll l) :=
  List.foldlRecOn l _
    (List.foldlRecOn l _ (.refl s) (fun t ht e _ => ht.trans (t.besideMem_eccRead e.1 e.2)))
    (fun t ht e _ => ht.trans (t.besideMem_wakeSpan e.1 e.2))

@[simp] theorem State.readAll_core (s : State) (l : List (Nat × Nat)) (p : CoreId) : (s.readAll l).core p = s.core p :=
  State.core_congr (s.besideMem_readAll l).cores p

@[simp] theorem State.wakeSpan_core (s : State) (a n : Nat) (p : CoreId) : (s.wakeSpan a n).core p = s.core p :=
  State.core_congr (s.besideMem_wakeSpan a n).cores p

/-- A part of a frame goes to the radio cells alone (R381). -/
@[simp] theorem State.storeFrame_core (s : State) (q v : Nat) (nz : Bool) (p : CoreId) :
    (s.storeFrame q v nz).core p = s.core p := by
  unfold State.storeFrame
  split
  · rfl
  · split_ifs <;> rfl

/-- A core's write into its scratchpad changes no queue of it (R517, R522). -/
@[simp] theorem State.wrOwn_qVector (s : State) (p : CoreId) (off n v : Nat) :
    ((s.wrOwn p.val off n v).core p).qVector = (s.core p).qVector := by
  have hwr : (s.wr (spBase p.val + off) n v).core p = s.core p := State.core_congr (s.wr_cores _ _ _) p
  unfold State.wrOwn
  split
  · rw [State.modCoreAt_val, State.core_setCore_same, hwr]
  · rw [hwr]

/-! ### Queues that run -/

theorem State.headStep_of_empty {s : State} {p : CoreId} {eng : Nat} (h : (s.core p).queue eng = []) :
    s.headStep p eng = none := by
  simp [State.headStep, h]

theorem State.pumpQueue_of_empty {s : State} {p : CoreId} {eng : Nat} (h : (s.core p).queue eng = []) (n : Nat) :
    s.pumpQueue p eng n = s := by
  cases n with
  | zero => rfl
  | succ n => rw [State.pumpQueue, State.headStep_of_empty h]

open Claims in
/-- The only command in a core's queues, at the head of VECTOR, acts once and is gone (R240). -/
theorem State.pump_of_alone {s t : State} {p : CoreId} {c : Core} {e : QEntry} (hc : queuesEmpty c)
    (hstep : (s.setCore p (c.push 4 e)).headStep p 4 = some t) (hgone : (t.core p).qVector = []) :
    (s.setCore p (c.push 4 e)).pump p = t := by
  obtain ⟨hloader, harray, hdrain, -⟩ := hc
  have hothers : ∀ eng ∈ [1, 2, 3], ((s.setCore p (c.push 4 e)).core p).queue eng = [] := by
    simp [Core.push, Core.setQueue, Core.queue, hloader, harray, hdrain]
  simp only [State.pump]
  rw [State.pumpQueue_of_empty (hothers 1 (by simp)), State.pumpQueue_of_empty (hothers 2 (by simp)),
    State.pumpQueue_of_empty (hothers 3 (by simp)), State.pumpQueue, hstep]
  exact State.pumpQueue_of_empty (eng := 4) hgone 15

theorem State.popHead_push (s : State) (p : CoreId) {c : Core} (h : c.qVector = []) (e : QEntry) :
    (s.setCore p (c.push 4 e)).popHead p 4 = s.setCore p c := by
  rw [State.popHead, State.core_setCore_same, State.setCore_setCore]
  cases c
  simp_all [Core.push, Core.setQueue, Core.queue]

theorem State.queue_push (s : State) (p : CoreId) {c : Core} (h : c.qVector = []) (e : QEntry) :
    ((s.setCore p (c.push 4 e)).core p).queue 4 = [⟨c.ord, e⟩] := by
  simp [Core.push, Core.setQueue, Core.queue, h]

open Claims in
/-- A FOLD alone in the queues of a core adds the digest of its tensor to its slot (R256, R281). -/
theorem State.pump_fold {s : State} {p : CoreId} (hc : queuesEmpty (s.core p)) (hmode : (s.core p).mode ≠ .faulted)
    {slot desc cmd off : Nat} (hread : (s.ownCode true (parseDesc desc).allSpans).1 = 0) :
    (s.setCore p ((s.core p).push 4 (.fold slot desc cmd off))).pump p =
      (s.readAll (parseDesc desc).allSpans).setCore p
        ((s.core p).foldInto slot ((parseDesc desc).digest s.mem) ((parseDesc desc).anyNonZero s.mem)) := by
  obtain ⟨-, -, -, hvector⟩ := id hc
  refine State.pump_of_alone hc ?_ (by simpa [Core.foldInto] using hvector)
  have hmode' : ((s.setCore p ((s.core p).push 4 (.fold slot desc cmd off))).core p).mode ≠ .faulted := by
    simpa [Core.push, Core.setQueue] using hmode
  simp only [State.headStep, if_neg hmode', State.queue_push s p hvector]
  rw [State.popHead_push s p hvector, State.setCore_core, State.execFold]
  simp only [hread, ne_eq, not_true_eq_false, if_false, State.modCoreAt_val, State.readAll_core]

open Claims in
/-- A STORE alone in the queues of a core writes its slot to its word and clears it (R257). -/
theorem State.pump_store {s : State} {p : CoreId} (hc : queuesEmpty (s.core p)) (hmode : (s.core p).mode ≠ .faulted)
    {slot addr cmd off : Nat} (hwrite : (s.ownCode false [(spBase p.val + addr, 8)]).1 = 0) :
    (s.setCore p ((s.core p).push 4 (.store slot addr cmd off))).pump p =
      (((s.wakeSpan (spBase p.val + addr) 8).storeFrame p.val (nth (s.core p).digests slot)
        ((s.core p).digestNz.getD slot false)).wrOwn p.val addr 8 (nth (s.core p).digests slot)).modCoreAt p.val
          (fun c => { c with digests := c.digests.set slot 0, digestNz := c.digestNz.set slot false }) := by
  obtain ⟨-, -, hdrain, hvector⟩ := id hc
  refine State.pump_of_alone hc ?_ (by simpa [State.modCoreAt_val] using hvector)
  have hmode' : ((s.setCore p ((s.core p).push 4 (.store slot addr cmd off))).core p).mode ≠ .faulted := by
    simpa [Core.push, Core.setQueue] using hmode
  have hfolds : ((s.setCore p ((s.core p).push 4 (.store slot addr cmd off))).core p).qDrain = [] := by
    simpa [Core.push, Core.setQueue] using hdrain
  simp only [State.headStep, if_neg hmode', State.queue_push s p hvector, hfolds]
  rw [State.popHead_push s p hvector, State.setCore_core, State.execStore]
  simp [foldsPending, hwrite, State.coreAt_val]

end Sys2Proof.Machine
end

section
/-! SUPPORT. Decoding SETVL, DIGEST and a VOP of a held sub-opcode (R132, R143, R256, R257). -/

namespace Sys2Proof.Machine

/-! ### SETVL -/

theorem decodeSetvl_of_count (p : CoreId) (s : State) {cmd : Nat} (hheld : bits cmd 106 0 = 0) (hlo : 1 ≤ bits cmd 119 107)
    (hhi : bits cmd 119 107 ≤ 4096) :
    decodeSetvl p s cmd = .ok (s.setCore p { s.core p with vl := bits cmd 119 107 }) := by
  have hbad : (bits cmd 106 0 != 0 || bits cmd 119 107 == 0 || decide (4096 < bits cmd 119 107)) = false := by
    simp [hheld, hhi, Nat.one_le_iff_ne_zero.1 hlo]
  simp only [decodeSetvl, hbad]
  exact orFault_of_none rfl _

theorem decodeSetvl_of_bad (p : CoreId) (s : State) {cmd : Nat}
    (h : bits cmd 106 0 ≠ 0 ∨ bits cmd 119 107 = 0 ∨ 4096 < bits cmd 119 107) : decodeSetvl p s cmd = .fault 0x02 0 := by
  have hbad : (bits cmd 106 0 != 0 || bits cmd 119 107 == 0 || decide (4096 < bits cmd 119 107)) = true := by
    simpa [or_assoc] using h
  simp only [decodeSetvl, hbad]
  exact orFault_of_least (by simp) (by simp) (by simp) _

/-! ### DIGEST -/

open Claims in
theorem exec_digestFold {s : State} {p : CoreId} {cmd : Nat} (h : atHead s p 0x50 cmd) (hform : bits cmd 119 118 ≠ 1) :
    exec (.digestFold p) s = .next (s.decodeCmd p 0x50 (decodeFold p (s.core p).pos)) :=
  congrArg Host.Outcome.next (State.decodeCmd_congr h (if_neg hform))

open Claims in
theorem exec_digestStore {s : State} {p : CoreId} {cmd : Nat} (h : atHead s p 0x50 cmd) (hform : bits cmd 119 118 = 1) :
    exec (.digestStore p) s = .next (s.decodeCmd p 0x50 (decodeStore p (s.core p).pos)) :=
  congrArg Host.Outcome.next (State.decodeCmd_congr h (if_pos hform))

/-- The codes of a descriptor's faults (R212). -/
theorem Desc.le_of_mem_causes {t : Desc} {p alevel : Nat} {dest : Bool} {e : Bool × Nat} (h : e ∈ t.causes p alevel dest) :
    0x50 ≤ e.2 := by
  simp only [Desc.causes, List.mem_cons, List.not_mem_nil, or_false] at h
  rcases h with rfl | rfl | rfl | rfl | rfl | rfl <;> simp

theorem decodeFold_of_clean {p : CoreId} {s : State} {cmd off o : Nat} (hroom : (s.core p).qVector.length < 8)
    (hfield : digestFieldBad cmd = false) (heff : (s.core p).effOffset (bit cmd 114) (128 * bits cmd 113 99) = some o)
    (hread : (s.ownCode true [(spBase p.val + o, 128)]).1 = 0)
    (hdesc : leastCode ((parseDesc (s.rd (spBase p.val + o) 128)).causes p.val (s.core p).alevel false) = 0) :
    decodeFold p off s cmd = .ok (((s.readAll [(spBase p.val + o, 128)]).setCore p
      ((s.core p).push 4 (.fold (bits cmd 117 115) (s.rd (spBase p.val + o) 128) cmd off))).pump p) := by
  simp only [decodeFold, heff, hfield, decide_eq_true_eq]
  rw [if_neg hroom.not_ge, State.seqRead_of_ok hread]
  refine orFault_of_none ?_ _
  rw [List.singleton_append, leastCode_cons_false, hdesc]

/-- A DIGEST that breaks the rules of its fields faults with CMD_FIELD, the lowest code that can apply to it (R91, R243). -/
theorem decodeFold_of_badField {p : CoreId} {s : State} {cmd : Nat} (off : Nat) (hroom : (s.core p).qVector.length < 8)
    (hfield : digestFieldBad cmd = true) : decodeFold p off s cmd = .fault 0x02 0 := by
  simp only [decodeFold, hfield, decide_eq_true_eq]
  rw [if_neg hroom.not_ge]
  split
  · exact orFault_of_least (by simp) (by simp) (by simp) _
  · refine State.seqRead_of_least (by simp) (by simp) (by simp) (by simp) ?_
    refine orFault_of_least (by simp) (by simp) (fun e he _ => ?_) _
    rcases List.mem_append.1 he with he | he
    · simp [List.mem_singleton.1 he]
    · exact le_trans (by simp) (Desc.le_of_mem_causes he)

theorem decodeStore_of_clean {p : CoreId} {s : State} {cmd off o : Nat} (hroom : (s.core p).qVector.length < 8)
    (hfield : digestFieldBad cmd = false) (heff : (s.core p).effOffset (bit cmd 114) (8 * bits cmd 98 80) = some o) :
    decodeStore p off s cmd =
      .ok ((s.setCore p ((s.core p).push 4 (.store (bits cmd 117 115) o cmd off))).pump p) := by
  simp only [decodeStore, heff, hfield, decide_eq_true_eq]
  rw [if_neg hroom.not_ge]
  exact orFault_of_none rfl _

/-! ### Held sub-opcodes -/

open Claims in
theorem exec_vopSubop {s : State} {p : CoreId} {cmd : Nat} (h : atHead s p 0x10 cmd)
    (hsub : subKnown (bits cmd 119 112) = false) :
    exec (.vopSubop p) s = .next (s.decodeCmd p 0x10 (decodeVop p (s.core p).pos)) :=
  congrArg Host.Outcome.next (State.decodeCmd_congr h (if_neg (by simp [hsub])))

/-- The codes of a VOP's faults at decode, VOP_SUBOP the lowest (R160). -/
theorem le_of_mem_vopCauses {p alevel : Nat} {v : VopCmd} {e : Bool × Nat} (h : e ∈ vopCauses p alevel v) : 0x30 ≤ e.2 := by
  simp only [vopCauses, vopDescCauses, List.mem_append, List.mem_cons, List.not_mem_nil, or_false] at h
  rcases h with (rfl | rfl | rfl | rfl | rfl) | ((h | h) | h) | h
  any_goals simp
  all_goals
    split at h
    · exact le_trans (by simp) (Desc.le_of_mem_causes (List.mem_filter.1 h).1)
    · simp at h

theorem mem_vopCauses_of_held {p alevel : Nat} {v : VopCmd} (h : subKnown v.sub = false) :
    (true, 0x30) ∈ vopCauses p alevel v := by
  simp [vopCauses, h]

open Claims in
/-- A VOP of a held sub-opcode to which neither CMD_FIELD nor CMD_RANGE applies (R91, R143). -/
theorem decodeVop_of_held {p : CoreId} {s : State} {cmd off : Nat} (hroom : (s.core p).qVector.length < 8)
    (hsub : subKnown (bits cmd 119 112) = false) (hplaces : ∀ f ∈ vopPlaces s p cmd, f.bad = false)
    (hfield : vopFieldBad cmd (vopExt s p (vopField (s.core p) (bit cmd 103) (bits cmd 15 0)))
      (match (vopAt s p cmd off).d with | some d => (parseDesc d).gw | none => false) = false) :
    decodeVop p off s cmd = .fault 0x30 0 := by
  simp only [vopPlaces, List.map_cons, List.map_nil, List.forall_mem_cons] at hplaces
  obtain ⟨he, ha, hb, hd, -⟩ := hplaces
  have hrange : ((vopField (s.core p) (bit cmd 103) (bits cmd 63 48)).bad ||
      (vopField (s.core p) (bit cmd 103) (bits cmd 47 32)).bad || (vopField (s.core p) (bit cmd 103) (bits cmd 31 16)).bad ||
      (vopField (s.core p) (bit cmd 103) (bits cmd 15 0)).bad) = false := by
    rw [ha, hb, hd, he]
    rfl
  have hpre : ∀ {a b : Bool}, a = false → b = false → ∀ e ∈ [(a, 0x02), (b, 0x03)], e.1 = false := by simp
  have hsubop : (true, 0x30) = (!subKnown (bits cmd 119 112), 0x30) := by rw [hsub]; rfl
  have hknown : ∀ {c : Prop} [Decidable c] {a b : Bool},
      ∀ e ∈ (if c then [] else [(a, 0x31), (b, 0x32)]), 0x30 ≤ e.2 := by
    intro c _ a b
    split_ifs <;> simp
  simp only [decodeVop, decide_eq_true_eq]
  rw [if_neg hroom.not_ge]
  refine State.seqRead_of_least (by simp) (by simp) (List.mem_append_right _ (List.mem_cons.2 (.inl hsubop)))
    (least_of_append (hpre hfield hrange) (fun e he => ?_)) ?_
  · rcases List.mem_cons.1 he with rfl | he
    · exact le_refl _
    · exact hknown e he
  · simp only [hrange, Bool.false_eq_true, if_false]
    refine orFault_of_least (by simp) (List.mem_append_right _ ?_) (least_of_append (hpre hfield rfl) fun e he => ?_) _
    · exact mem_vopCauses_of_held hsub
    · exact le_of_mem_vopCauses he

end Sys2Proof.Machine

namespace Sys2Proof.Claims
open Machine

/-- Settles O12: each command at the head of the stream is decoded (`State.decodeCmd_of_ok`, `State.decodeCmd_of_fault`); a
fold or a store that finds the queues empty acts at once (`State.pump_fold`, `State.pump_store`). -/
theorem setvlAndDigest : Obligations.SetvlAndDigest := by
  intro p cmd s s1 c off slot
  refine ⟨fun h => ⟨fun hheld hlo hhi => ?_, fun hbad => ?_⟩, ?_, ?_, fun h hform hroom => ?_,
    fun h hsub hroom hplaces hfield => ?_⟩
  · exact congrArg Host.Outcome.next (State.decodeCmd_of_ok h (decodeSetvl_of_count p s1 hheld hlo hhi))
  · exact congrArg Host.Outcome.next (State.decodeCmd_of_fault h (decodeSetvl_of_bad p s1 hbad))
  · intro o h hform hfield heff d l spans hread hdesc
    have hdecoded (hroom : c.qVector.length < 8) : exec (.digestFold p) s =
        .next (((s1.readAll l).setCore p (c.push 4 (.fold slot d cmd off))).pump p) := by
      rw [exec_digestFold h (by omega), State.decodeCmd_of_ok h (decodeFold_of_clean hroom hfield heff hread hdesc)]
    refine ⟨hdecoded, fun hempty hmode hspans => ?_⟩
    obtain ⟨-, -, -, hvector⟩ := id hempty
    have hcore : (s1.readAll l).core p = c := s1.readAll_core l p
    have hmem : (s1.readAll l).mem = s.mem := s1.readAll_mem l
    have hpump := State.pump_fold (slot := slot) (cmd := cmd) (off := off) (hcore ▸ hempty) (hcore ▸ hmode) hspans
    rw [hcore, hmem] at hpump
    rw [hdecoded (by simp [hvector]), hpump]
  · intro o h hform hfield heff
    have hdecoded (hroom : c.qVector.length < 8) : exec (.digestStore p) s =
        .next ((s1.setCore p (c.push 4 (.store slot o cmd off))).pump p) := by
      rw [exec_digestStore h hform, State.decodeCmd_of_ok h (decodeStore_of_clean hroom hfield heff)]
    refine ⟨hdecoded, fun hempty hmode hwrite => ?_⟩
    obtain ⟨-, -, -, hvector⟩ := id hempty
    rw [hdecoded (by simp [hvector]), State.pump_store hempty hmode hwrite]
  · rw [exec_digestFold h (by omega),
      State.decodeCmd_of_fault h (decodeFold_of_badField _ hroom (by simp [digestFieldBad, hform]))]
  · rw [exec_vopSubop h hsub, State.decodeCmd_of_fault h (decodeVop_of_held hroom hsub hplaces hfield)]

end Sys2Proof.Claims
end

section
/-! SUPPORT. The canonical forms that every step keeps (R163, R165, R479, R538): the five stores together, and the outcomes
that leave a state of canonical form, under branches, folds and options. -/

namespace Sys2Proof.Machine

variable {s : State}

/-- The canonical forms of the five stores, store by store: the same as `State.canonical`, in a form in which two states are
compared as they are written and their maps never unfolded. -/
structure State.Canonical (s : State) : Prop where
  mem : Memory.wf s.mem
  dict : swf s.dict odDef
  dictP : swf s.dictP odDef
  sems : swf s.sems zeroD
  banks : swf s.banks (fun _ => Bank.reset)

theorem State.Canonical.of_canonical (h : s.canonical) : s.Canonical := by
  obtain ⟨mem, dict, dictP, sems, banks⟩ := h
  exact ⟨mem, dict, dictP, sems, banks⟩

theorem State.Canonical.canonical (h : s.Canonical) : s.canonical := ⟨h.mem, h.dict, h.dictP, h.sems, h.banks⟩

/-- An update of any other fields leaves the five stores as they are. -/
theorem State.Canonical.frame (h : s.Canonical) {pending out free ecc writeBack lost dmaLast stalled cores semOwner waiters
    ticket dmas roleGen logical segOwner segStack bankOwner jobs loans latches latchHeld collQ collCycle sigs radio fr fab
    time host visor safety power tap} :
    (⟨pending, out, free, s.mem, ecc, writeBack, s.banks, lost, dmaLast, stalled, cores, s.sems, semOwner, waiters, ticket,
      dmas, roleGen, s.dict, s.dictP, logical, segOwner, segStack, bankOwner, jobs, loans, latches, latchHeld, collQ,
      collCycle, sigs, radio, fr, fab, time, host, visor, safety, power, tap⟩ : State).Canonical :=
  ⟨h.mem, h.dict, h.dictP, h.sems, h.banks⟩

/-! ### Branches, folds and options -/

theorem State.Canonical.ite {t : State} {c : Prop} [Decidable c] (h : s.Canonical) (ht : t.Canonical) :
    (if c then s else t).Canonical := by
  split
  · exact h
  · exact ht

theorem State.Canonical.foldl {α} {f : State → α → State} {l : List α} (h : s.Canonical)
    (hf : ∀ t : State, t.Canonical → ∀ a, (f t a).Canonical) : (l.foldl f s).Canonical := by
  induction l generalizing s with
  | nil => exact h
  | cons a l ih => exact ih (hf _ h a)

/-- A fold that carries results beside the state. -/
theorem State.Canonical.foldl_fst {α β} {f : State × β → α → State × β} {l : List α} {x : State × β} (h : x.1.Canonical)
    (hf : ∀ y : State × β, y.1.Canonical → ∀ a, (f y a).1.Canonical) : (l.foldl f x).1.Canonical := by
  induction l generalizing x with
  | nil => exact h
  | cons a l ih => exact ih (hf _ h a)

theorem State.Canonical.elim {α} {o : Option α} {f : α → State} (h : s.Canonical) (hf : ∀ a, (f a).Canonical) :
    (o.elim s f).Canonical := by
  cases o with
  | none => exact h
  | some a => exact hf a

/-- The state of a pair that a match has taken apart. -/
theorem State.Canonical.of_snd {α} {x : α × State} (h : x.2.Canonical) {a t} (e : x = (a, t)) : t.Canonical := by
  subst e; exact h

/-- The state that an operation answers, where it answers one, is in canonical form. -/
def MaybeCanonical (o : Option State) : Prop := ∀ t, o = some t → t.Canonical

theorem MaybeCanonical.none : MaybeCanonical none := fun _ e => nomatch e

theorem MaybeCanonical.some (h : s.Canonical) : MaybeCanonical (some s) := fun _ e => Option.some.inj e ▸ h

theorem MaybeCanonical.ite {o q} {c : Prop} [Decidable c] (ho : MaybeCanonical o) (hq : MaybeCanonical q) :
    MaybeCanonical (if c then o else q) := by
  split
  · exact ho
  · exact hq

theorem MaybeCanonical.map {α} {o : Option α} {f : α → State} (h : ∀ a, (f a).Canonical) : MaybeCanonical (o.map f) := by
  cases o with
  | none => exact .none
  | some a => exact .some (h a)

theorem MaybeCanonical.getD {o : Option State} (ho : MaybeCanonical o) (h : s.Canonical) : (o.getD s).Canonical := by
  cases o with
  | none => exact h
  | some t => exact ho t rfl

/-- The state of a pair that a match has taken apart. -/
theorem MaybeCanonical.of_fst {α} {x : Option State × α} (h : MaybeCanonical x.1) {t a} (e : x = (Option.some t, a)) :
    t.Canonical := by
  subst e; exact h t rfl

/-- The state that decoding a command of a core answers, where it does not stall or fault, is in canonical form. -/
def DecR.Canonical (r : DecR) : Prop := ∀ t, r = .ok t → t.Canonical

theorem DecR.Canonical.stall : DecR.stall.Canonical := fun _ e => nomatch e

theorem DecR.Canonical.fault {code detail} : (DecR.fault code detail).Canonical := fun _ e => nomatch e

theorem DecR.Canonical.ok (h : s.Canonical) : (DecR.ok s).Canonical := fun _ e => DecR.ok.inj e ▸ h

theorem DecR.Canonical.ite {r q : DecR} {c : Prop} [Decidable c] (hr : r.Canonical) (hq : q.Canonical) :
    (if c then r else q).Canonical := by
  split
  · exact hr
  · exact hq

/-- The state that an issue of a signal core answers, where it does not stall or fault, is in canonical form. -/
def SigR.Canonical (r : SigR) : Prop := ∀ t, r = .ok t → t.Canonical

theorem SigR.Canonical.stall : SigR.stall.Canonical := fun _ e => nomatch e

theorem SigR.Canonical.fault {code detail} : (SigR.fault code detail).Canonical := fun _ e => nomatch e

theorem SigR.Canonical.ok (h : s.Canonical) : (SigR.ok s).Canonical := fun _ e => SigR.ok.inj e ▸ h

theorem SigR.Canonical.ite {r q : SigR} {c : Prop} [Decidable c] (hr : r.Canonical) (hq : q.Canonical) :
    (if c then r else q).Canonical := by
  split
  · exact hr
  · exact hq

/-- The next state of a command is in canonical form. -/
def LeavesCanonical (o : Host.Outcome State Fault Refusal) : Prop := ∀ t, o = .next t → t.Canonical

theorem LeavesCanonical.next (h : s.Canonical) : LeavesCanonical (.next s) := fun _ e => Host.Outcome.next.inj e ▸ h

theorem LeavesCanonical.ite {o q} {c : Prop} [Decidable c] (ho : LeavesCanonical o) (hq : LeavesCanonical q) :
    LeavesCanonical (if c then o else q) := by
  split
  · exact ho
  · exact hq

end Sys2Proof.Machine
end

section
/-! SUPPORT. Canonical forms are kept by what the engines of a core do: notices, counts, bytes and faults, queues, passes, and the
commands WLOAD, MPASS, SETG and DRAIN. -/

namespace Sys2Proof.Machine

variable {s : State}

/-! ### Units -/

theorem State.Canonical.setCore (h : s.Canonical) {p c} : (s.setCore p c).Canonical := h.frame

theorem State.Canonical.modCoreAt (h : s.Canonical) {n f} : (s.modCoreAt n f).Canonical := by
  unfold State.modCoreAt
  split
  · exact h.setCore
  · exact h

theorem State.Canonical.setSig (h : s.Canonical) {g c} : (s.setSig g c).Canonical := h.frame

theorem State.Canonical.emit (h : s.Canonical) {e} : (s.emit e).Canonical := h.frame

theorem State.Canonical.takeFree (h : s.Canonical) : s.takeFree.2.Canonical := h.frame

/-! ### Dictionary values -/

theorem State.Canonical.setOd (h : s.Canonical) {index sub v} : (s.setOd index sub v).Canonical :=
  .of_canonical (State.canonical_setOd h.canonical index sub v)

theorem State.Canonical.incOd (h : s.Canonical) {index sub} : (s.incOd index sub).Canonical := h.setOd

theorem State.Canonical.holdCan (h : s.Canonical) : s.holdCan.Canonical := .ite h.frame h

theorem State.Canonical.freeCan (h : s.Canonical) : s.freeCan.Canonical := .ite h h.frame

/-! ### Partitions and owners -/

theorem State.Canonical.setMapByte (h : s.Canonical) {k l v} : (s.setMapByte k l v).Canonical := h.frame

/-! ### Visor (R510 to R512) -/

theorem State.Canonical.visorCount (h : s.Canonical) {index n event part by_} :
    (s.visorCount index n event part by_).Canonical :=
  .ite h h.frame

theorem State.Canonical.countCore (h : s.Canonical) {p event by_} : (s.countCore p event by_).Canonical := h.visorCount

theorem State.Canonical.countCanton (h : s.Canonical) {c event part by_} : (s.countCanton c event part by_).Canonical :=
  h.visorCount

theorem State.Canonical.countDev (h : s.Canonical) {event part by_} : (s.countDev event part by_).Canonical := h.visorCount

/-! ### Notices (R493 to R498) -/

theorem State.Canonical.raiseAt (h : s.Canonical) {time n} : (s.raiseAt time n).Canonical := .ite h.frame h.frame.countDev

theorem State.Canonical.raise (h : s.Canonical) {n} : (s.raise n).Canonical := h.raiseAt

theorem State.Canonical.warn (h : s.Canonical) {code part kind unit payload} :
    (s.warn code part kind unit payload).Canonical :=
  h.raise

theorem State.Canonical.info (h : s.Canonical) {code part kind unit payload} :
    (s.info code part kind unit payload).Canonical :=
  h.raise

theorem State.Canonical.faultNotice (h : s.Canonical) {code part kind unit payload} :
    (s.faultNotice code part kind unit payload).Canonical :=
  h.raise

/-! ### Memory map (R163, R164, R303) -/

theorem State.Canonical.setBank (h : s.Canonical) {b x} : (s.setBank b x).Canonical :=
  .of_canonical (State.canonical_setBank h.canonical b x)

/-! ### Bytes -/

theorem State.Canonical.countEcc (h : s.Canonical) {a corrected} : (s.countEcc a corrected).Canonical := by
  unfold State.countEcc
  split
  · exact .ite h.countCore (.ite h.countCanton h.countDev)
  · exact h.countDev
  · exact h

theorem State.Canonical.eccRead (h : s.Canonical) {a n} : (s.eccRead a n).Canonical := by
  dsimp only [State.eccRead]
  refine h.foldl fun _ ht _ => .ite ?_ ht
  split
  · exact .ite ht.countEcc ht.countEcc.frame
  · exact ht.countEcc
  · exact ht

theorem State.Canonical.eccMerge (h : s.Canonical) {a n} : (s.eccMerge a n).Canonical :=
  h.foldl fun _ ht _ => .ite ht.countEcc ht

theorem State.Canonical.touchRow (h : s.Canonical) {a} : (s.touchRow a).Canonical := by
  dsimp only [State.touchRow]
  split
  · exact .ite h.setBank.frame h
  · exact h

theorem State.Canonical.touchRows (h : s.Canonical) {a n} : (s.touchRows a n).Canonical :=
  .ite h (h.foldl fun _ ht _ => ht.touchRow)

theorem State.Canonical.wr (h : s.Canonical) {a n v} : (s.wr a n v).Canonical :=
  .of_canonical (State.canonical_wr h.canonical a n v)

/-! ### A core's own scratchpad -/

theorem State.Canonical.wrOwn (h : s.Canonical) {p off n v} : (s.wrOwn p off n v).Canonical := .ite h.wr.modCoreAt h.wr

/-! ### Semaphores (R259, R260) -/

theorem State.Canonical.semWatch (h : s.Canonical) {n old new} : (s.semWatch n old new).Canonical := .ite h.frame h

theorem State.Canonical.setSem (h : s.Canonical) {n v} : (s.setSem n v).Canonical :=
  .of_canonical (State.canonical_setSem h.canonical n v)

theorem State.Canonical.semAdd (h : s.Canonical) {n d} : (s.semAdd n d).Canonical := .ite h.setSem.warn h.setSem

/-! ### Command faults (R90, R268 to R270) -/

theorem State.Canonical.modJob (h : s.Canonical) {job f} : (s.modJob job f).Canonical := h.frame

theorem State.Canonical.needCore (h : s.Canonical) {p n} : (s.needCore p n).Canonical := h.modCoreAt

theorem State.Canonical.needPart (h : s.Canonical) {k n on} : (s.needPart k n on).Canonical :=
  h.foldl fun _ ht _ => .ite (.ite ht.needCore ht.modCoreAt) ht

theorem State.Canonical.countGap (h : s.Canonical) {k cs} : (s.countGap k cs).Canonical :=
  .ite (h.foldl fun _ ht _ => ht.countCanton) h

theorem State.Canonical.enterLatch (h : s.Canonical) {e} : (s.enterLatch e).Canonical := h.frame.countCanton

theorem State.Canonical.latchEntry (h : s.Canonical) {e} : (s.latchEntry e).Canonical :=
  .ite h.frame.countCanton h.enterLatch

theorem State.Canonical.latch (h : s.Canonical) {p code kind} : (s.latch p code kind).Canonical := h.latchEntry

theorem State.Canonical.faultJob (h : s.Canonical) {p} : (s.faultJob p).Canonical := by
  dsimp only [State.faultJob]
  split
  · exact h
  · exact h.modJob.frame

theorem State.Canonical.fault (h : s.Canonical) {p code detail cmd off} : (s.fault p code detail cmd off).Canonical := by
  unfold State.fault
  extract_lets c s1 s2 _ s3
  have h1 : s1.Canonical := h.modCoreAt
  have h2 : s2.Canonical := .ite h1.modCoreAt h1.countCore
  have h3 : s3.Canonical := .ite h2.frame h2
  exact .ite h2.modCoreAt (.ite h3.raise.faultJob.latch h3)

theorem State.Canonical.addFlags (h : s.Canonical) {p f} : (s.addFlags p f).Canonical := h.modCoreAt

/-! ### Stores of elements -/

theorem State.Canonical.putElem (h : s.Canonical) {p t idx code} : (s.putElem p t idx code).Canonical := h.wrOwn

theorem State.Canonical.putS8 (h : s.Canonical) {p t blk code} : (s.putS8 p t blk code).Canonical := h.wrOwn

/-! ### The drain's store (R123) -/

theorem State.Canonical.decodeCmd {k : State → Nat → DecR} (h : s.Canonical)
    (hk : ∀ t : State, t.Canonical → ∀ cmd, (k t cmd).Canonical) {p op} : (s.decodeCmd p op k).Canonical := by
  unfold State.decodeCmd
  split
  · exact h
  · refine .ite ?_ h
    split
    · exact h
    · exact h.fault
    · next e => exact hk _ h.setCore _ _ e

theorem DecR.Canonical.orFault {k : DecR} (hk : k.Canonical) {causes} : (orFault causes k).Canonical := .ite hk .fault

/-! ### Queues (R239) -/

theorem State.Canonical.pushTo (h : s.Canonical) {p eng e} : (s.pushTo p eng e).Canonical := .ite (.ok h.setCore) .stall

/-! ### Engine accesses (R182, R184, R190) -/

theorem State.Canonical.powerUp (h : s.Canonical) {b} : (s.powerUp b).Canonical := h.setBank

theorem State.Canonical.wakeMacro (h : s.Canonical) {b m} : (s.wakeMacro b m).Canonical :=
  .eccRead (.ite h.setBank.countCore h.setBank)

theorem State.Canonical.wake (h : s.Canonical) {a} : (s.wake a).Canonical := by
  dsimp only [State.wake]
  split
  · exact .ite h.setBank (.ite h.setBank (.ite h.wakeMacro h))
  · exact h

theorem State.Canonical.wakeSpan (h : s.Canonical) {a n} : (s.wakeSpan a n).Canonical :=
  .ite h (h.foldl fun _ ht _ => ht.wake)

theorem State.Canonical.wakeAll (h : s.Canonical) {l} : (s.wakeAll l).Canonical := h.foldl fun _ ht _ => ht.wakeSpan

theorem State.Canonical.readAll (h : s.Canonical) {l} : (s.readAll l).Canonical :=
  (h.foldl fun _ ht _ => ht.eccRead).wakeAll

theorem State.Canonical.seqRead {k : State → DecR} (h : s.Canonical) (hk : ∀ t : State, t.Canonical → (k t).Canonical)
    {l pre} : (s.seqRead l pre k).Canonical :=
  .ite (hk _ h.readAll) .fault

/-! ### Fetch (R235) -/

theorem State.Canonical.fetch (h : s.Canonical) {p} : (s.fetch p).Canonical :=
  .ite (.ite (.ite h.fault h) (.ite h.readAll.setCore h)) h

/-! ### Row passes (R59 to R64, R74, R105, R112) -/

theorem State.Canonical.setFrames (h : s.Canonical) {x} : (s.setFrames x).Canonical := h.frame

theorem State.Canonical.storeFrame (h : s.Canonical) {p v nz} : (s.storeFrame p v nz).Canonical := by
  dsimp only [State.storeFrame]
  split
  · exact h
  · exact .ite h.setFrames h

theorem State.Canonical.compareFrame (h : s.Canonical) {job d nz} : (s.compareFrame job d nz).Canonical :=
  .ite h (.ite (.ite h.setFrames.setOd.warn h.setFrames) (.ite h.setFrames.info h.setFrames))

theorem State.Canonical.closeFrames (h : s.Canonical) {handle bound n} : (s.closeFrames handle bound n).Canonical := by
  induction n generalizing s with
  | zero => exact h
  | succ n ih =>
    unfold State.closeFrames
    dsimp only
    split
    · exact h
    · exact .ite h (ih h.setFrames.compareFrame)

theorem State.Canonical.frameStep (h : s.Canonical) {p} : (s.frameStep p).Canonical := by
  dsimp only [State.frameStep]
  split
  · exact h
  · exact h.closeFrames

theorem State.Canonical.endFrames (h : s.Canonical) {job} : (s.endFrames job).Canonical := h.closeFrames.frame

/-! ### What a VOP writes -/

theorem State.Canonical.vwrite (h : s.Canonical) {p w} : (s.vwrite p w).Canonical := by
  dsimp only [State.vwrite]
  split
  · exact h.putElem
  · exact h.putS8
  · exact h.wrOwn
  · exact h.putElem

/-! ### Accesses of a VOP and their faults (R184) -/

theorem State.Canonical.execVop (h : s.Canonical) {p v} : (s.execVop p v).Canonical := by
  unfold State.execVop
  extract_lets c rd s0 o wr s1 s2 s3
  have h0 : s0.Canonical := h.readAll
  have h1 : s1.Canonical := h0.wakeAll.foldl fun _ ht _ => ht.vwrite
  have h2 : s2.Canonical := h1.addFlags
  have h3 : s3.Canonical := .ite h2 h2.countDev
  refine .ite h0.fault (.ite h0.fault ?_)
  split
  · exact h3.fault
  · exact h3

/-! ### Digest folds (R256, R280, R281) -/

theorem State.Canonical.execFold (h : s.Canonical) {p slot desc cmd off} : (s.execFold p slot desc cmd off).Canonical :=
  .ite h.readAll.fault h.readAll.modCoreAt

theorem State.Canonical.execStore (h : s.Canonical) {p slot addr cmd off} : (s.execStore p slot addr cmd off).Canonical :=
  .ite h.fault h.wakeSpan.storeFrame.wrOwn.modCoreAt

/-! ### Waiters (R319, R320, R322) -/

theorem State.Canonical.ask (h : s.Canonical) {n need who} : (s.ask n need who).Canonical := h.frame

/-! ### Queue heads (R240) -/

theorem State.Canonical.popHead (h : s.Canonical) {p eng} : (s.popHead p eng).Canonical := h.setCore

theorem State.Canonical.setHead (h : s.Canonical) {p eng q} : (s.setHead p eng q).Canonical := h.setCore

theorem State.Canonical.runHeadVop (h : s.Canonical) {p v} : (s.runHeadVop p v).Canonical :=
  .ite h.popHead.execVop.setCore h.popHead.execVop

theorem State.Canonical.headStep (h : s.Canonical) {p eng} : MaybeCanonical (s.headStep p eng) := by
  dsimp only [State.headStep]
  split
  · exact .none
  · split
    · exact .ite .none (.some h.popHead.semAdd)
    · exact .ite .none (.ite (.some h.popHead.modCoreAt) (.some (.ite h.setHead.ask h.setHead)))
    · exact .some h.runHeadVop
    · exact .some h.popHead.execFold
    · exact .ite .none (.some h.popHead.execStore)
    · exact .ite (.some h.popHead) .none
    · exact .none
    · exact .none

theorem State.Canonical.pumpQueue (h : s.Canonical) {p eng n} : (s.pumpQueue p eng n).Canonical := by
  induction n generalizing s with
  | zero => exact h
  | succ n ih =>
    unfold State.pumpQueue
    split
    · next e => exact ih (h.headStep _ e)
    · exact h

theorem State.Canonical.pump (h : s.Canonical) {p} : (s.pump p).Canonical := h.pumpQueue.pumpQueue.pumpQueue.pumpQueue

theorem State.Canonical.pumpAt (h : s.Canonical) {p} : (s.pumpAt p).Canonical := by
  unfold State.pumpAt
  split
  · exact h.pump
  · exact h

/-! ### WLOAD (R56 to R58, R81 to R84, R248) -/

theorem State.Canonical.startWload (h : s.Canonical) {p} : (s.startWload p).Canonical := by
  dsimp only [State.startWload]
  split
  · exact .ite h.setCore h
  · exact h

theorem State.Canonical.decodeWload (h : s.Canonical) {p off cmd} : (decodeWload p off s cmd).Canonical := by
  dsimp only [Machine.decodeWload]
  refine .ite .stall ?_
  split
  · exact .orFault .stall
  · exact h.seqRead fun _ ht => .orFault (.ok ht.setCore.startWload)

theorem State.Canonical.execShadowComplete (h : s.Canonical) {p} : LeavesCanonical (execShadowComplete p s) := by
  dsimp only [Machine.execShadowComplete]
  refine .next ?_
  split
  · exact h
  · exact .ite h.readAll.setCore.fault h.readAll.setCore.setCore.addFlags.pump

/-! ### MPASS (R77 to R80, R250) -/

theorem State.Canonical.decodeMpass (h : s.Canonical) {p off cmd} : (decodeMpass p off s cmd).Canonical := by
  dsimp only [Machine.decodeMpass]
  refine .ite .stall ?_
  split
  · exact h.seqRead fun _ ht => .orFault (.ok ht.setCore.pump)
  · exact .orFault .stall

theorem State.Canonical.execFeederFill (h : s.Canonical) {p i} : LeavesCanonical (execFeederFill p i s) := by
  dsimp only [Machine.execFeederFill]
  refine .next (.ite ?_ h)
  split
  · exact h
  · exact .ite h.readAll.fault h.readAll.setCore.addFlags

theorem State.Canonical.execRowIssue (h : s.Canonical) {p} : LeavesCanonical (execRowIssue p s) := by
  dsimp only [Machine.execRowIssue]
  refine .next ?_
  split
  · exact h
  · split
    · exact h.countCore
    · exact h.setCore.countCore
    · exact .ite h.setCore.countCore h.setCore.addFlags.countCore.countCore

theorem State.Canonical.execSwap (h : s.Canonical) {p} : LeavesCanonical (execSwap p s) := by
  dsimp only [Machine.execSwap]
  refine .next ?_
  split
  · exact .ite h.setCore h
  · exact h

theorem State.Canonical.residueHit (h : s.Canonical) {p hit} : (s.residueHit p hit).Canonical := by
  unfold State.residueHit
  split
  · exact h
  · exact h.modCoreAt.countCore

theorem State.Canonical.logRow (h : s.Canonical) {p r} : (s.logRow p r).Canonical := .ite h.modCoreAt h

theorem State.Canonical.execContributionLand (h : s.Canonical) {p errs} :
    LeavesCanonical (execContributionLand p errs s) := by
  dsimp only [Machine.execContributionLand]
  refine .next ?_
  split
  · exact h
  · exact h.logRow.setCore.addFlags.residueHit.pump

/-! ### SETG (R94, R249) -/

theorem State.Canonical.decodeSetg (h : s.Canonical) {p cmd} : (decodeSetg p s cmd).Canonical := by
  dsimp only [Machine.decodeSetg]
  split
  · exact .orFault .stall
  · exact h.seqRead fun _ ht => .orFault (.ok ht.setCore)

/-! ### DRAIN (R87, R119 to R125, R251, R252) -/

theorem State.Canonical.decodeDrain (h : s.Canonical) {p off cmd} : (decodeDrain p off s cmd).Canonical := by
  dsimp only [Machine.decodeDrain]
  refine .ite .stall ?_
  split
  · exact .orFault .stall
  · refine h.seqRead fun _ ht => .ite (.orFault (.ok ht.setCore.pump)) ?_
    split
    · exact .orFault .stall
    · exact ht.seqRead fun _ ht => .orFault (.ok ht.setCore.pump)

theorem State.Canonical.execDrainStart (h : s.Canonical) {p} : LeavesCanonical (execDrainStart p s) := by
  dsimp only [Machine.execDrainStart]
  refine .next ?_
  split
  · exact .ite h h.setCore
  · exact h

theorem State.Canonical.execDrainRowRead (h : s.Canonical) {p errs} : LeavesCanonical (execDrainRowRead p errs s) := by
  unfold Machine.execDrainRowRead
  extract_lets c
  refine .next ?_
  split
  · exact h
  extract_lets r ws wr fl s1 s2 s3 s4
  have h1 : s1.Canonical := h.setCore
  have h2 : s2.Canonical := h1.wakeAll.foldl fun _ ht _ => ht.vwrite
  have h3 : s3.Canonical := h2.addFlags
  have h4 : s4.Canonical := .ite h3.modCoreAt h3
  exact .ite h (.ite h.fault h4.residueHit)

theorem State.Canonical.execDrainComplete (h : s.Canonical) {p} : LeavesCanonical (execDrainComplete p s) := by
  dsimp only [Machine.execDrainComplete]
  refine .next ?_
  split
  · exact .ite h.setCore.pump h
  · exact h

end Sys2Proof.Machine
end

section
/-! SUPPORT. Canonical forms are kept by links, tunnels and routes, accesses to memory, and the power states of the banks. -/

namespace Sys2Proof.Machine

variable {s : State}

/-! ### Ports -/

theorem State.Canonical.setLink (h : s.Canonical) {l x} : (s.setLink l x).Canonical := h.frame

theorem State.Canonical.setTun (h : s.Canonical) {t x} : (s.setTun t x).Canonical := h.frame

theorem State.Canonical.linkSend (h : s.Canonical) {l m} : (s.linkSend l m).Canonical :=
  (h.foldl fun _ ht _ => ht.setLink.emit).setLink

theorem State.Canonical.linkPump (h : s.Canonical) {l n} : (s.linkPump l n).Canonical := by
  induction n generalizing s with
  | zero => exact h
  | succ n ih =>
    unfold State.linkPump
    refine .ite h ?_
    split
    · exact h
    · exact .ite h (ih h.linkSend)

theorem State.Canonical.tunFrames (h : s.Canonical) {t seq flits} : (s.tunFrames t seq flits).Canonical :=
  h.foldl fun _ ht _ => ht.setTun.emit

theorem State.Canonical.tunPump (h : s.Canonical) {t n} : (s.tunPump t n).Canonical := by
  induction n generalizing s with
  | zero => exact h
  | succ n ih =>
    unfold State.tunPump
    refine .ite h ?_
    split
    · exact h
    · exact .ite h (ih h.setTun.tunFrames)

/-! ### Routing (R423, R424) -/

theorem State.Canonical.viaLink (h : s.Canonical) {l m} : (s.viaLink l m).Canonical := h.setLink.emit.linkPump

theorem State.Canonical.viaTun (h : s.Canonical) {t m} : (s.viaTun t m).Canonical := h.setTun.emit.tunPump

theorem State.Canonical.toInbox (h : s.Canonical) {port m} : (s.toInbox port m).Canonical := h.frame

theorem State.Canonical.route (h : s.Canonical) {m} : MaybeCanonical (s.route m) := by
  dsimp only [State.route]
  refine .ite (.some h.toInbox) ?_
  split
  · exact .ite (.some h.viaLink) .none
  · split
    · exact .ite (.some h.countDev) (.ite (.some h.viaTun) .none)
    · exact .none

theorem State.Canonical.unreachable (h : s.Canonical) {m} : (s.unreachable m).Canonical :=
  .ite (h.route.getD h.countDev) h.countDev

theorem State.Canonical.post (h : s.Canonical) {m} : (s.post m).Canonical := h.route.getD h.unreachable

theorem State.Canonical.consume (h : s.Canonical) {m} : (s.consume m).Canonical := by
  dsimp only [State.consume]
  split
  · exact h
  · split
    · exact h.frame.setLink
    · split
      · exact h.frame.setTun
      · exact h.frame

theorem State.Canonical.await (h : s.Canonical) {m} : (s.await m).Canonical := .ite h h.toInbox

theorem State.Canonical.malformed (h : s.Canonical) {m} : (s.malformed m).Canonical :=
  .ite h.consume.countDev.post h.consume.countDev

theorem State.Canonical.take {k : State → State} (h : s.Canonical) (hk : ∀ t : State, t.Canonical → (k t).Canonical)
    {m} : (s.take m k).Canonical :=
  .ite h.await (.ite h.malformed (hk _ h.consume))

/-! ### One access -/

theorem State.Canonical.storeSem (h : s.Canonical) {a v n} : (s.storeSem a v n).Canonical := by
  induction n generalizing s a v with
  | zero => exact h
  | succ n ih => exact ih h.setSem

theorem State.Canonical.store (h : s.Canonical) {addr n v} : (s.store addr n v).Canonical := by
  dsimp only [State.store]
  split
  · exact h.storeSem
  · exact h.frame
  · exact h.wr

theorem State.Canonical.atomicAt (h : s.Canonical) {mode a v} : (s.atomicAt mode a v).s.Canonical := by
  dsimp only [State.atomicAt]
  split
  · exact h.eccRead
  · exact h.eccRead.wr

theorem State.Canonical.writeAccess (h : s.Canonical) {who addr n v} : (s.writeAccess who addr n v).2.Canonical := by
  dsimp only [State.writeAccess]
  split
  · exact h
  · split
    · exact h.wakeSpan.atomicAt
    · exact h.wakeSpan.atomicAt
    · exact h.wakeSpan.store

theorem State.Canonical.readAccess (h : s.Canonical) {who addr n} : (s.readAccess who addr n).2.2.Canonical := by
  dsimp only [State.readAccess]
  split
  · exact h
  · exact h.eccRead.wakeSpan

/-! ### Waiting for a bank -/

theorem State.Canonical.beginWake (h : s.Canonical) {b a} : (s.beginWake b a).Canonical :=
  .ite h (.ite h.setBank (.ite h.setBank h))

theorem State.Canonical.stall (h : s.Canonical) {x} : (s.stall x).Canonical := h.frame.foldl fun _ ht _ => ht.beginWake

/-! ### Rounds of a sub-bank (R170 to R178) -/

theorem State.Canonical.storePart (h : s.Canonical) {x} : (s.storePart x).Canonical := h.foldl fun _ ht _ => ht.wr

theorem State.Canonical.countLost (h : s.Canonical) {b m part} : (s.countLost b m part).Canonical :=
  .ite h.countCore (.ite h.countCanton h)

theorem State.Canonical.countWLost (h : s.Canonical) {b part} : (s.countWLost b part).Canonical :=
  .ite h.countCore (.ite h.countCanton h)

theorem State.Canonical.merge (h : s.Canonical) {cyc whole taken l} : (s.merge cyc whole taken l).s.Canonical := by
  induction l generalizing s taken with
  | nil => exact h
  | cons x l ih =>
    unfold State.merge
    dsimp only
    split
    · exact ih h.storePart
    · exact ih h

theorem State.Canonical.grant (h : s.Canonical) {cyc x rest} : (s.grant cyc x rest).s.Canonical := by
  dsimp only [State.grant]
  split
  · exact h.foldl fun _ ht _ => ht.eccRead
  · exact h.storePart.merge
  · exact h.atomicAt

theorem State.Canonical.loses (h : s.Canonical) {k x} : (s.loses k x).Canonical := h.countLost.frame

theorem State.Canonical.wins (h : s.Canonical) {k x} : (s.wins k x).Canonical := h.frame

theorem State.Canonical.rounds (h : s.Canonical) {k f cyc ps} : (s.rounds k f cyc ps).1.Canonical := by
  induction f generalizing s cyc ps with
  | zero => exact h
  | succ f ih =>
    unfold State.rounds
    split
    · exact h
    · exact ih (h.grant.foldl fun _ ht _ => .ite ht.loses ht.wins)

theorem State.Canonical.runLarge (h : s.Canonical) {ps} : (s.runLarge ps).1.Canonical :=
  State.Canonical.foldl_fst (x := (s, [])) h fun _ ht _ => ht.rounds

theorem State.Canonical.runSmall (h : s.Canonical) {cyc l} : (s.runSmall cyc l).1.Canonical := by
  induction l generalizing s cyc with
  | nil => exact h
  | cons e l ih =>
    dsimp only [State.runSmall]
    refine ih ?_
    split
    · exact h.eccRead
    · exact h.wr
    · exact h.atomicAt

/-! ### The accesses of one cycle -/

theorem State.Canonical.wLost (h : s.Canonical) {r word} : (s.wLost r word).Canonical := .ite h.countWLost.warn h.countWLost

theorem State.Canonical.aloneAccess (h : s.Canonical) {x} : (s.aloneAccess x).s.Canonical := by
  dsimp only [State.aloneAccess]
  split
  · exact h.readAccess
  · exact h.writeAccess

theorem State.Canonical.memServe (h : s.Canonical) {l} : (s.memServe l).1.Canonical := by
  unfold State.memServe
  exact (State.Canonical.foldl_fst (x := (_, [])) (h.foldl fun _ ht _ => ht.stall)
    fun _ ht _ => ht.aloneAccess).runLarge.runSmall

theorem State.Canonical.noteLost (h : s.Canonical) {e} : (s.noteLost e).Canonical := by
  unfold State.noteLost
  split
  · exact h.wLost
  · exact h

theorem State.Canonical.respondTo (h : s.Canonical) {e} : (s.respondTo e).Canonical := h.noteLost.emit

theorem State.Canonical.memCycle (h : s.Canonical) {l} : (s.memCycle l).Canonical :=
  h.memServe.foldl fun _ ht _ => ht.respondTo

theorem State.Canonical.postWrite (h : s.Canonical) {g addr n data others} :
    (s.postWrite g addr n data others).2.Canonical := by
  unfold State.postWrite
  extract_lets master r q x
  have hx : x.1.Canonical := h.memServe
  split
  · exact h.writeAccess.memCycle
  · exact hx.foldl fun _ ht _ => .ite ht.noteLost ht.respondTo

theorem State.Canonical.upset (h : s.Canonical) {a u} : (s.upset a u).Canonical := by
  unfold State.upset
  refine .ite h (.ite ?_ h.frame)
  exact ⟨writeMem_wf h.mem _ _ _, h.dict, h.dictP, h.sems, h.banks⟩

/-! ### The steps -/

theorem State.Canonical.scrub (h : s.Canonical) {b u} : (s.scrub b u).Canonical :=
  .ite h (.setBank (.ite h h.upset.eccRead))

theorem State.Canonical.execScrubForcedRound (h : s.Canonical) {bank u} :
    LeavesCanonical (execScrubForcedRound bank u s) := by
  unfold Machine.execScrubForcedRound
  refine .next ?_
  split
  · exact h.scrub
  · exact .ite h.scrub.countGap.needPart h.needPart

theorem State.Canonical.release (h : s.Canonical) {b} : (s.release b).Canonical := h.frame.memCycle

theorem State.Canonical.execBankWakeDone (h : s.Canonical) {bank} : LeavesCanonical (execBankWakeDone bank s) := by
  dsimp only [Machine.execBankWakeDone]
  refine .next (.ite (.ite h.setBank.release h) ?_)
  split
  · exact h
  · exact h.wakeMacro.release

theorem State.Canonical.loseBank (h : s.Canonical) {b} : (s.loseBank b).Canonical :=
  ⟨zeroMem_wf h.mem _ _, h.dict, h.dictP, h.sems, h.banks⟩

theorem State.Canonical.execBankStateChange (h : s.Canonical) {bank} : LeavesCanonical (execBankStateChange bank s) := by
  dsimp only [Machine.execBankStateChange]
  refine .next (.ite h ?_)
  split
  · exact h.setBank
  · exact h.setBank
  · exact .ite h h.setBank.release
  · exact .ite h h.loseBank.setBank.release
  · exact h

theorem State.Canonical.execSemaphoreCrownWrite (h : s.Canonical) {addr len data} :
    LeavesCanonical (execSemaphoreCrownWrite addr len data s) := by
  dsimp only [Machine.execSemaphoreCrownWrite]
  refine .next ?_
  split
  · exact h.writeAccess.emit
  · exact h

end Sys2Proof.Machine
end

section
/-! SUPPORT. Canonical forms are kept by descriptors of the DMA engines, the light path, semaphore commands, and the commands of a core's
sequencer. -/

namespace Sys2Proof.Machine

variable {s : State}

/-! ### Messages (R427, R428) -/

theorem State.Canonical.request (h : s.Canonical) {node vc mtype addr len payload origin} :
    MaybeCanonical (s.request node vc mtype addr len payload origin) :=
  .map fun _ => h.frame.post

/-! ### External actions of a pair (R517, R518) -/

theorem State.Canonical.holdAct (h : s.Canonical) {p words a} : (s.holdAct p words a).Canonical := h.modCoreAt

/-! ### Descriptors (R218 to R222) -/

theorem State.Canonical.setDmaQ (h : s.Canonical) {e l} : (s.setDmaQ e l).Canonical := h.frame

theorem State.Canonical.setDmaHead (h : s.Canonical) {e d} : (s.setDmaHead e d).Canonical := h.setDmaQ

theorem State.Canonical.submitDma (h : s.Canonical) {e desc p} : (s.submitDma e desc p).Canonical := h.setDmaQ

theorem State.Canonical.submitCrown (h : s.Canonical) {e desc} : (s.submitCrown e desc).Canonical := h.setDmaQ

/-! ### DMA decoded (R218, R238, R258) -/

theorem State.Canonical.decodeDma (h : s.Canonical) {p cmd} : (decodeDma p s cmd).Canonical := by
  dsimp only [Machine.decodeDma]
  refine .ite .stall ?_
  split
  · exact .orFault .stall
  · exact h.seqRead fun _ ht => .orFault (.ok (.ite ht.holdAct ht.submitDma))

theorem State.Canonical.execDma (h : s.Canonical) {by_} : LeavesCanonical (execDma by_ s) := by
  unfold Machine.execDma
  refine .next ?_
  split
  · exact h.decodeCmd fun _ ht _ => ht.decodeDma
  · exact .ite h h.submitCrown

/-! ### Crossing claims (R451, R452) -/

theorem State.Canonical.setClaim (h : s.Canonical) {p c} : (s.setClaim p c).Canonical := h.frame

theorem State.Canonical.claimAt (h : s.Canonical) {t claimant tag} : (s.claimAt t claimant tag).2.Canonical := by
  dsimp only [State.claimAt]
  split
  · split
    · exact h.setClaim
    · exact h.setClaim
  · exact h

theorem State.Canonical.sendClaim (h : s.Canonical) {p far} : (s.sendClaim p far).Canonical := by
  have h1 {c} : (s.setClaim p c).Canonical := h.setClaim
  unfold State.sendClaim
  refine .ite ?_ (h1.request.getD h)
  split
  · next e => exact (State.Canonical.of_snd h1.claimAt e).setClaim
  · next e => exact (State.Canonical.of_snd h1.claimAt e).setClaim
  · next e => exact .of_snd h1.claimAt e

theorem State.Canonical.endClaim (h : s.Canonical) {p} : (s.endClaim p).Canonical := by
  unfold State.endClaim
  extract_lets c s1 s2
  have h1 : s1.Canonical := h.setClaim
  have h2 : s2.Canonical := h1.foldl fun _ ht _ => .ite ht.sendClaim ht.post
  exact h2.foldl fun _ ht _ => .ite ht.setClaim ht.post

theorem State.Canonical.execClaimRetry (h : s.Canonical) {p} : LeavesCanonical (execClaimRetry p s) := by
  unfold Machine.execClaimRetry
  refine .next ?_
  split
  · exact .ite h.sendClaim h
  · exact h

/-! ### Descriptors run (R219 to R225) -/

theorem State.Canonical.execDmaDescriptorStart (h : s.Canonical) {e} : LeavesCanonical (execDmaDescriptorStart e s) := by
  dsimp only [Machine.execDmaDescriptorStart]
  refine .next ?_
  split
  · exact h
  · exact .ite h (.ite h.setDmaHead (.ite (.ite h.setDmaHead h.setDmaHead.ask) h.setDmaHead))

theorem State.Canonical.dmaLocal (h : s.Canonical) {x run c} : (s.dmaLocal x run c).2.Canonical := by
  dsimp only [State.dmaLocal]
  split
  · exact h.writeAccess
  · split
    · exact h
    · exact h.readAccess.writeAccess
  · split
    · exact h
    · split
      · exact h
      · split
        · exact h
        · exact .ite h.readAccess.store.countDev h.readAccess.store

theorem State.Canonical.dmaRun (h : s.Canonical) {x mask l i} : (s.dmaRun x mask l i).Canonical := by
  induction l generalizing s i with
  | nil => exact h
  | cons c l ih => exact ih (.ite h.dmaLocal h)

theorem State.Canonical.dmaMove (h : s.Canonical) {e x} : (s.dmaMove e x).Canonical :=
  .ite h.dmaRun.setDmaHead h.takeFree.takeFree.dmaRun.setDmaHead

theorem State.Canonical.brimWrite (h : s.Canonical) {e dst n data} : MaybeCanonical (s.brimWrite e dst n data) :=
  .ite h.request h.request

theorem State.Canonical.brimSend (h : s.Canonical) {e x c} : MaybeCanonical (s.brimSend e x c).1 := by
  unfold State.brimSend
  extract_lets src dst n w r
  have hr : r.2.2.Canonical := h.readAccess
  split
  · dsimp only
    exact h.request
  · split
    · exact h.brimWrite
    · split
      · exact .none
      · split
        · dsimp only
          exact hr.request
        · exact hr.brimWrite

theorem State.Canonical.brimRun (h : s.Canonical) {e l} : (s.brimRun e l).Canonical := by
  induction l generalizing s with
  | nil =>
    unfold State.brimRun
    split
    · exact h.setDmaHead
    · exact h
  | cons c l ih =>
    unfold State.brimRun
    split
    · exact h
    · refine .ite h.setDmaHead ?_
      split
      · next hs => exact ih (MaybeCanonical.of_fst h.brimSend hs).setDmaHead
      · exact h
      · exact h.setDmaHead

theorem State.Canonical.dmaStep (h : s.Canonical) {e op} : (s.dmaStep e op).Canonical := by
  unfold State.dmaStep
  split
  · exact h
  refine .ite h ?_
  split
  · extract_lets c s1
    have h1 : s1.Canonical := .ite h.sendClaim h
    exact .ite (.ite h1.dmaMove h1.brimRun) h1
  · exact .ite h.dmaMove h.brimRun

theorem State.Canonical.dmaFail (h : s.Canonical) {x status} : (s.dmaFail x status).Canonical := by
  unfold State.dmaFail
  split
  · exact h.faultNotice.modCoreAt
  · exact h.faultNotice

theorem State.Canonical.dmaFinish (h : s.Canonical) {e x} : (s.dmaFinish e x).Canonical := by
  unfold State.dmaFinish
  extract_lets s0 s1 rec_ s2
  have h1 : s1.Canonical := by
    unfold s1
    split
    · exact .ite h.setDmaQ.endClaim h.setDmaQ
    · exact h.setDmaQ
  have hrec : rec_.2.Canonical := by
    unfold rec_
    split
    · exact h1.writeAccess
    · exact h1
  have h2 : s2.Canonical := by
    unfold s2
    split
    · exact hrec.countCore
    · exact hrec.latchEntry
  exact .ite h2 (.ite h2.dmaFail (.ite h2.dmaFail (.ite h2.semAdd h2)))

theorem State.Canonical.execDmaComplete (h : s.Canonical) {e} : LeavesCanonical (execDmaComplete e s) := by
  unfold Machine.execDmaComplete
  refine .next ?_
  split
  · exact h
  · exact .ite h.dmaFinish h

/-! ### The light path (R226 to R228) -/

theorem State.Canonical.decodeLite (h : s.Canonical) {p cmd} : (decodeLite p s cmd).Canonical :=
  .ite .stall (h.seqRead fun _ ht => .orFault (.ok (.ite ht.holdAct ht.setCore)))

theorem State.Canonical.execLiteDelivery (h : s.Canonical) {p} : LeavesCanonical (execLiteDelivery p s) := by
  dsimp only [Machine.execLiteDelivery]
  refine .next ?_
  split
  · exact h
  · refine .ite (.countCore (.setCore (.ite h.writeAccess.semAdd h.writeAccess))) ?_
    split
    · exact h
    · next e => exact (h.request _ e).setCore.countCore

theorem State.Canonical.execLiteResponse (h : s.Canonical) {p} : LeavesCanonical (execLiteResponse p s) := by
  dsimp only [Machine.execLiteResponse]
  refine .next ?_
  split
  · exact h
  · exact .ite h.setCore.warn h.setCore

/-! ### Semaphore commands (R229 to R231, R239, R244, R259) -/

theorem DecR.Canonical.semChecked {k : DecR} (hk : k.Canonical) {p field n} : (s.semChecked p field n k).Canonical :=
  .ite .fault (.ite .fault hk)

theorem State.Canonical.acquire (h : s.Canonical) {p eng n k} : (s.acquire p eng n k).Canonical := by
  unfold State.acquire
  extract_lets c s1
  have h1 : s1.Canonical := h.setCore
  exact .ite (.ite (.ok h.setCore) (.ok (.ite h1.ask h1))) (.ite (.ok h.setCore.pump) .stall)

theorem State.Canonical.releaseSem (h : s.Canonical) {p cmd eng n k} : (s.releaseSem p cmd eng n k).Canonical :=
  .ite (.ok h.holdAct) (.ite (.ok h.semAdd) (.ite (.ok h.setCore.pump) .stall))

theorem State.Canonical.putRet {k : State → DecR} (h : s.Canonical) (hk : ∀ t : State, t.Canonical → (k t).Canonical)
    {p off v} : (s.putRet p off v k).Canonical :=
  .ite .fault (hk _ h.wakeSpan.wrOwn)

theorem State.Canonical.modPair (h : s.Canonical) {leader f} : (s.modPair leader f).Canonical := h.frame

theorem State.Canonical.readSem (h : s.Canonical) {p n r} (e : s.readSem p n = some r) : r.2.Canonical := by
  dsimp only [State.readSem] at e
  split at e
  · exact Option.some.inj e ▸ h
  · exact Option.some.inj e ▸ h.setCore
  · split at e
    · exact nomatch e
    · exact Option.some.inj e ▸ .ite h.modPair.modCoreAt h.modPair

theorem State.Canonical.execSemRead (h : s.Canonical) {p} : LeavesCanonical (execSemRead p s) := by
  unfold Machine.execSemRead
  refine .next (h.decodeCmd fun _ ht _ => .semChecked ?_)
  split
  · exact .stall
  · next e => exact (ht.readSem e).putRet fun _ hu => .ok hu

/-! ### Grants (R260, R319 to R322) -/

theorem State.Canonical.pass (h : s.Canonical) {p eng} : (s.pass p eng).Canonical := h.modCoreAt.pumpAt

theorem State.Canonical.grantTo (h : s.Canonical) {n w} : (s.grantTo n w).Canonical := by
  unfold State.grantTo
  split
  · extract_lets s1
    have h1 : s1.Canonical := h.pass
    split
    · exact .ite h1.modPair (.ite h1.modPair.pass h1.modPair)
    · exact h1
  · extract_lets go s1
    have hgo {st : State} (ht : st.Canonical) (e : Nat) : (go st e).Canonical := by
      unfold go
      split
      · exact ht.setDmaHead
      · exact ht
    have h1 : s1.Canonical := hgo h _
    split
    · exact .ite (hgo h1 _) h1
    · exact h1
  · split
    · exact h.setSig
    · exact h

theorem State.Canonical.execSemGrant (h : s.Canonical) {n} : LeavesCanonical (execSemGrant n s) := by
  dsimp only [Machine.execSemGrant]
  refine .next ?_
  split
  · exact h
  · exact .ite (.grantTo (.ite h.frame.setSem.countCanton h.frame.setSem)) h

/-! ### Loops (R245) -/

theorem State.Canonical.decodeLoop (h : s.Canonical) {p cmd} : (decodeLoop p s cmd).Canonical := .orFault (.ok h.setCore)

theorem State.Canonical.decodeEndloop (h : s.Canonical) {p cmd} : (decodeEndloop p s cmd).Canonical := by
  dsimp only [Machine.decodeEndloop]
  refine .orFault ?_
  split
  · exact .stall
  · exact .ite (.ok h.setCore) (.ok h.setCore)

/-! ### STEP (R261, R446) -/

theorem State.Canonical.decodeStep (h : s.Canonical) {p cmd} : (decodeStep p s cmd).Canonical :=
  .orFault (.ite .stall (.ok h.setCore.frameStep))

theorem State.Canonical.execStepCmd (h : s.Canonical) {p} : LeavesCanonical (execStepCmd p s) := by
  dsimp only [Machine.execStepCmd]
  refine .next (.decodeCmd ?_ fun _ ht _ => ht.decodeStep)
  split
  · exact .ite h.setCore h
  · exact h

/-! ### Save maps (R307, R308) -/

theorem State.Canonical.readSaveMap (h : s.Canonical) {p} : (s.readSaveMap p).Canonical := by
  dsimp only [State.readSaveMap]
  split
  · exact h
  · exact .ite h.modCoreAt (.ite h.modCoreAt.warn h.modCoreAt)

/-! ### TILE.END (R264 to R267) -/

theorem State.Canonical.decodeTileEnd (h : s.Canonical) {p off cmd} : (decodeTileEnd p off s cmd).Canonical :=
  .orFault (.ok h.setCore)

theorem State.Canonical.tileLong (h : s.Canonical) {p cycles} : (s.tileLong p cycles).Canonical := .ite h.countCore.warn h

theorem State.Canonical.retireTile (h : s.Canonical) {p ord off takes} : (s.retireTile p ord off takes).Canonical := by
  unfold State.retireTile
  extract_lets c _ s1 _ s2
  have h1 : s1.Canonical := h.setCore.countCore.tileLong
  have h2 : s2.Canonical := .ite h1.setCore h1
  split
  · exact .ite h.setCore.fault (.ite h.setCore h.setCore.fault)
  · exact .ite h2.readSaveMap.latch h2

theorem State.Canonical.execTileEndRetire (h : s.Canonical) {p} : LeavesCanonical (execTileEndRetire p s) := by
  dsimp only [Machine.execTileEndRetire]
  refine .next ?_
  split
  · exact h
  · exact .ite h.retireTile h

/-! ### NOTE (R262) -/

theorem State.Canonical.noteNotice (h : s.Canonical) {p sev ucode payload} : (s.noteNotice p sev ucode payload).Canonical :=
  h.raise

theorem State.Canonical.decodeNote (h : s.Canonical) {p cmd} : (decodeNote p s cmd).Canonical :=
  .orFault (.ite .stall (.ite (.ok h.holdAct) (.ok h.noteNotice)))

/-! ### HALT (R263) -/

theorem State.Canonical.decodeHalt (h : s.Canonical) {p cmd} : (decodeHalt p s cmd).Canonical :=
  .orFault (.ok (.ite h.setCore.holdAct h.setCore))

theorem State.Canonical.execHaltComplete (h : s.Canonical) {p} : LeavesCanonical (execHaltComplete p s) := by
  dsimp only [Machine.execHaltComplete]
  refine .next (.ite h (.ite (.ite h h.setCore) ?_))
  split
  · exact h.fault
  · exact .ite h.countCanton h.setCore.tileLong.latch

/-! ### Held opcodes (R238, R243) -/

theorem State.Canonical.execCmdOpcode (h : s.Canonical) {p} : LeavesCanonical (execCmdOpcode p s) := by
  unfold Machine.execCmdOpcode
  refine .next ?_
  split
  · exact h
  · exact .ite h h.fault

end Sys2Proof.Machine
end

section
/-! SUPPORT. Canonical forms are kept by partitions, jobs and their tasks, borrowing and moves. -/

namespace Sys2Proof.Machine

variable {s : State}

/-! ### What a move rewrites (R302, R309) -/

theorem Move.structAt_wf {m : SMap Byte} (hm : Memory.wf m) (mv : Move) (node base kind off : Nat) :
    Memory.wf (mv.structAt node base kind off m) := by
  unfold Move.structAt
  split
  · exact writeMem_wf hm _ _ _
  · exact writeMem_wf hm _ _ _

/-- A fold over structures that keeps the places done beside memory. -/
theorem wf_foldl_snd {α β} {f : β × SMap Byte → α → β × SMap Byte} (hf : ∀ x a, Memory.wf x.2 → Memory.wf (f x a).2)
    (l : List α) {x : β × SMap Byte} (hx : Memory.wf x.2) : Memory.wf (l.foldl f x).2 := by
  induction l generalizing x with
  | nil => exact hx
  | cons a l ih => exact ih (hf _ a hx)

/-! ### VOP (R143) -/

/-- Rewriting what the commands of a ring name writes memory, structure by structure. -/
theorem Move.walk_wf {m : SMap Byte} (hm : Memory.wf m) (mv : Move) (node base n pos : Nat) (adv : List (List Int))
    (done : Done) : Memory.wf (mv.walk node base n pos adv done m) := by
  induction n generalizing m pos adv done with
  | zero => exact hm
  | succ n ih =>
    unfold Move.walk
    extract_lets cmd op m1 r
    have h1 : Memory.wf m1 := writeMem_wf hm _ _ _
    have hr : Memory.wf r.2 := by
      refine wf_foldl_snd (fun x a hx => ?_) _ h1
      split
      · exact hx
      · exact structAt_wf hx ..
    split
    · exact ih h1 ..
    · split
      · exact ih h1 ..
      · exact ih hr ..

theorem State.Canonical.rewriteCore (h : s.Canonical) {p mv} : (s.rewriteCore p mv).Canonical := by
  refine State.Canonical.modCoreAt ?_
  exact ⟨Move.walk_wf h.mem .., h.dict, h.dictP, h.sems, h.banks⟩

/-! ### Rings and completions (R501, R502, R507) -/

theorem State.Canonical.setRing (h : s.Canonical) {f off r} : (s.setRing f off r).Canonical := h.frame

theorem State.Canonical.msix (h : s.Canonical) {f vec} : (s.msix f vec).Canonical := .ite (.ite h h.frame) h.emit

theorem State.Canonical.ringSignal (h : s.Canonical) {f off} : (s.ringSignal f off).Canonical :=
  .ite h.setRing h.setRing.msix

theorem State.Canonical.ringPut (h : s.Canonical) {f off bytes v phase} : MaybeCanonical (s.ringPut f off bytes v phase) :=
  .ite .none (.some h.emit.setRing.ringSignal)

theorem State.Canonical.flushHeld (h : s.Canonical) {q n} : (s.flushHeld q n).Canonical := by
  induction n generalizing s with
  | zero => exact h
  | succ n ih =>
    unfold State.flushHeld
    split
    · exact h
    · split
      · exact h
      · next e => exact ih (h.ringPut _ e).frame

theorem State.Canonical.complete (h : s.Canonical) {q user handle code status task} :
    (s.complete q user handle code status task).Canonical :=
  h.frame.flushHeld

theorem State.Canonical.completeJob (h : s.Canonical) {j code status task} : (s.completeJob j code status task).Canonical :=
  h.complete

/-! ### Cores in service and their partitions (R12, R293, R297) -/

theorem State.Canonical.bumpRole (h : s.Canonical) {u} : (s.bumpRole u).Canonical := h.frame

theorem State.Canonical.grow (h : s.Canonical) {k n} : (s.grow k n).Canonical := by
  induction n generalizing s with
  | zero => exact h
  | succ n ih =>
    unfold State.grow
    split
    · exact ih h.setMapByte.bumpRole
    · exact h

theorem State.Canonical.growAll (h : s.Canonical) : s.growAll.Canonical := h.foldl fun _ ht _ => ht.grow

/-! ### HBM segments (R303, R304) -/

theorem State.Canonical.addSeg (h : s.Canonical) {k m} : (s.addSeg k m).Canonical := by
  dsimp only [State.addSeg]
  split
  · exact h
  · exact .ite h.frame.bumpRole h

theorem State.Canonical.dropSeg (h : s.Canonical) {g} : (s.dropSeg g).Canonical := h.frame.bumpRole

theorem State.Canonical.fitHbm (h : s.Canonical) {k} : (s.fitHbm k).Canonical := by
  unfold State.fitHbm
  extract_lets cfg want localOnly wrong s1 sts off on s2 short
  have h1 : s1.Canonical := h.foldl fun _ ht _ => ht.dropSeg
  have h2 : s2.Canonical := h1.foldl fun _ ht _ => ht.dropSeg
  refine .ite (h2.foldl fun _ ht _ => ?_) (h2.foldl fun _ ht _ => ht.addSeg)
  split
  · exact ht.addSeg
  · exact ht

theorem State.Canonical.applyPartition (h : s.Canonical) {k} : (s.applyPartition k).Canonical := h.grow.fitHbm

theorem State.Canonical.execPartitionCoreFreed (h : s.Canonical) {k} : LeavesCanonical (execPartitionCoreFreed k s) := by
  unfold Machine.execPartitionCoreFreed
  refine .next ?_
  split
  · exact h
  · exact h.setMapByte.bumpRole.growAll

/-! ### Semaphores and banks of a job (R244, R305; log 42) -/

theorem State.Canonical.giveSems (h : s.Canonical) {k l} : (s.giveSems k l).Canonical :=
  h.foldl fun _ ht _ => ⟨ht.mem, ht.dict, ht.dictP, sput_wf ht.sems _ _, ht.banks⟩

theorem State.Canonical.dropSems (h : s.Canonical) {l} : (s.dropSems l).Canonical := h.foldl fun _ ht _ => ht.frame

theorem State.Canonical.ownBank (h : s.Canonical) {k c b} : (s.ownBank k c b).Canonical := h.frame.bumpRole

theorem State.Canonical.giveBank (h : s.Canonical) {k c} : (s.giveBank k c).Canonical :=
  .ite (h.foldl fun _ ht _ => ht.ownBank) (.ite h (h.foldl fun _ ht _ => ht.ownBank))

theorem State.Canonical.dropBanks (h : s.Canonical) {k} : (s.dropBanks k).Canonical :=
  h.foldl fun _ ht _ => .ite ht.frame.bumpRole ht

/-! ### Cores cleared and given up -/

theorem State.Canonical.dropWaiters (h : s.Canonical) {p} : (s.dropWaiters p).Canonical := h.frame

theorem State.Canonical.releaseCore (h : s.Canonical) {p} : (s.releaseCore p).Canonical := h.dropWaiters.modCoreAt.bumpRole

theorem State.Canonical.clearScratch (h : s.Canonical) {p} : (s.clearScratch p).Canonical :=
  h.foldl fun _ ht _ => ht.loseBank.setBank

theorem State.Canonical.clearCore (h : s.Canonical) {p} : (s.clearCore p).Canonical := h.dropWaiters.modCoreAt.clearScratch

/-! ### Starting jobs (R298 to R300, R504, R505, R516) -/

theorem putCells_wf {m : SMap Byte} (hm : Memory.wf m) (l : List (Nat × Byte)) : Memory.wf (putCells m l) := by
  unfold putCells
  induction l generalizing m with
  | nil => exact hm
  | cons e l ih => exact ih (sput_wf hm _ _)

theorem State.Canonical.loadImage (h : s.Canonical) {p image n} : (s.loadImage p image n).Canonical := by
  unfold State.loadImage
  extract_lets cells s1 s2
  have h1 : s1.Canonical := h.clearScratch
  have h2 : s2.Canonical := ⟨putCells_wf h1.mem _, h1.dict, h1.dictP, h1.sems, h1.banks⟩
  exact h2.foldl fun _ ht _ => ht.setBank

theorem State.Canonical.assignTask (h : s.Canonical) {j t p} : (s.assignTask j t p).Canonical := h.giveSems.modJob

theorem State.Canonical.startTask (h : s.Canonical) {j ps fs t p e} : (s.startTask j ps fs t p e).Canonical :=
  h.bumpRole.loadImage.modCoreAt.rewriteCore.giveBank

theorem State.Canonical.addPair (h : s.Canonical) {job l f} : (s.addPair job l f).Canonical := h.frame

theorem State.Canonical.startUnit (h : s.Canonical) {j ps fs t} : (s.startUnit j ps fs t).Canonical := by
  dsimp only [State.startUnit]
  split
  · split
    · exact h.startTask.startTask.addPair
    · exact h.startTask
  · exact h

theorem State.Canonical.startTasks (h : s.Canonical) {j ps fs} : (s.startTasks j ps fs).Canonical := by
  dsimp only [State.startTasks]
  split
  · exact (h.foldl fun _ ht _ => ht.elim fun _ => ht.assignTask).foldl fun _ ht _ => ht.startUnit
  · exact h.foldl fun _ ht _ => ht.elim fun _ => ht.assignTask

theorem State.Canonical.openRun (h : s.Canonical) {j} : (s.openRun j).Canonical := .ite h.frame h

/-! ### Saving and restoring (R306 to R311) -/

theorem State.Canonical.moveSems (h : s.Canonical) {k m} : (s.moveSems k m).Canonical := by
  unfold State.moveSems
  refine .ite h (.foldl (h.giveSems.foldl fun _ ht _ => ?_) fun _ ht _ => ht.frame)
  exact ⟨ht.mem, ht.dict, ht.dictP, sput_wf (sput_wf ht.sems _ _) _ _, ht.banks⟩

theorem State.Canonical.restoreTask (h : s.Canonical) {p j sv moves} : (s.restoreTask p j sv moves).Canonical := by
  unfold State.restoreTask
  extract_lets s1 back m s2 _ s3 s4 s5
  have h1 : s1.Canonical := h.bumpRole.clearScratch
  have h2 : s2.Canonical := by
    refine .foldl ?_ fun _ ht _ => ht.setBank
    exact ⟨putCells_wf (putCells_wf h1.mem _) _, h1.dict, h1.dictP, h1.sems, h1.banks⟩
  have h4 : s4.Canonical := h2.modCoreAt.foldl fun _ ht _ => ht.rewriteCore
  exact h4.modCoreAt.giveBank.foldl fun _ ht _ => ht.submitDma

theorem State.Canonical.placeSaved (h : s.Canonical) {job t p} : (s.placeSaved job t p).Canonical := by
  unfold State.placeSaved
  extract_lets others
  split
  · exact h
  · split
    · exact h
    · split
      · exact h
      · exact .modJob (.ite h.moveSems.restoreTask (h.moveSems.restoreTask.foldl fun _ ht _ => ht.rewriteCore))

theorem State.Canonical.saveTask (h : s.Canonical) {p} : (s.saveTask p).Canonical := by
  dsimp only [State.saveTask]
  split
  · exact h
  · split
    · exact h
    · exact h.bumpRole.modJob.setDmaQ.dropWaiters.modCoreAt

theorem State.Canonical.saveUnit (h : s.Canonical) {p} : (s.saveUnit p).Canonical := by
  dsimp only [State.saveUnit]
  split
  · exact h.saveTask
  · exact h.saveTask.setDmaQ.releaseCore.frame

theorem State.Canonical.placePair (h : s.Canonical) {job t p f} : (s.placePair job t p f).Canonical := by
  dsimp only [State.placePair]
  split
  · exact h
  · split
    · exact h.placeSaved
    · exact h.placeSaved.restoreTask.addPair

theorem State.Canonical.placeUnit (h : s.Canonical) {job t p f} : (s.placeUnit job t p f).Canonical := by
  unfold State.placeUnit
  split
  · exact h.placePair
  · exact h.placeSaved

theorem State.Canonical.execStateRestore (h : s.Canonical) {p} : LeavesCanonical (execStateRestore p s) := by
  unfold Machine.execStateRestore
  refine .next ?_
  split
  · exact h
  · split
    · refine .ite h (.ite ?_ h.placeSaved)
      split
      · exact h.placePair
      · exact h
    · exact h

/-! ### Jobs end (R269, R325, R504, R507) -/

theorem State.Canonical.releaseCores (h : s.Canonical) {job} : (s.releaseCores job).Canonical :=
  (h.foldl fun _ ht _ => ht.releaseCore).frame.modJob

theorem State.Canonical.endJob (h : s.Canonical) {job} : (s.endJob job).Canonical := by
  dsimp only [State.endJob]
  split
  · exact h
  · exact (h.endFrames.releaseCores.foldl fun _ ht _ => ht.dropSems).frame.dropBanks

theorem State.Canonical.tryFinish (h : s.Canonical) {job} : (s.tryFinish job).Canonical := by
  unfold State.tryFinish
  split
  · exact h
  extract_lets s1 s2
  have h1 : s1.Canonical := .ite h h.completeJob
  have h2 : s2.Canonical := h1.modJob
  exact .ite h (.ite h.endJob (.ite (.ite h2.endJob h2) (.ite h.completeJob.endJob h)))

theorem State.Canonical.refillLatch (h : s.Canonical) {p} : (s.refillLatch p).Canonical := by
  unfold State.refillLatch
  split
  · exact h.frame.enterLatch
  · exact h

theorem State.Canonical.execCollectorTake (h : s.Canonical) : LeavesCanonical (execCollectorTake s) := by
  dsimp only [Machine.execCollectorTake]
  refine .next (h.frame.foldl fun _ ht _ => ?_)
  split
  · exact ht.frame.refillLatch
  · exact ht

theorem State.Canonical.trySuspended (h : s.Canonical) {job} : (s.trySuspended job).Canonical := by
  unfold State.trySuspended
  split
  · exact h
  · exact .ite h.modJob.completeJob h

theorem State.Canonical.execCompletionWrite (h : s.Canonical) : LeavesCanonical (execCompletionWrite s) := by
  unfold Machine.execCompletionWrite
  refine .next ?_
  split
  · exact h
  · split
    · exact h.frame
    · exact .ite h h.frame.modJob.trySuspended.tryFinish

theorem State.Canonical.execFaultedJobRelease (h : s.Canonical) {handle} :
    LeavesCanonical (execFaultedJobRelease handle s) := by
  unfold Machine.execFaultedJobRelease
  refine .next ?_
  split
  · exact h
  · exact .ite h.releaseCores.tryFinish h

/-! ### JOB_START and resumption (R298, R317, R504) -/

theorem State.Canonical.resumeJob (h : s.Canonical) {j} : MaybeCanonical (s.resumeJob j) := by
  dsimp only [State.resumeJob]
  split
  · exact .none
  · exact .some (h.foldl fun _ ht _ => ht.placeUnit).modJob.completeJob

theorem State.Canonical.startJob (h : s.Canonical) {j} : MaybeCanonical (s.startJob j) :=
  .map fun _ => h.modJob.startTasks.openRun

theorem State.Canonical.execJobStart (h : s.Canonical) {q} : LeavesCanonical (execJobStart q s) := by
  unfold Machine.execJobStart
  refine .next (.ite h ?_)
  split
  · exact h.resumeJob.getD h
  · split
    · exact h.startJob.getD h
    · exact h

/-! ### JOB_CTL (R317, R321, R507) -/

theorem State.Canonical.refuseCtl (h : s.Canonical) {f handle} : (s.refuseCtl f handle).Canonical := h.complete

theorem State.Canonical.jobCtl {k : Job → State} (h : s.Canonical) (hk : ∀ j, (k j).Canonical) {f v op ok} :
    (s.jobCtl f v op ok k).Canonical := by
  unfold State.jobCtl
  refine .ite h ?_
  split
  · exact h.refuseCtl
  · exact .ite (hk _) h.refuseCtl

theorem State.Canonical.needAll (h : s.Canonical) {job n} : (s.needAll job n).Canonical := h.frame

theorem State.Canonical.dropJobs (h : s.Canonical) {f} : (s.dropJobs f).Canonical :=
  h.frame.foldl fun _ ht _ => .ite ht.endJob ht.modJob.needAll.tryFinish

/-! ### Borrowing (R312 to R316) -/

theorem State.Canonical.execBorrowRequest (h : s.Canonical) : LeavesCanonical (execBorrowRequest s) := by
  dsimp only [Machine.execBorrowRequest]
  refine .next (.ite h ?_)
  split
  · exact h.frame
  · split
    · exact h
    · exact h.frame.modCoreAt

theorem State.Canonical.execBorrowHandover (h : s.Canonical) {p ns} : LeavesCanonical (execBorrowHandover p ns s) := by
  unfold Machine.execBorrowHandover
  refine .next ?_
  split
  · exact h
  refine .ite h ?_
  split
  · exact h
  extract_lets s1 s2
  have h1 : s1.Canonical := h.setMapByte.setMapByte.clearCore
  have h2 : s2.Canonical := h1.frame.bumpRole.incOd
  exact .ite h2.incOd.warn h2

theorem State.Canonical.execBorrowReturn (h : s.Canonical) {p} : LeavesCanonical (execBorrowReturn p s) := by
  dsimp only [Machine.execBorrowReturn]
  refine .next ?_
  split
  · exact h
  · exact .ite h h.setMapByte.setMapByte.clearCore.frame.bumpRole

/-! ### Moves (R301, R302) -/

theorem State.Canonical.moveCore (h : s.Canonical) {p q} : (s.moveCore p q).Canonical := by
  dsimp only [State.moveCore]
  split
  · exact h
  · split
    · exact h.setMapByte.frame.bumpRole
    · split
      · exact h.setMapByte.frame.saveTask.placeSaved
      · exact h.setMapByte.frame.bumpRole.modCoreAt.restoreTask

theorem State.Canonical.endStandIn (h : s.Canonical) {q r lent} : (s.endStandIn q r lent).Canonical :=
  .ite h.needCore h.moveCore.frame

theorem State.Canonical.shortCore (h : s.Canonical) {k l v} : (s.shortCore k l v).Canonical :=
  .warn (.setMapByte (.ite h.saveUnit h.bumpRole))

theorem State.Canonical.displace {settle : State → Nat → State} (h : s.Canonical)
    (hsettle : ∀ t : State, t.Canonical → ∀ x, (settle t x).Canonical) {c p} : (s.displace c p settle).Canonical := by
  unfold State.displace
  split
  · exact h
  refine .ite h.needCore (hsettle _ ?_ _)
  split
  · exact h.moveCore
  · exact h.shortCore

theorem State.Canonical.reassign (h : s.Canonical) {p} : (s.reassign p).Canonical := by
  dsimp only [State.reassign]
  split
  · split
    · exact h.endStandIn
    · exact .ite h.needCore (h.displace fun _ ht _ => ht.endStandIn)
  · refine .ite h ?_
    split
    · exact h.moveCore
    · exact h.displace fun _ ht _ => .ite ht ht.moveCore

end Sys2Proof.Machine
end

section
/-! SUPPORT. Canonical forms are kept by messages between nodes, fencing, leases, links and tunnels. -/

namespace Sys2Proof.Machine

variable {s : State}

/-! ### Requests served (R428, R442) -/

theorem State.Canonical.serve {k : State → State} (h : s.Canonical) (hk : ∀ t : State, t.Canonical → (k t).Canonical)
    {m ty} : (s.serve m ty k).Canonical :=
  .ite h (.ite h.await (.ite h.malformed (.ite h.consume.countDev.post (hk _ h.consume))))

theorem State.Canonical.gaddWords (h : s.Canonical) {who a w n} : (s.gaddWords who a w n).2.Canonical := by
  induction n generalizing s a w with
  | zero => exact h
  | succ n ih =>
    unfold State.gaddWords
    dsimp only
    split
    · exact h
    · split
      · exact h.readAccess
      · exact ih (.ite h.readAccess.store.countDev h.readAccess.store)

theorem State.Canonical.execClaim (h : s.Canonical) {m} : LeavesCanonical (execClaim m s) := by
  unfold Machine.execClaim
  refine .next (h.serve fun _ ht => ?_)
  split
  · exact ht.post
  · split
    · next e => exact (State.Canonical.of_snd ht.claimAt e).post
    · next e => exact (State.Canonical.of_snd ht.claimAt e).post
    · next e => exact .of_snd ht.claimAt e

/-! ### Fencing (R445 to R448) -/

theorem State.Canonical.tell (h : s.Canonical) {ty node job gen x step} : (s.tell ty node job gen x step).Canonical :=
  h.post

theorem State.Canonical.modRun (h : s.Canonical) {job f} : (s.modRun job f).Canonical := h.frame

theorem State.Canonical.removeDmas (h : s.Canonical) {job e} : (s.removeDmas job e).Canonical := by
  dsimp only [State.removeDmas]
  refine .ite h (.foldl (.setDmaQ ?_) fun _ ht _ => .ite ht.writeAccess ht)
  split
  · refine .ite (.frame ?_) h
    split
    · exact .ite h.endClaim h
    · exact h
  · exact h

theorem State.Canonical.fenceJob (h : s.Canonical) {r dropped} : (s.fenceJob r dropped).Canonical := by
  unfold State.fenceJob
  extract_lets cs s1 s2 s3 _ s4 s5
  have h1 : s1.Canonical := h.needAll.foldl fun _ ht _ => ht.bumpRole
  have h2 : s2.Canonical := h1.foldl fun _ ht _ => ht.removeDmas
  have h3 : s3.Canonical := h2.foldl fun _ ht _ => ht.modCoreAt
  have h4 : s4.Canonical := h3.frame
  have h5 : s5.Canonical := h4.modRun
  exact .ite h (h5.foldl fun _ ht _ => ht.tell)

theorem State.Canonical.dropNode (h : s.Canonical) {node} : (s.dropNode node).Canonical :=
  (h.foldl fun _ ht _ => ht.fenceJob).foldl fun _ ht _ => ht.toInbox

theorem State.Canonical.dropPort (h : s.Canonical) {port} : (s.dropPort port).Canonical := h.foldl fun _ ht _ => ht.dropNode

/-! ### Responses (R429, R430, R443, R444) -/

theorem State.Canonical.dropOutst (h : s.Canonical) {o} : (s.dropOutst o).Canonical := h.frame

theorem State.Canonical.finishReq (h : s.Canonical) {o code} : (s.finishReq o code).Canonical := by
  unfold State.finishReq
  extract_lets s1
  have h1 : s1.Canonical := h.dropOutst
  have hdma {e} : (match s1.dmaHead e with | some x => s1.setDmaHead e (x.answer code) | none => s1).Canonical := by
    split
    · exact h1.setDmaHead
    · exact h1
  split
  · exact h1.modCoreAt
  · exact hdma
  · exact hdma
  · exact hdma
  · refine .ite h1.setClaim (.ite h1.setClaim ?_)
    split
    · split
      · exact h1.setClaim.setDmaHead
      · exact h1
    · exact h1
  · exact h1

theorem State.Canonical.execRsp (h : s.Canonical) {m} : LeavesCanonical (execRsp m s) := by
  unfold Machine.execRsp
  refine .next (.ite h (h.take fun _ ht => ?_))
  split
  · exact ht.finishReq
  · exact ht

theorem State.Canonical.brimStore (h : s.Canonical) {x dst n data} : (s.brimStore x dst n data).2.Canonical := by
  dsimp only [State.brimStore]
  split
  · exact h.gaddWords
  · exact h.writeAccess

theorem State.Canonical.execReadData (h : s.Canonical) {m} : LeavesCanonical (execReadData m s) := by
  dsimp only [Machine.execReadData]
  refine .next (.ite h (h.take fun _ ht => ?_))
  split
  · exact ht
  · split
    · split
      · exact ht.brimStore.finishReq
      · exact ht.dropOutst
    · exact ht.dropOutst.request.getD ht
    · exact ht.finishReq

theorem State.Canonical.resend (h : s.Canonical) {o node unit gen} : (s.resend o node unit gen).Canonical := by
  dsimp only [State.resend]
  split
  · exact h
  · exact h.dropOutst.frame.post

theorem State.Canonical.execStaleRole (h : s.Canonical) {m r} : LeavesCanonical (execStaleRole m r s) := by
  unfold Machine.execStaleRole
  refine .next (.ite h (h.take fun _ ht => ?_))
  split
  · exact ht
  · refine .ite ht.finishReq ?_
    split
    · exact ht.finishReq
    · exact ht.resend
    · split
      · exact ht.fenceJob.dropOutst
      · exact ht.finishReq

theorem State.Canonical.execFreeMsg (h : s.Canonical) {m} : LeavesCanonical (execFreeMsg m s) := by
  unfold Machine.execFreeMsg
  refine .next (.ite h (h.take fun _ ht => ?_))
  split
  · exact ht
  · split
    · exact .ite ht.sendClaim ht
    · exact ht

/-! ### Leases and staged commit (R445, R446, R449, R450) -/

theorem State.Canonical.setPairVer (h : s.Canonical) {node v} : (s.setPairVer node v).Canonical := h.setOd

theorem State.Canonical.setLease (h : s.Canonical) {node w} : (s.setLease node w).Canonical := h.frame.modRun

theorem State.Canonical.commitStep (h : s.Canonical) {job k} : (s.commitStep job k).Canonical := h.modRun.frame

theorem State.Canonical.execStepDone (h : s.Canonical) {m} : LeavesCanonical (execStepDone m s) := by
  unfold Machine.execStepDone
  extract_lets job gen k
  refine .next ?_
  split
  · exact h
  split
  · exact h.take fun _ ht => ht
  extract_lets head
  refine .ite (.ite (h.take fun _ ht => ht) (.ite h h.tell)) (h.take fun s1 h1 => .ite h1 ?_)
  extract_lets
  exact .ite (h1.commitStep.foldl fun _ ht _ => ht.tell) h1.modRun

theorem State.Canonical.execCommit (h : s.Canonical) {m} : LeavesCanonical (execCommit m s) := by
  unfold Machine.execCommit
  refine .next (.ite h (h.take fun _ ht => ?_))
  split
  · exact .ite ht ht.commitStep
  · exact ht

theorem State.Canonical.execFence (h : s.Canonical) {m} : LeavesCanonical (execFence m s) := by
  unfold Machine.execFence
  refine .next (.ite h (h.take fun _ ht => ?_))
  split
  · exact ht.fenceJob
  · exact ht

theorem State.Canonical.rerunTask (h : s.Canonical) {j t step} : (s.rerunTask j t step).Canonical := by
  unfold State.rerunTask
  split
  · exact h
  split
  · exact h
  extract_lets u put s1 s2 s3
  have h1 : s1.Canonical := h.dropWaiters.startUnit.modCoreAt
  have h2 : s2.Canonical := .elim h1 fun _ => h1.modCoreAt
  have h3 : s3.Canonical := h2.foldl fun _ ht _ => ht.setSem
  exact h3.modJob

theorem State.Canonical.execFenceRecovery (h : s.Canonical) {run survivorHolds inputsSurvive} :
    LeavesCanonical (execFenceRecovery run survivorHolds inputsSurvive s) := by
  unfold Machine.execFenceRecovery
  refine .next ?_
  split
  · extract_lets s1 step gen s2
    have h1 : s1.Canonical := .ite h.commitStep h
    have h2 : s2.Canonical := h1.modJob.modRun
    exact .ite h (.ite h1.faultNotice.completeJob.endJob (h2.foldl fun _ ht _ => ht.rerunTask))
  · exact h

/-! ### Links (R432 to R436, R454) -/

theorem State.Canonical.linkDown (h : s.Canonical) {l} : (s.linkDown l).Canonical := h.setLink.dropPort

theorem State.Canonical.relane (h : s.Canonical) {l} : (s.relane l).Canonical :=
  .ite h (.ite h.countDev.linkDown (.ite h.setLink h.setLink.countDev))

theorem State.Canonical.replayLink (h : s.Canonical) {l} : (s.replayLink l).Canonical := by
  unfold State.replayLink
  extract_lets x s1 _ s2
  have h1 : s1.Canonical := h.foldl fun _ ht _ => ht.emit
  have h2 : s2.Canonical := h1.setLink
  exact .ite h2 h2.countDev

theorem State.Canonical.repair (h : s.Canonical) {l} : (s.repair l).Canonical := by
  dsimp only [State.repair]
  split
  · exact h
  · exact h.setLink.setPairVer

theorem State.Canonical.resumeLink (h : s.Canonical) {l} : (s.resumeLink l).Canonical := h.setLink.replayLink.linkPump

theorem State.Canonical.execLinkTraining (h : s.Canonical) {l t} : LeavesCanonical (execLinkTraining l t s) := by
  unfold Machine.execLinkTraining
  extract_lets cfg w _ x
  refine .next (.ite h (.ite h.linkDown.setLink.warn ?_))
  split
  · exact h.linkDown.setLink.warn
  · exact .ite (.ite h.linkDown.setLink h.setLink) (.ite h.setLink.repair.resumeLink h.setLink.setPairVer.linkPump)

theorem State.Canonical.arrive (h : s.Canonical) {port m} : (s.arrive port m).Canonical :=
  .ite h.toInbox.malformed h.toInbox

/-! ### Tunnels (R437 to R440) -/

theorem State.Canonical.tunTake (h : s.Canonical) {t seq l} : (s.tunTake t seq l).Canonical := by
  induction l generalizing s seq with
  | nil => exact h
  | cons d l ih => exact ih (.ite (h.setTun.foldl fun _ ht _ => ht.arrive) (.ite h.setTun h))

theorem State.Canonical.tunResend (h : s.Canonical) {t} : (s.tunResend t).Canonical := by
  unfold State.tunResend
  split
  · exact h
  · exact h.tunFrames

theorem State.Canonical.retrainAll (h : s.Canonical) : s.retrainAll.Canonical :=
  (h.foldl fun _ ht _ => .ite ht.setLink ht).foldl fun _ ht _ => .ite ht.tunResend ht

end Sys2Proof.Machine
end

section
/-! SUPPORT. Canonical forms are kept by signal cores. -/

namespace Sys2Proof.Machine

variable {s : State}

/-! ### Local memory (R342, R344) -/

theorem State.Canonical.sigLoad (h : s.Canonical) {g off n} : (s.sigLoad g off n).2.Canonical := by
  dsimp only [State.sigLoad]
  split
  · exact h
  · exact h.eccRead.wakeSpan

theorem State.Canonical.sigStore (h : s.Canonical) {g off n w} : (s.sigStore g off n w).Canonical := .ite h h.wakeSpan.wr

/-! ### Faults (R358) -/

theorem State.Canonical.sigStop (h : s.Canonical) {g} : (s.sigStop g).Canonical := h.frame.setSig

theorem State.Canonical.sigFault (h : s.Canonical) {g w pc code detail} : (s.sigFault g w pc code detail).Canonical :=
  h.sigStop.setSig.raise

theorem State.Canonical.sigRaise (h : s.Canonical) {g q} : (s.sigRaise g q).Canonical := h.setSig

/-! ### Issue (R345, R350, R358) -/

theorem SigR.Canonical.sigChecked {k : SigR} (hk : k.Canonical) {causes} : (sigChecked causes k).Canonical := by
  unfold Machine.sigChecked
  split
  · exact .fault
  · exact hk

theorem State.Canonical.fetchLine (h : s.Canonical) {g i} : (s.fetchLine g i).Canonical := by
  dsimp only [State.fetchLine]
  refine .ite h ?_
  split
  · exact h.setSig
  · exact h.sigLoad.setSig

theorem State.Canonical.sigWord (h : s.Canonical) {g pc} : (s.sigWord g pc).2.Canonical := by
  dsimp only [State.sigWord]
  split
  · exact h.fetchLine.fetchLine.fetchLine
  · exact h.takeFree

theorem State.Canonical.issue {k : State → Nat → SigR} (h : s.Canonical)
    (hk : ∀ t : State, t.Canonical → ∀ w, (k t w).Canonical) {g mine} : (s.issue g mine k).Canonical := by
  unfold State.issue
  refine .ite h (.ite h.takeFree.sigFault (.ite ?_ h))
  split
  · exact h
  · exact h.sigWord.sigFault
  · next e => exact hk _ h.sigWord.setSig _ _ e

/-! ### Vector memory (R342 to R344) -/

theorem State.Canonical.sigVmem (h : s.Canonical) {g w} : (sigVmem g s w).Canonical :=
  .sigChecked (.ite (.ok h.sigLoad.setSig) (.ok h.sigStore.setSig))

theorem State.Canonical.sigVld2 (h : s.Canonical) {g w} : (sigVld2 g s w).Canonical :=
  .sigChecked (.ok h.sigLoad.sigLoad.setSig)

/-! ### Multiply-accumulate (R333 to R336) -/

theorem State.Canonical.sigMac (h : s.Canonical) {g w} : (sigMac g s w).Canonical := .sigChecked (.ok h.setSig)

theorem State.Canonical.sigCmacm (h : s.Canonical) {g w} : (sigCmacm g s w).Canonical :=
  .sigChecked (.ok h.sigLoad.sigLoad.setSig)

/-! ### Accumulators (R337 to R339) -/

theorem State.Canonical.sigAccsum (h : s.Canonical) {g w} : (sigAccsum g s w).Canonical := .sigChecked (.ok h.setSig)

theorem State.Canonical.sigAccclr (h : s.Canonical) {g w} : (sigAccclr g s w).Canonical := .sigChecked (.ok h.setSig)

theorem State.Canonical.sigAccst (h : s.Canonical) {g w} : (sigAccst g s w).Canonical := .sigChecked (.ok h.setSig)

theorem State.Canonical.sigAccsv (h : s.Canonical) {g w} : (sigAccsv g s w).Canonical := .sigChecked (.ok h.sigStore)

theorem State.Canonical.sigAccrs (h : s.Canonical) {g w} : (sigAccrs g s w).Canonical := .sigChecked (.ok h.sigLoad.setSig)

/-! ### VALU (R340) -/

theorem State.Canonical.sigValu (h : s.Canonical) {g w} : (sigValu g s w).Canonical := by
  dsimp only [Machine.sigValu]
  refine .sigChecked ?_
  split
  · exact .ok h.setSig
  · exact .ok h.setSig
  · exact .ok h.setSig
  · exact .ok h.setSig
  · exact .ok h.setSig
  · exact .ok h.setSig

/-! ### Scalars (R341, R342, R351) -/

theorem State.Canonical.sigAalu (h : s.Canonical) {g w} : (sigAalu g s w).Canonical := .sigChecked (.ok h.setSig)

theorem State.Canonical.sigScalar (h : s.Canonical) {g w} : (sigScalar g s w).Canonical :=
  .sigChecked (.ite (.ok h.sigLoad.setSig) (.ok h.sigStore))

theorem State.Canonical.sigMove (h : s.Canonical) {g w} : (sigMove g s w).Canonical := by
  dsimp only [Machine.sigMove]
  refine .sigChecked ?_
  split
  · exact .ok h.setSig
  · exact .ok h.setSig
  · exact .ok h.setSig
  · exact .ok h.setSig

/-! ### Control (R350, R352 to R354) -/

theorem State.Canonical.sigBr (h : s.Canonical) {g w} : (sigBr g s w).Canonical := by
  dsimp only [Machine.sigBr]
  split
  · exact .fault
  · exact .ok h.setSig
  · exact .ok h

theorem State.Canonical.sigBrl (h : s.Canonical) {g w} : (sigBrl g s w).Canonical := .sigChecked (.ok h.setSig)

theorem State.Canonical.sigJr (h : s.Canonical) {g w} : (sigJr g s w).Canonical := .sigChecked (.ok h.setSig)

theorem State.Canonical.sigWait (h : s.Canonical) {g w} : (sigWait g s w).Canonical := .sigChecked (.ok h.setSig)

theorem State.Canonical.sigRti (h : s.Canonical) {g w} : (sigRti g s w).Canonical := .sigChecked (.ok h.setSig)

theorem State.Canonical.sigHalt (h : s.Canonical) {g w} : (sigHalt g s w).Canonical := .sigChecked (.ok h.sigStop)

theorem State.Canonical.sigBody (h : s.Canonical) {g w} : (sigBody g s w).Canonical := by
  unfold Machine.sigBody
  split
  · exact h.sigVmem
  · exact h.sigVmem
  · exact h.sigVld2
  · exact h.sigAccsum
  · exact h.sigMac
  · exact h.sigCmacm
  · exact h.sigMac
  · exact h.sigMac
  · exact h.sigAccclr
  · exact h.sigAccst
  · exact h.sigValu
  · exact h.sigAalu
  · exact h.sigAalu
  · exact h.sigScalar
  · exact h.sigScalar
  · exact h.sigMove

theorem State.Canonical.sigIterate (h : s.Canonical) {g w pc n} : (sigIterate g w pc n s).Canonical := by
  induction n generalizing s with
  | zero => exact h
  | succ n ih =>
    unfold Machine.sigIterate
    split
    · next e => exact ih (h.sigBody _ e)
    · exact h.sigFault
    · exact h

/-! ### POST and semaphores (R346 to R349) -/

theorem State.Canonical.sigPost (h : s.Canonical) {others g w} : (sigPost others g s w).Canonical :=
  .sigChecked (.ite .stall (.ok h.postWrite.setSig))

theorem SigR.Canonical.sigSem {k : SigR} (hk : k.Canonical) {w} : (sigSem s w k).Canonical := hk.sigChecked

theorem State.Canonical.sigSacq (h : s.Canonical) {g w} : (sigSacq g s w).Canonical := .sigSem (.ok h.setSig.ask)

theorem State.Canonical.sigSrel (h : s.Canonical) {g w} : (sigSrel g s w).Canonical := .sigSem (.ite (.ok h.semAdd) .stall)

/-! ### REP (R352 to R354, R358) -/

theorem State.Canonical.sigUnrepeated (h : s.Canonical) {g w} : (sigUnrepeated g s w).Canonical := by
  unfold Machine.sigUnrepeated
  split
  · exact h.sigAccsv
  · exact h.sigAccrs
  · exact h.sigMove
  · exact h.sigBr
  · exact h.sigBrl
  · exact h.sigJr
  · exact h.sigWait
  · exact h.sigRti
  · exact h.sigHalt
  · exact h.sigPost
  · exact h.sigSacq
  · exact h.sigSrel
  · exact .ite .fault (.ok h)

theorem State.Canonical.sigRep (h : s.Canonical) {g w} : (sigRep g s w).Canonical := by
  dsimp only [Machine.sigRep]
  refine .sigChecked (.ite (.ok h.takeFree.sigFault) ?_)
  split
  · exact .ok h.sigWord.sigFault
  · exact .ite .fault (.ok h.sigWord.setSig.sigIterate)

/-! ### Other steps of a signal core -/

theorem State.Canonical.execPostResponse (h : s.Canonical) {g} : LeavesCanonical (execPostResponse g s) := by
  dsimp only [Machine.execPostResponse]
  refine .next ?_
  split
  · exact h
  · exact .ite h.setSig h.setSig.sigFault

end Sys2Proof.Machine
end

section
/-! SUPPORT. Canonical forms are kept by the far-reach link, the cells and their slots. -/

namespace Sys2Proof.Machine

variable {s : State}

/-! ### The drift ledger (R413) -/

theorem State.Canonical.setLedger (h : s.Canonical) {i w} : (s.setLedger i w).Canonical := h.wr

theorem State.Canonical.loseNode (h : s.Canonical) {i} : (s.loseNode i).Canonical := h.setLedger.warn

/-! ### Frames in reception (R399 to R402, R409) -/

theorem State.Canonical.modRx (h : s.Canonical) {m bw f} : (s.modRx m bw f).Canonical := h.frame

theorem State.Canonical.execFrameDetect (h : s.Canonical) {m bw shifts start} :
    LeavesCanonical (execFrameDetect m bw shifts start s) := by
  dsimp only [Machine.execFrameDetect]
  refine .next ?_
  split
  · exact h
  · exact .ite h (.ite h.countDev (.ite h h.frame))

/-! ### Transmission (R411, R412) -/

theorem State.Canonical.sendFrame (h : s.Canonical) {m bw coded} : (s.sendFrame m bw coded).Canonical := h.frame.emit

theorem State.Canonical.txStatus (h : s.Canonical) {addr e status sent} : (s.txStatus addr e status sent).Canonical :=
  h.emit.emit

theorem State.Canonical.sendEntry (h : s.Canonical) {addr e} : (s.sendEntry addr e).Canonical := by
  dsimp only [State.sendEntry]
  split
  · exact h.txStatus
  · exact h.sendFrame.txStatus

theorem State.Canonical.sendDeferred (h : s.Canonical) : s.sendDeferred.Canonical := by
  dsimp only [State.sendDeferred]
  refine .ite ?_ h
  split
  · exact h
  · exact h.frame.sendEntry

theorem State.Canonical.dropRx (h : s.Canonical) {m bw} : (s.dropRx m bw).Canonical := h.frame.sendDeferred

theorem State.Canonical.execFrTransmit (h : s.Canonical) {e} : LeavesCanonical (execFrTransmit e s) := by
  unfold Machine.execFrTransmit
  extract_lets w r addr start s1
  have h1 : s1.Canonical := h.setRing
  exact .next (.ite h (.ite h1.txStatus (.ite h1.txStatus (.ite h (.ite h1.txStatus
    (.ite h1.frame.countDev (.ite h h1.sendEntry)))))))

theorem State.Canonical.execFrameConfirm (h : s.Canonical) {m bw shifts downs} :
    LeavesCanonical (execFrameConfirm m bw shifts downs s) := by
  dsimp only [Machine.execFrameConfirm]
  refine .next ?_
  split
  · exact h
  · exact .ite h (.ite h.modRx h.dropRx)

/-! ### Soft symbol records (R401 to R405) -/

theorem State.Canonical.execSymbolDemod (h : s.Canonical) {m bw energies clipped total} :
    LeavesCanonical (execSymbolDemod m bw energies clipped total s) := by
  dsimp only [Machine.execSymbolDemod]
  refine .next ?_
  split
  · exact h
  · exact .ite h (.ite h.frame.modRx.countDev h.frame.modRx)

theorem State.Canonical.execFrLearnedLate (h : s.Canonical) {m bw} : LeavesCanonical (execFrLearnedLate m bw s) := by
  unfold Machine.execFrLearnedLate
  refine .next ?_
  split
  · exact h
  · exact .ite h.modRx.countDev h

theorem State.Canonical.execPilotTrack (h : s.Canonical) {m bw freqEighths timeEighths} :
    LeavesCanonical (execPilotTrack m bw freqEighths timeEighths s) := by
  unfold Machine.execPilotTrack
  refine .next ?_
  split
  · exact h
  · exact .ite h (.ite h.dropRx.countDev h.modRx)

/-! ### Decoding (R397, R406, R418) -/

theorem State.Canonical.deliver (h : s.Canonical) {recs m bw node arrival learned} :
    (s.deliver recs m bw node arrival learned).Canonical := by
  dsimp only [State.deliver]
  split
  · next e => exact h.takeFree.ringPut _ e
  · exact h.takeFree.countDev

theorem State.Canonical.takeRecord (h : s.Canonical) {addr epoch w} : (s.takeRecord addr epoch w).Canonical := by
  dsimp only [State.takeRecord]
  split
  · exact h.frame
  · exact .ite h.countDev h.frame

theorem State.Canonical.execFrameEnd (h : s.Canonical) {m bw} : LeavesCanonical (execFrameEnd m bw s) := by
  unfold Machine.execFrameEnd
  refine .next ?_
  split
  · exact h
  refine .ite h ?_
  split
  · exact h.dropRx.deliver
  extract_lets e g s1
  have h1 : s1.Canonical := h.dropRx.foldl fun _ ht _ => ht.takeRecord
  exact .ite h.dropRx.deliver (.ite h1.frame (h.dropRx.foldl fun _ ht _ => ht.emit))

theorem State.Canonical.execCombineRecord (h : s.Canonical) {addr epoch r} :
    LeavesCanonical (execCombineRecord addr epoch r s) := by
  dsimp only [Machine.execCombineRecord]
  refine .next ?_
  split
  · exact h.countDev
  · exact .ite h.countDev h.takeRecord

theorem State.Canonical.execCombineWait (h : s.Canonical) {addr epoch} :
    LeavesCanonical (execCombineWait addr epoch s) := by
  dsimp only [Machine.execCombineWait]
  refine .next ?_
  split
  · exact h
  · split
    · exact h
    · exact h.takeFree.frame.deliver

/-! ### Sleeping nodes (R414 to R417) -/

theorem State.Canonical.execOccurrenceEnd (h : s.Canonical) {i} : LeavesCanonical (execOccurrenceEnd i s) := by
  dsimp only [Machine.execOccurrenceEnd]
  refine .next ?_
  split
  · exact h
  · exact .ite h (.ite h.frame.setLedger (.ite h.frame.setLedger.loseNode h.frame.setLedger))

/-! ### Cells -/

theorem State.Canonical.setCell (h : s.Canonical) {c x} : (s.setCell c x).Canonical := h.frame

theorem State.Canonical.raiseAll (h : s.Canonical) {q} : (s.raiseAll q).Canonical := h.frame

theorem State.Canonical.openSlot (h : s.Canonical) {b c} : (s.openSlot b c).Canonical := .ite h.setCell h

/-! ### Fronthaul ingest (R364 to R368) -/

theorem State.Canonical.putPrb (h : s.Canonical) {core base i p} : (s.putPrb core base i p).Canonical :=
  (h.foldl fun _ ht _ => ht.wr).wr

theorem State.Canonical.setStream (h : s.Canonical) {x} : (s.setStream x).Canonical := h.frame

theorem State.Canonical.uSection (h : s.Canonical) {core f u} : (s.section core f u).Canonical :=
  .ite h.countDev (.ite h.countDev (h.foldl fun _ ht _ => ht.putPrb).frame.setStream)

theorem State.Canonical.compareDigest (h : s.Canonical) {c eaxc sym} : (s.compareDigest c eaxc sym).Canonical := by
  unfold State.compareDigest
  extract_lets x done wasFrozen run s1 s2 _ s1'
  have h1 : s1.Canonical := h.setStream
  have h2 : s2.Canonical := h1.setOd.raise
  have hs1' : s1'.Canonical := h.setStream
  exact .ite h.setStream (.ite (.ite h2.setCell h1) (.ite hs1'.frame.raise hs1'))

theorem State.Canonical.execUPlaneFrame (h : s.Canonical) {f} : LeavesCanonical (execUPlaneFrame f s) := by
  unfold Machine.execUPlaneFrame
  refine .next (.ite h.countDev ?_)
  split
  · exact h.countDev
  extract_lets s1 s2
  have h1 : s1.Canonical := h.foldl fun _ ht _ => ht.uSection
  have h2 : s2.Canonical := h1.compareDigest
  refine .ite h.countDev (.ite ?_ h1)
  split
  · exact h2.sigRaise
  · exact h2

/-! ### S1's output (R367 to R370) -/

theorem State.Canonical.closeS1 (h : s.Canonical) {c f slot} : (s.closeS1 c f slot).Canonical := by
  dsimp only [State.closeS1]
  refine .ite h (h.takeFree.frame.foldl fun _ ht _ => ?_)
  split
  · split
    · exact ht.setSig
    · exact ht
  · exact ht

/-! ### Slot results (R371, R377, R383, R509) -/

theorem State.Canonical.radioPut (h : s.Canonical) {rec} : (s.radioPut rec).Canonical := by
  unfold State.radioPut
  refine .ite ?_ (.ite h.emit.emit h.countDev)
  split
  · next e => exact h.ringPut _ e
  · exact h.countDev

theorem State.Canonical.undoHarq (h : s.Canonical) {c f j} : (s.undoHarq c f j).Canonical :=
  h.foldl fun _ ht _ => .ite ht.wr ht

theorem State.Canonical.dropSlotData (h : s.Canonical) {c f j} : (s.dropSlotData c f j).Canonical := h.frame

theorem State.Canonical.prune (h : s.Canonical) {c} : (s.prune c).Canonical := h.setCell

theorem State.Canonical.writeRecord (h : s.Canonical) {c r crc ntb base} : (s.writeRecord c r crc ntb base).Canonical :=
  h.radioPut.setCell.dropSlotData.prune

theorem State.Canonical.flushFailed (h : s.Canonical) {c n} : (s.flushFailed c n).Canonical := by
  induction n generalizing s with
  | zero => exact h
  | succ n ih =>
    unfold State.flushFailed
    split
    · exact .ite (ih h.takeFree.takeFree.writeRecord) h
    · exact h

theorem State.Canonical.modSlot (h : s.Canonical) {c r f} : (s.modSlot c r f).Canonical := h.setCell

theorem State.Canonical.failSlot (h : s.Canonical) {c r stage} : (s.failSlot c r stage).Canonical :=
  .ite h h.undoHarq.modSlot.info.setCell.flushFailed

theorem State.Canonical.declare (h : s.Canonical) {c r k early} : (s.declare c r k early).Canonical := by
  unfold State.declare
  extract_lets cfg s0 s1 s2 x more s3 r' s4
  have h0 : s0.Canonical := h.closeS1
  have h1 : s1.Canonical := h0.warn
  have h2 : s2.Canonical := h1.modSlot
  have h3 : s3.Canonical := h2.setCell
  have h4 : s4.Canonical := h3.modSlot.info
  exact .ite h3.failSlot h4.setCell

/-! ### Stage windows (R373 to R379) -/

theorem State.Canonical.execWindowTake (h : s.Canonical) {c k} : LeavesCanonical (execWindowTake c k s) := by
  unfold Machine.execWindowTake
  extract_lets n s'
  have h' : s'.Canonical := h.setSem.countDev
  refine .next (.ite h (.ite h'.setCell ?_))
  split
  · exact h
  extract_lets s0 s1 t took r' s2
  have h0 : s0.Canonical := .ite h.closeS1 h
  have h1 : s1.Canonical := h0.setSem
  have htook : took.Canonical := h1.modSlot
  have h2 : s2.Canonical := h1.declare.countDev
  exact .ite htook.declare (.ite htook.prune h2.setCell)

theorem State.Canonical.execWindow (h : s.Canonical) {c k} : LeavesCanonical (execWindow c k s) := by
  unfold Machine.execWindow
  refine .next ?_
  split
  · exact h
  · exact .ite h.modSlot.raiseAll h

theorem State.Canonical.execStageLate (h : s.Canonical) {c k} : LeavesCanonical (execStageLate c k s) := by
  unfold Machine.execStageLate
  refine .next ?_
  split
  · exact h
  · exact .ite h.declare h

theorem State.Canonical.execFbLatest (h : s.Canonical) {c} : LeavesCanonical (execFbLatest c s) := by
  unfold Machine.execFbLatest
  refine .next ?_
  split
  · exact h
  · split
    · exact .ite h.failSlot h
    · exact h

theorem State.Canonical.execSlotResultRecord (h : s.Canonical) {c r} : LeavesCanonical (execSlotResultRecord c r s) := by
  unfold Machine.execSlotResultRecord
  refine .next ?_
  split
  · exact h
  · exact .ite h.failSlot h.writeRecord.flushFailed

/-! ### Code engines (R384 to R389) -/

theorem State.Canonical.execCodeBlockDecode (h : s.Canonical) {b} : LeavesCanonical (execCodeBlockDecode b s) := by
  unfold Machine.execCodeBlockDecode
  extract_lets n gone old soft x s1 _ s2 s3 d
  have h1 : s1.Canonical := .ite h h.writeAccess
  have h2 : s2.Canonical := .ite h1 h1.frame
  have h3 : s3.Canonical := .ite h2 h2.countDev
  exact .next (.ite h h3.emit)

end Sys2Proof.Machine
end

section
/-! SUPPORT. Canonical forms are kept by the timebase and field ports, the dictionary's service, rings, notices and function resets. -/

namespace Sys2Proof.Machine

variable {s : State}

/-! ### The timebase (R459, R462 to R465) -/

theorem State.Canonical.ppsEdge (h : s.Canonical) {old} : (s.ppsEdge old).Canonical := .ite h (.ite h.countDev h.frame)

theorem State.Canonical.setNow (h : s.Canonical) {v} : (s.setNow v).Canonical := h.frame.ppsEdge

theorem State.Canonical.execTbAdjustApply (h : s.Canonical) : LeavesCanonical (execTbAdjustApply s) := by
  dsimp only [Machine.execTbAdjustApply]
  refine .next (.ite h ?_)
  split
  · exact h
  · split
    · exact h.frame.setNow
    · exact h.frame.setNow
    · exact h.frame.setNow

/-! ### Field ports (R468 to R473) -/

theorem State.Canonical.execPortLinkUp (h : s.Canonical) {q speed bypassed} :
    LeavesCanonical (execPortLinkUp q speed bypassed s) := by
  dsimp only [Machine.execPortLinkUp]
  refine .next ?_
  split
  · exact h
  · exact h.frame.setOd

theorem State.Canonical.servoOffset (h : s.Canonical) {d} : (s.servoOffset d).Canonical := h.frame

theorem State.Canonical.ringTaken (h : s.Canonical) {f off} : (s.ringTaken f off).Canonical := h.setRing.ringSignal

theorem State.Canonical.pktReceive (h : s.Canonical) {f stamp} : (s.pktReceive f stamp).Canonical :=
  .ite h.countDev h.emit.emit.ringTaken

theorem State.Canonical.ingressStamp (h : s.Canonical) {f} : (s.ingressStamp f).2.Canonical := by
  dsimp only [State.ingressStamp]
  split
  · exact h
  · exact h.takeFree

theorem State.Canonical.execFieldPortFrame (h : s.Canonical) {f} : LeavesCanonical (execFieldPortFrame f s) := by
  dsimp only [Machine.execFieldPortFrame]
  refine .next ?_
  split
  · exact h.ingressStamp.pktReceive
  · exact .ite h.ingressStamp.emit.takeFree.servoOffset h.ingressStamp.emit
  · exact h.ingressStamp.emit

theorem State.Canonical.execPktTxSend (h : s.Canonical) {t} : LeavesCanonical (execPktTxSend t s) := by
  unfold Machine.execPktTxSend
  extract_lets off _ _ _ fin
  refine .next (.ite h ?_)
  have hfin {st : State} (ht : st.Canonical) (status : Nat) (stamp : Option Nat) : (fin st status stamp).Canonical :=
    ht.emit.ringTaken
  exact .ite (hfin h 3 none) (.ite (hfin h 4 none) (.ite (hfin h.emit 0 none) (.ite (hfin h.emit 0 _)
    (.ite (hfin h.emit 0 _) (.ite (hfin h.emit 0 _) (hfin h.emit 2 _))))))

/-! ### What an accepted write does -/

theorem State.Canonical.sigControl (h : s.Canonical) {g v} : (s.sigControl g v).Canonical :=
  .ite (.ite h h.setSig) h.sigStop.setSig

theorem State.Canonical.askBanks (h : s.Canonical) {b0 n v} : (s.askBanks b0 n v).Canonical :=
  h.frame.foldl fun _ ht _ => ht.setBank

theorem State.Canonical.trainLink (h : s.Canonical) {l} : (s.trainLink l).Canonical := h.setLink

theorem State.Canonical.trainAll (h : s.Canonical) : s.trainAll.Canonical :=
  (h.foldl fun _ ht _ => .ite ht.trainLink ht).foldl fun _ ht _ => .ite ht.setTun ht

theorem State.Canonical.linkWritten (h : s.Canonical) {l old} : (s.linkWritten l old).Canonical :=
  .ite (.ite h.linkDown h) (.ite h.trainLink h.relane)

theorem State.Canonical.cellWritten (h : s.Canonical) {c v} : (s.cellWritten c v).Canonical :=
  .ite h.setCell (.ite h.setCell h)

theorem State.Canonical.frWritten (h : s.Canonical) {old v} : (s.frWritten old v).Canonical :=
  .ite (.ite h h.frame) (h.frame.foldl fun _ ht _ => ht.txStatus)

theorem State.Canonical.firmware (h : s.Canonical) {v} : (s.firmware v).Canonical := by
  dsimp only [State.firmware]
  split
  · exact h.setOd
  · exact h.frame
  · exact h.frame.setOd
  · exact h.frame
  · exact h

theorem State.Canonical.odApply (h : s.Canonical) {index sub v} : (s.odApply index sub v).Canonical := by
  dsimp only [State.odApply]
  split
  · exact .ite h.holdCan.setOd h.setOd
  · exact .ite (.ite h.frame h) h.setOd
  · exact h.modCoreAt
  · split
    · exact h.setSig
    · exact h
  · split
    · exact h.sigControl
    · exact h
  · exact h.setOd.askBanks
  · exact h.setOd.askBanks
  · exact h.setOd.askBanks
  · exact h.setOd.applyPartition
  · exact h.setOd
  · split
    · exact h.setOd.cellWritten
    · exact h.setOd
  · exact .ite h.setOd.frWritten h.setOd
  · exact h.setOd.trainAll
  · split
    · exact h.setOd.linkWritten
    · exact h.setOd
  · split
    · exact h.setOd.setTun
    · exact h.setOd
  · split
    · exact h.setOd.frame
    · exact h.frame
    · exact h.frame
    · exact h.setOd
  · exact .ite h.firmware h.setOd
  · exact .ite h.frame h.setOd

/-! ### Replies and the service -/

theorem State.Canonical.setMailbox (h : s.Canonical) {f m} : (s.setMailbox f m).Canonical := by
  dsimp only [State.setMailbox]
  split
  · exact h.frame
  · exact h.frame

theorem State.Canonical.reply (h : s.Canonical) {to_ index sub err len value} :
    (s.reply to_ index sub err len value).Canonical := by
  dsimp only [State.reply]
  split
  · exact h.emit
  · exact .ite h.setMailbox h
  · exact h.emit
  · exact h.post

theorem State.Canonical.odWrite (h : s.Canonical) {by_ to_ index sub len v} :
    (s.odWrite by_ to_ index sub len v).Canonical :=
  .ite h.reply (.ite h.odApply.frame h.odApply.reply)

/-! ### One access -/

theorem State.Canonical.mailAccess (h : s.Canonical) {f cmd data} : (s.mailAccess f cmd data).Canonical :=
  .ite h.odWrite h.reply

theorem State.Canonical.setXfer (h : s.Canonical) {p x} : (s.setXfer p x).Canonical := h.frame.freeCan

theorem State.Canonical.answer (h : s.Canonical) {p req f err} : (s.answer p req f err).Canonical := h.reply

theorem State.Canonical.sendBlock (h : s.Canonical) {p req x seq n} : (s.sendBlock p req x seq n).2.Canonical := by
  induction n generalizing s seq with
  | zero => exact h
  | succ n ih =>
    unfold State.sendBlock
    dsimp only
    split
    · exact h
    · exact ih h.emit

theorem State.Canonical.takeSegment (h : s.Canonical) {p req x f} : (s.takeSegment p req x f).Canonical :=
  .ite h.setXfer.answer (.ite h.setXfer.odWrite (.ite h.setXfer.emit h.setXfer))

theorem State.Canonical.openFrame (h : s.Canonical) {p req f} : (s.openFrame p req f).Canonical := by
  dsimp only [State.openFrame]
  split
  · exact .ite h.answer (.ite h.reply h.setXfer.emit)
  · exact .ite h.answer (.ite h.answer h.odWrite)
  · exact .ite h.answer h.setXfer.answer
  · exact h
  · exact h.answer

theorem State.Canonical.frameAccess (h : s.Canonical) {p req f} : (s.frameAccess p req f).Canonical := by
  dsimp only [State.frameAccess]
  split
  · exact h.openFrame
  · exact .ite h.setXfer (.ite h.takeSegment (.ite h.sendBlock.setXfer h.answer))

theorem State.Canonical.mgmtAccess (h : s.Canonical) {hdr node f} : (s.mgmtAccess hdr node f).Canonical := by
  dsimp only [State.mgmtAccess]
  split
  · exact h.reply
  · exact .ite h.reply h.odWrite
  · exact .ite h.reply h

theorem State.Canonical.perform (h : s.Canonical) {a} : (s.perform a).Canonical := by
  unfold State.perform
  split
  · exact h.odWrite
  · exact h.mailAccess
  · exact h.frameAccess
  · exact h.mgmtAccess

theorem State.Canonical.access (h : s.Canonical) {a} : (s.access a).Canonical := .ite h (.ite h.frame h.perform)

theorem State.Canonical.write (h : s.Canonical) {by_ index sub v} : (s.write by_ index sub v).Canonical := h.access

/-! ### CAN and in-band frames -/

theorem State.Canonical.frameRow (h : s.Canonical) {cmd p f} : (s.frameRow cmd p f).Canonical := .ite h.access h

theorem State.Canonical.execTransferTimeout (h : s.Canonical) {path} : LeavesCanonical (execTransferTimeout path s) := by
  unfold Machine.execTransferTimeout
  refine .next ?_
  split
  · exact h
  · exact h.setXfer.emit

/-! ### Mailboxes (R492, R576) -/

theorem State.Canonical.mailRow (h : s.Canonical) {f write cmd data} : (s.mailRow f write cmd data).Canonical := by
  dsimp only [State.mailRow]
  split
  · exact .ite h.access h
  · exact .ite h h.setMailbox.access

theorem State.Canonical.cellAcked (h : s.Canonical) {index sub} : (s.cellAcked index sub).Canonical := by
  dsimp only [State.cellAcked]
  split
  · exact .ite h.setCell h
  · exact h

theorem State.Canonical.execPersistComplete (h : s.Canonical) : LeavesCanonical (execPersistComplete s) := by
  unfold Machine.execPersistComplete
  refine .next ?_
  split
  · exact h
  · refine .reply (.emit (.cellAcked ?_))
    exact ⟨h.mem, h.dict, sput_wf h.dictP _ _, h.sems, h.banks⟩

/-! ### Ring registers (R500 to R502) -/

theorem State.Canonical.ringOpened (h : s.Canonical) {f off} : (s.ringOpened f off).Canonical := by
  unfold State.ringOpened
  split
  · exact h.flushHeld
  · exact h

theorem State.Canonical.execRingCfgWrite (h : s.Canonical) {f off v} : LeavesCanonical (execRingCfgWrite f off v s) := by
  unfold Machine.execRingCfgWrite
  extract_lets blk r
  exact .next (.ite h (.ite (.ite h h.setRing) (.ite (.ite (.ite h h.setRing.ringOpened) h.setRing) h)))

theorem State.Canonical.ringErr (h : s.Canonical) {off} : (s.ringErr off).Canonical := h.warn

/-! ### Job submission (R504 to R506) -/

theorem State.Canonical.submit (h : s.Canonical) {q handle d} : (s.submit q handle d).Canonical := .ite h.complete h.frame

/-! ### Notices and the journal (R496 to R498, R537) -/

theorem State.Canonical.setChan (h : s.Canonical) {ch c} : (s.setChan ch c).Canonical := h.frame

theorem State.Canonical.tellLost (h : s.Canonical) {ch} : (s.tellLost ch).Canonical := .ite h h.setChan.frame

theorem State.Canonical.sendNotice (h : s.Canonical) {ch n} : MaybeCanonical (s.sendNotice ch n) :=
  .ite h.ringPut (.ite (.ite (.some (h.foldl fun _ ht _ => ht.emit)) .none) (.ite (.some h.emit) .none))

theorem State.Canonical.execNoticeSend (h : s.Canonical) {ch} : LeavesCanonical (execNoticeSend ch s) := by
  dsimp only [Machine.execNoticeSend]
  refine .next ?_
  split
  · exact h
  · split
    · exact h
    · next e => exact (h.sendNotice _ e).setChan.tellLost

theorem State.Canonical.appendJournal (h : s.Canonical) : s.appendJournal.Canonical := h.frame.foldl fun _ ht _ => ht.emit

/-! ### BAR2 (R500) -/

theorem State.Canonical.bar2Write (h : s.Canonical) {f off v n} : (s.bar2Write f off v n).Canonical := by
  induction n generalizing s off v with
  | zero => exact h
  | succ n ih =>
    unfold State.bar2Write
    refine ih ?_
    split
    · exact h.wr
    · exact h

/-! ### Function resets (R508, R509) -/

theorem State.Canonical.resetFunction (h : s.Canonical) {f} : (s.resetFunction f).Canonical := h.frame.dropJobs

theorem State.Canonical.resetAllFunctions (h : s.Canonical) : s.resetAllFunctions.Canonical :=
  (h.foldl fun _ ht _ => ht.resetFunction).frame

end Sys2Proof.Machine
end

section
/-! SUPPORT. Canonical forms are kept by pairs, votes and Gauntlet, domains lost, resets and bring-up, power and heat, and the rows of the
vector engine. -/

namespace Sys2Proof.Machine

variable {s : State}

/-! ### External actions performed (R518, R520) -/

theorem State.Canonical.act (h : s.Canonical) {p other a} : (s.act p other a).Canonical := by
  dsimp only [State.act]
  split
  · exact h.modCoreAt
  · split
    · exact h.semAdd.wr.wr
    · exact h.semAdd
  · exact h.noteNotice
  · exact h.submitDma
  · exact h

theorem State.Canonical.actList (h : s.Canonical) {p other l} : (s.actList p other l).1.Canonical := by
  induction l generalizing s with
  | nil => exact h
  | cons a l ih =>
    unfold State.actList
    split
    · exact ih h.act
    · exact h

theorem State.Canonical.actAll (h : s.Canonical) {p other} : (s.actAll p other).Canonical := by
  unfold State.actAll
  exact h.actList.modCoreAt

theorem State.Canonical.goOn (h : s.Canonical) {p leads} : (s.goOn p leads).Canonical := by
  dsimp only [State.goOn]
  split
  · exact .ite h.modCoreAt h.modCoreAt.modCoreAt
  · exact .ite h.modCoreAt.modCoreAt (.ite h.modCoreAt.readSaveMap.latch h.modCoreAt.readSaveMap)
  · exact h.modCoreAt

theorem State.Canonical.confirmTile (h : s.Canonical) {leader x y} : (s.confirmTile leader x y).Canonical :=
  h.goOn.goOn.modPair

theorem State.Canonical.failPair (h : s.Canonical) {q code} : (s.failPair q code).Canonical :=
  h.modCoreAt.modCoreAt.faultJob.latch

/-! ### Votes (R524 to R526) -/

theorem State.Canonical.setSpareSt (h : s.Canonical) {c x} : (s.setSpareSt c x).Canonical := h.frame

theorem State.Canonical.openVote (h : s.Canonical) {q from_ sp} : (s.openVote q from_ sp).Canonical := by
  dsimp only [State.openVote]
  split
  · exact h
  · exact h.readSaveMap.setSpareSt.clearCore.modPair.restoreTask.modCoreAt

theorem State.Canonical.rollBack (h : s.Canonical) {q p} : (s.rollBack q p).Canonical := by
  unfold State.rollBack
  extract_lets c s1
  have h1 : s1.Canonical := h.foldl fun _ ht _ => ht.wr
  exact h1.modCoreAt

theorem State.Canonical.mismatch (h : s.Canonical) {q} : (s.mismatch q).Canonical := by
  dsimp only [State.mismatch]
  refine .ite h.warn.faultNotice.failPair ?_
  split
  · exact h.warn.openVote
  · exact h.warn.rollBack.rollBack.modPair

theorem State.Canonical.noVote (h : s.Canonical) {q sp} : (s.noVote q sp).Canonical := h.faultNotice.failPair.incOd

theorem State.Canonical.execMittenCompare (h : s.Canonical) {p} : LeavesCanonical (execMittenCompare p s) := by
  unfold Machine.execMittenCompare
  refine .next ?_
  split
  · exact h
  next q _ =>
  extract_lets l f x s0 s1
  have h0 : s0.Canonical := h.actAll
  have h1 : s1.Canonical := h0.confirmTile
  have hvote : (match s.voteSpare q with | some sp => s.openVote q x sp | none => s).Canonical := by
    split
    · exact h.openVote
    · exact h
  have hagree : (if ¬ (s0.coreAt q.leader).held.isEmpty then s0
      else if q.retry then (s1.warn 0x0163 (s.coreOwner q.leader) 1 q.leader (pairPayload q.leader q.follower)).incOd 0x7000 4
      else s1).Canonical := .ite h0 (.ite h1.warn.incOd h1)
  exact .ite h (.ite (.ite h hvote) (.ite h (.ite h.raise.faultJob.latch (.ite hagree (.ite h.noVote h.mismatch)))))

theorem State.Canonical.takeOver (h : s.Canonical) {y x} : (s.takeOver y x).Canonical := by
  unfold State.takeOver
  split
  · exact h.setMapByte.bumpRole
  · exact h

theorem State.Canonical.sendToTest (h : s.Canonical) {y standIn} : (s.sendToTest y standIn).Canonical :=
  h.dropWaiters.modCoreAt.frame

theorem State.Canonical.leadFrom (h : s.Canonical) {q x} : (s.leadFrom q x).Canonical := by
  dsimp only [State.leadFrom]
  refine .ite h ?_
  split
  · exact h
  · exact (h.foldl fun _ ht _ => ht.rewriteCore).modJob

theorem State.Canonical.voteWon (h : s.Canonical) {q sp x y} : (s.voteWon q sp x y).Canonical := by
  unfold State.voteWon
  extract_lets s1 s2 s3
  have h1 : s1.Canonical := h.takeOver.leadFrom
  have h2 : s2.Canonical := h1.confirmTile
  have h3 : s3.Canonical := .ite h2 h2.sendToTest
  exact h3.info.incOd

theorem State.Canonical.execVoteRerunDone (h : s.Canonical) {p} : LeavesCanonical (execVoteRerunDone p s) := by
  unfold Machine.execVoteRerunDone
  refine .next ?_
  split
  · exact h
  extract_lets c good win
  have hwin (x y : Nat) : (win x y).Canonical := .ite h.actAll.voteWon h.actAll
  exact .ite h (.ite (hwin _ _) (.ite (hwin _ _) h.noVote.clearCore.setSpareSt.modPair))

/-! ### Gauntlet (R529 to R531) -/

theorem State.Canonical.needSwap (h : s.Canonical) {p} : (s.needSwap p).Canonical := h.modCoreAt

theorem State.Canonical.execGauntletRotation (h : s.Canonical) {c} : LeavesCanonical (execGauntletRotation c s) := by
  dsimp only [Machine.execGauntletRotation]
  refine .next (.ite h ?_)
  split
  · exact .ite h.frame h
  · exact .needSwap (.frame (.ite h.frame h))

theorem State.Canonical.swap (h : s.Canonical) {p sp lent} : (s.swap p sp lent).Canonical :=
  .frame (.ite h.moveCore.modCoreAt.countCanton.countCanton h.moveCore.modCoreAt.countCanton)

theorem State.Canonical.execGauntletSwap (h : s.Canonical) {c} : LeavesCanonical (execGauntletSwap c s) := by
  dsimp only [Machine.execGauntletSwap]
  refine .next ?_
  split
  · exact h.endStandIn
  · split
    · exact h
    · refine .ite h.frame ?_
      split
      · exact h.needSwap
      · exact .ite h.swap h.needSwap

theorem State.Canonical.banksOff (h : s.Canonical) {b0 n} : (s.banksOff b0 n).Canonical :=
  h.foldl fun _ ht _ => ht.loseBank.setBank.release

theorem State.Canonical.retireCore (h : s.Canonical) {p part} : (s.retireCore p part).Canonical :=
  h.banksOff.modCoreAt.frame.faultNotice.incOd

theorem State.Canonical.execSelfTestComplete (h : s.Canonical) {p failedPart} :
    LeavesCanonical (execSelfTestComplete p failedPart s) := by
  dsimp only [Machine.execSelfTestComplete]
  refine .next ?_
  split
  · exact h
  · exact .ite (.ite h.clearCore.frame.setSpareSt h.clearCore.frame) h.clearCore.frame.retireCore

/-! ### Domains lost (R533, R534) -/

theorem State.Canonical.setLevel (h : s.Canonical) {v} : (s.setLevel v).Canonical := .ite h h.frame.info

theorem State.Canonical.degrade (h : s.Canonical) : s.degrade.Canonical := .ite h.frame.setLevel h.frame

theorem State.Canonical.takeAway (h : s.Canonical) {p} : (s.takeAway p).Canonical := by
  unfold State.takeAway
  split
  · exact h.setMapByte.bumpRole
  · exact h

theorem State.Canonical.haltLost (h : s.Canonical) {p} : (s.haltLost p).Canonical := h.dropWaiters.modCoreAt

theorem State.Canonical.loseCore (h : s.Canonical) {p} : (s.loseCore p).Canonical := by
  dsimp only [State.loseCore]
  refine .ite h.haltLost ?_
  split
  · exact h.modCoreAt.takeAway
  · exact h.faultJob.latch.haltLost.takeAway

theorem State.Canonical.loseCanton (h : s.Canonical) {c} : (s.loseCanton c).Canonical := by
  unfold State.loseCanton
  extract_lets s1 lent safety s2
  have h1 : s1.Canonical := h.foldl fun _ ht _ => ht.loseCore
  have h2 : s2.Canonical := h1.frame.foldl fun _ ht _ => ht.setMapByte
  exact h2.banksOff.banksOff.growAll.faultNotice.degrade

theorem State.Canonical.loseStack (h : s.Canonical) {stack} : (s.loseStack stack).Canonical := .ite h h.frame.degrade

theorem State.Canonical.loseQuad (h : s.Canonical) {q} : (s.loseQuad q).Canonical := by
  unfold State.loseQuad
  extract_lets s1
  have h1 : s1.Canonical := h.foldl fun _ ht _ => .ite ht.sigStop.setSig ht
  exact h1.frame.banksOff.degrade

theorem State.Canonical.guardedLost (h : s.Canonical) {row unit} : (s.guardedLost row unit).Canonical := by
  unfold State.guardedLost
  split
  · split
    · exact h.linkDown
    · exact h
  · exact h.loseStack
  · exact .ite (.ite h.loseCanton h) (.ite h h.loseQuad)
  · exact h

/-! ### Power loss (R536) -/

theorem State.Canonical.abandonPersists (h : s.Canonical) : s.abandonPersists.Canonical :=
  (h.foldl fun _ ht _ => ht.setOd.reply).frame

/-! ### Resets (R548 to R551) -/

theorem State.Canonical.afterPorst (h : s.Canonical) {straps} : (s.afterPorst straps).Canonical := by
  unfold State.afterPorst
  extract_lets _ _ _ _ s1
  have h1 : s1.Canonical := ⟨swf_nil _, h.dictP, h.dictP, swf_nil _, swf_nil _⟩
  exact .ite h1.setOd h1

theorem State.Canonical.holdBanksOff (h : s.Canonical) : s.holdBanksOff.Canonical := by
  unfold State.holdBanksOff
  extract_lets s1 lost s2
  have h1 : s1.Canonical := h.foldl fun _ ht _ => ht.banksOff
  have h2 : s2.Canonical := h1.foldl fun _ ht _ => ht.banksOff.banksOff
  exact h2.foldl fun _ ht _ => ht.banksOff

theorem sputAll_wf {m : SMap Nat} {d : Nat → Nat} (hm : swf m d) (l : List (Nat × Nat)) : swf (sputAll m d l) d := by
  unfold sputAll
  induction l generalizing m with
  | nil => exact hm
  | cons e l ih => exact ih (sput_wf hm _ _)

theorem State.Canonical.execWarmrst (h : s.Canonical) : LeavesCanonical (execWarmrst s) := by
  unfold Machine.execWarmrst
  refine .next (.ite h ?_)
  extract_lets _ _ _ _ _ s1
  have hmem : Memory.wf s1.mem := sclear_wf h.mem (fun a => decide (96 * 2 ^ 30 ≤ a))
  have h1 : s1.Canonical := ⟨hmem, sputAll_wf h.dictP _, h.dictP, swf_nil _, swf_nil _⟩
  exact h1.holdBanksOff.setLevel

/-! ### Bring-up (R552 to R555) -/

theorem State.Canonical.execBootVerify (h : s.Canonical) : LeavesCanonical (execBootVerify s) := by
  unfold Machine.execBootVerify
  refine .next (.ite h ?_)
  extract_lets recover f _ _ g
  have hrecover {st : State} (ht : st.Canonical) : (recover st).Canonical := ht.frame.setLevel
  have hf : f.2.Canonical := h.takeFree
  have hg : g.2.Canonical := hf.takeFree
  exact .ite (hrecover h) (.ite hf.frame (.ite hg.takeFree.frame (hrecover hg)))

theorem State.Canonical.fitAll (h : s.Canonical) : s.fitAll.Canonical := h.foldl fun _ ht _ => ht.applyPartition

theorem State.Canonical.setRail (h : s.Canonical) {c} : (s.setRail c).Canonical := h.frame

theorem State.Canonical.startClocks (h : s.Canonical) : s.startClocks.Canonical := h.frame.foldl fun _ ht _ => ht.setRail

theorem State.Canonical.crownUp (h : s.Canonical) : s.crownUp.Canonical := by
  unfold State.crownUp
  extract_lets t s0 _ s1 s2
  have h0 : s0.Canonical := h.faultNotice
  have h1 : s1.Canonical := .ite h0.frame h
  have h2 : s2.Canonical := .ite h1.warn h1
  exact .ite h2.warn h2

theorem State.Canonical.domainsBack (h : s.Canonical) : s.domainsBack.Canonical := h.frame

theorem State.Canonical.cantonStart (h : s.Canonical) {c} : (s.cantonStart c).Canonical := .ite h h.frame

theorem State.Canonical.cantonsStart (h : s.Canonical) : s.cantonsStart.Canonical := h.foldl fun _ ht _ => ht.cantonStart

theorem State.Canonical.execServiceLevel (h : s.Canonical) {ok} : LeavesCanonical (execServiceLevel ok s) := by
  dsimp only [Machine.execServiceLevel]
  refine .next (.ite h ?_)
  split
  · exact .ite h.frame.setLevel.crownUp h
  · exact .startClocks (.fitAll (.cantonStart (.setLevel (.ite h h.frame))))
  · exact .fitAll (.setLevel (.ite h h.frame))
  · exact .startClocks (.fitAll (.cantonsStart (.setLevel (.ite h h.frame))))
  · exact .ite h.domainsBack.setLevel.fitAll.startClocks h
  · exact h

/-! ### The power governor (R545 to R547) -/

theorem State.Canonical.relimit (h : s.Canonical) {l f} : (s.relimit l f).Canonical := h.frame

theorem State.Canonical.lowerCanton (h : s.Canonical) {c} : (s.lowerCanton c).Canonical := h.relimit

theorem State.Canonical.raiseCanton (h : s.Canonical) {c} : (s.raiseCanton c).Canonical := h.relimit

theorem State.Canonical.timingBreak (h : s.Canonical) {k} : (s.timingBreak k).Canonical := h.countDev.warn

theorem State.Canonical.noteBreaks {old : State} (h : s.Canonical) : (s.noteBreaks old).Canonical :=
  h.foldl fun _ ht _ => ht.timingBreak

theorem State.Canonical.execGovernorTick (h : s.Canonical) {pkg10us pkg100ms canton100us} :
    LeavesCanonical (execGovernorTick pkg10us pkg100ms canton100us s) := by
  unfold Machine.execGovernorTick
  extract_lets calm n _ s1 s2 s3 s4 s5
  have h1 : s1.Canonical := h.frame.setOd
  have h2 : s2.Canonical := .ite h1.relimit h1
  have h3 : s3.Canonical := by
    unfold s3
    refine .ite ?_ h2
    split
    · exact h2.lowerCanton
    · exact h2
  have h4 : s4.Canonical := h3.foldl fun _ ht _ => ht.lowerCanton
  have h5 : s5.Canonical := .ite (h4.foldl fun _ ht _ => ht.raiseCanton) h4
  exact .next (.ite h h5.noteBreaks)

theorem State.Canonical.setFreq (h : s.Canonical) {p f} : (s.setFreq p f).Canonical := h.frame.setRail

/-! ### Thermal limits (R556 to R558) -/

theorem State.Canonical.execThermalRead (h : s.Canonical) {readings} : LeavesCanonical (execThermalRead readings s) := by
  unfold Machine.execThermalRead
  extract_lets r c s1 _ s2
  have h1 : s1.Canonical := h.setOd
  have h2 : s2.Canonical := h1.frame
  exact .next (.ite h (.ite (.ite h2 h2.warn) (.ite h1.frame.info h1)))

/-! ### HBM refresh (R288, R290) -/

theorem State.Canonical.breakFreq (h : s.Canonical) {k} : (s.breakFreq k).Canonical := h.takeFree.relimit.timingBreak

theorem State.Canonical.execHbmRefresh (h : s.Canonical) {stack} : LeavesCanonical (execHbmRefresh stack s) := by
  unfold Machine.execHbmRefresh
  extract_lets owed put
  have hput (n : Nat) : (put s n).Canonical := h.frame
  refine .next ?_
  split
  · exact hput 0
  · exact .ite (State.Canonical.ite (hput 0) (hput 0).countGap).needPart
      (.ite (hput _).countDev.needPart (.ite h.breakFreq h))

theorem State.Canonical.decodeVop (h : s.Canonical) {p off cmd} : (decodeVop p off s cmd).Canonical :=
  .ite .stall (h.seqRead fun _ ht => .orFault (.ok ht.setCore.pump))

theorem State.Canonical.vopRow (h : s.Canonical) {p sub} : (s.vopRow p sub).Canonical :=
  h.decodeCmd fun _ ht _ => .ite ht.decodeVop .stall

theorem State.Canonical.scatterRow (h : s.Canonical) {p modes} : (s.scatterRow p modes).Canonical :=
  h.decodeCmd fun _ ht _ => .ite ht.decodeVop .stall

/-! ### SETVL (R132) -/

theorem State.Canonical.decodeSetvl (h : s.Canonical) {p cmd} : (decodeSetvl p s cmd).Canonical := .orFault (.ok h.setCore)

/-! ### DIGEST (R256, R257) -/

theorem State.Canonical.decodeFold (h : s.Canonical) {p off cmd} : (decodeFold p off s cmd).Canonical := by
  dsimp only [Machine.decodeFold]
  refine .ite .stall ?_
  split
  · exact .orFault .stall
  · exact h.seqRead fun _ ht => .orFault (.ok ht.setCore.pump)

theorem State.Canonical.decodeStore (h : s.Canonical) {p off cmd} : (decodeStore p off s cmd).Canonical := by
  dsimp only [Machine.decodeStore]
  refine .ite .stall ?_
  split
  · exact .orFault .stall
  · exact .orFault (.ok h.setCore.pump)

end Sys2Proof.Machine
end

section
/-! SUPPORT. Canonical forms are kept by every command, and so by every step. -/

namespace Sys2Proof.Machine

variable {s : State}

/-! ### Every command -/

/-- Every command keeps the canonical forms, each row by the rules of the operations it is made of. -/
theorem State.Canonical.exec (h : s.Canonical) (c : Instr) : LeavesCanonical (exec c s) :=
  match c with
  | .wload _ => .next (h.decodeCmd fun _ ht _ => ht.decodeWload)
  | .wloadQueuedStart _ => .next h.startWload.pump
  | .shadowComplete _ => h.execShadowComplete
  | .mpass _ => .next (h.decodeCmd fun _ ht _ => ht.decodeMpass)
  | .feederFill _ _ => h.execFeederFill
  | .rowIssue _ => h.execRowIssue
  | .swap _ => h.execSwap
  | .contributionLand _ _ => h.execContributionLand
  | .setg _ => .next (h.decodeCmd fun _ ht _ => ht.decodeSetg)
  | .drain _ => .next (h.decodeCmd fun _ ht _ => ht.decodeDrain)
  | .drainStart _ => h.execDrainStart
  | .drainRowRead _ _ => h.execDrainRowRead
  | .drainComplete _ => h.execDrainComplete
  | .setvl _ => .next (h.decodeCmd fun _ ht _ => ht.decodeSetvl)
  | .vopAdd _ | .vopSub _ | .vopMul _ | .vopFma _ | .vopMax _ | .vopMin _ | .vopAbs _ | .vopNeg _ | .vopAnd _ | .vopOr _
    | .vopXor _ | .vopShr _ | .vopCmpeq _ | .vopCmpne _ | .vopCmplt _ | .vopCmple _ | .vopCmpgt _ | .vopCmpge _
    | .vopSel _ | .vopCvt _ | .vopCvtq _ | .vopCsplit _ | .vopCjoin _ | .vopExp2 _ | .vopLog2 _ | .vopRcp _ | .vopRsqrt _
    | .vopSigmoid _ | .vopTanh _ | .vopGelu _ | .vopSmexp _ | .vopSumg _ | .vopRmax _ | .vopRmin _ | .vopArgmax _
    | .vopArgmin _ | .vopTopk _ | .vopTopkm _ | .vopRndu _ | .vopRndf _ | .vopGather _ => .next h.vopRow
  | .vopScatterStore _ | .vopScatterGridAdd _ | .vopScatterMax _ => .next h.scatterRow
  | .digestFold _ => .next (h.decodeCmd fun _ ht _ => .ite .stall ht.decodeFold)
  | .digestStore _ => .next (h.decodeCmd fun _ ht _ => .ite ht.decodeStore .stall)
  | .dma _ => h.execDma
  | .lite _ => .next (h.decodeCmd fun _ ht _ => ht.decodeLite)
  | .cuffWait _ => .next (h.decodeCmd fun _ ht _ => .semChecked ht.acquire)
  | .cuffSignal _ => .next (h.decodeCmd fun _ ht _ => .semChecked ht.releaseSem)
  | .semAcq _ => .next (h.decodeCmd fun _ ht _ => .semChecked ht.acquire)
  | .semRel _ => .next (h.decodeCmd fun _ ht _ => .semChecked ht.releaseSem)
  | .semAdd _ => .next (h.decodeCmd fun _ ht _ => .semChecked (.ite (.ok ht.holdAct) (.ite (ht.putRet fun _ hu =>
      .ok hu.semAdd) (.ok ht.semAdd))))
  | .semRead _ => h.execSemRead
  | .semGrant _ => h.execSemGrant
  | .loopCmd _ => .next (h.decodeCmd fun _ ht _ => ht.decodeLoop)
  | .endloop _ => .next (h.decodeCmd fun _ ht _ => ht.decodeEndloop)
  | .stepCmd _ => h.execStepCmd
  | .tileEnd _ => .next (h.decodeCmd fun _ ht _ => ht.decodeTileEnd)
  | .tileEndRetire _ => h.execTileEndRetire
  | .note _ => .next (h.decodeCmd fun _ ht _ => ht.decodeNote)
  | .halt _ => .next (h.decodeCmd fun _ ht _ => ht.decodeHalt)
  | .haltComplete _ => h.execHaltComplete
  | .faultedJobRelease _ => h.execFaultedJobRelease
  | .sequencerFetch _ => .next h.fetch
  | .memRead _ _ => .next h.upset.memCycle
  | .memWrite _ _ | .setWrite _ | .clrWrite _ => .next h.memCycle
  | .eccWriteBack _ => .next (.ite h.frame h)
  | .scrubRead _ _ => .next h.scrub
  | .scrubForcedRound _ _ => h.execScrubForcedRound
  | .masterAged _ _ _ => .next (.ite h h.frame)
  | .smallBankWait _ _ => .next h.countDev.warn
  | .scrubStarved _ _ => .next (.ite h h.setBank.countDev.warn)
  | .bankWakeDone _ => h.execBankWakeDone
  | .macroRetention _ _ => .next (.ite h.setBank h)
  | .bankStateWrite _ _ _ _ => .next h.write
  | .bankStateChange _ => h.execBankStateChange
  | .bankPowerUpDone _ => .next (.ite (.ite h.powerUp.release (.ite h.powerUp.setBank h.powerUp)) h)
  | .dmaDescriptorStart _ => h.execDmaDescriptorStart
  | .dmaCopy _ | .dmaFill _ | .dmaGadd _ => .next h.dmaStep
  | .dmaComplete _ => h.execDmaComplete
  | .liteDelivery _ => h.execLiteDelivery
  | .liteResponse _ => h.execLiteResponse
  | .partitionConfigWrite _ _ _ => .next h.write
  | .partitionCoreFreed _ => h.execPartitionCoreFreed
  | .jobStart _ => h.execJobStart
  | .timingLockWrite _ _ _ => .next h.write
  | .stateSave _ => .next (.ite h.latch.saveUnit h)
  | .stateRestore _ => h.execStateRestore
  | .borrowRequest => h.execBorrowRequest
  | .borrowHandover _ _ => h.execBorrowHandover
  | .borrowReturn _ => h.execBorrowReturn
  | .coreReassign _ => .next h.reassign
  | .arbitrationAged _ _ => .next h.frame
  | .collectorTake => h.execCollectorTake
  | .completionWrite => h.execCompletionWrite
  | .signalCoreRun _ _ _ | .signalCoreStop _ _ _ => .next h.write
  | .signalCoreStopped _ => .next (.ite h.setSig h)
  | .postBaseWrite _ _ _ => .next h.write
  | .vld _ | .vst _ => .next (h.issue fun _ ht _ => ht.sigVmem)
  | .vld2 _ => .next (h.issue fun _ ht _ => ht.sigVld2)
  | .accsum _ => .next (h.issue fun _ ht _ => ht.sigAccsum)
  | .cmac _ => .next (h.issue fun _ ht _ => ht.sigMac)
  | .cmacm _ => .next (h.issue fun _ ht _ => ht.sigCmacm)
  | .cdot3 _ | .rmac _ => .next (h.issue fun _ ht _ => ht.sigMac)
  | .accclr _ => .next (h.issue fun _ ht _ => ht.sigAccclr)
  | .accst _ => .next (h.issue fun _ ht _ => ht.sigAccst)
  | .accsv _ => .next (h.issue fun _ ht _ => ht.sigAccsv)
  | .accrs _ => .next (h.issue fun _ ht _ => ht.sigAccrs)
  | .valuAdd _ | .valuSub _ | .valuMin _ | .valuMax _ | .valuAbs _ | .valuNeg _ | .valuConj _ | .valuMulj _ | .valuSwap _
    | .valuShr _ | .valuShl _ | .valuAvg _ | .valuAnd _ | .valuOr _ | .valuXor _ | .valuBcast _
    | .valuMov _ => .next (h.issue fun _ ht _ => ht.sigValu)
  | .aaluAdd _ | .aaluSub _ | .aaluAnd _ | .aaluOr _ | .aaluXor _ | .aaluShl _ | .aaluShr _ | .aaluSra _ | .aaluMin _
    | .aaluMax _ | .aaluSlt _ => .next (h.issue fun _ ht _ => ht.sigAalu)
  | .lds _ | .sts _ => .next (h.issue fun _ ht _ => ht.sigScalar)
  | .li _ | .lih _ | .mts _ | .mfs _ => .next (h.issue fun _ ht _ => ht.sigMove)
  | .br _ => .next (h.issue fun _ ht _ => ht.sigBr)
  | .brl _ => .next (h.issue fun _ ht _ => ht.sigBrl)
  | .jr _ => .next (h.issue fun _ ht _ => ht.sigJr)
  | .rep _ => .next (h.issue fun _ ht _ => ht.sigRep)
  | .waitCmd _ => .next (h.issue fun _ ht _ => ht.sigWait)
  | .rti _ => .next (h.issue fun _ ht _ => ht.sigRti)
  | .signalCoreHalt _ => .next (h.issue fun _ ht _ => ht.sigHalt)
  | .post _ => .next (h.issue fun _ ht _ => ht.sigPost)
  | .postResponse _ => h.execPostResponse
  | .sacq _ => .next (h.issue fun _ ht _ => ht.sigSacq)
  | .srel _ => .next (h.issue fun _ ht _ => ht.sigSrel)
  | .interruptTaken _ => .next (.ite h.sigStop.setSig h)
  | .timer _ => .next (.ite h h.setSig.sigRaise)
  | .crownMessage _ => .next h.sigRaise
  | .cellConfigWrite _ _ _ => .next h.write
  | .cellStart _ => .next (.ite h.setCell h)
  | .slot => .next (.ite (h.frame.foldl fun _ ht _ => ht.openSlot).raiseAll h)
  | .symbol => .next (.ite h.raiseAll h)
  | .uPlaneFrame _ => h.execUPlaneFrame
  | .cPlaneFrame _ => .next (.ite h.emit h.countDev)
  | .windowTake _ _ => h.execWindowTake
  | .window _ _ => h.execWindow
  | .stageLate _ _ => h.execStageLate
  | .fbLatest _ => h.execFbLatest
  | .slotResultRecord _ _ => h.execSlotResultRecord
  | .codeBlockDecode _ => h.execCodeBlockDecode
  | .codeEngineRetired _ => .next (.ite h h.frame.faultNotice)
  | .dlSymbolSend _ _ _ _ _ _ => .next (.ite h ((h.foldl fun _ ht _ => ht.emit).foldl fun _ ht _ => ht.emit).frame)
  | .dlLate _ _ _ _ => .next (.ite h (.ite h.frame.countDev h.frame.countDev.frame.warn))
  | .farReachConfigWrite _ _ _ _ => .next (.ite h.write h)
  | .converter _ _ _ => .next (.ite h h.wr.wr.setSig.frame.sigRaise)
  | .frameDetect _ _ _ _ => h.execFrameDetect
  | .frameConfirm _ _ _ _ => h.execFrameConfirm
  | .symbolDemod _ _ _ _ _ => h.execSymbolDemod
  | .frLearnedLate _ _ => h.execFrLearnedLate
  | .pilotTrack _ _ _ _ => h.execPilotTrack
  | .frameEnd _ _ => h.execFrameEnd
  | .frameTimeout _ _ => .next (.ite h.dropRx.countDev h)
  | .agcUpdate _ => .next (.ite h (.ite h.frame (.ite h.frame (.ite h.frame h.frame))))
  | .noiseFloorUpdate _ _ => .next (.ite h.setOd h.setOd.setOd)
  | .frTransmit _ => h.execFrTransmit
  | .nodeOccurrence _ => .next (.ite h (.ite (.ite h.loseNode h) (.ite h.frame h)))
  | .nodeHeard _ _ => .next (.ite h.takeFree.setLedger.frame h)
  | .occurrenceEnd _ => h.execOccurrenceEnd
  | .beacon => .next (.ite h.takeFree.sendFrame h)
  | .joinFrame _ _ => .next (.ite h.raiseAt h)
  | .combineRecord _ _ _ => h.execCombineRecord
  | .combineWait _ _ => h.execCombineWait
  | .frJesd _ _ => .next (.ite h.frame.warn h)
  | .sysrefEdge => .next h.frame
  | .nodeIdWrite _ _ | .routeTableWrite _ _ => .next h.write
  | .messageForward _ => .next (.ite h (.ite h.await (.ite h.malformed (.ite h.consume.unreachable h.consume.post))))
  | .fabricWrite _ => .next (h.serve fun _ ht => ht.writeAccess.post)
  | .fabricRead _ => .next (h.serve fun _ ht => .ite ht.readAccess.post ht.readAccess.post)
  | .fabricLite _ => .next (h.serve fun _ ht => .ite ht.post (.post (.ite ht.writeAccess.semAdd ht.writeAccess)))
  | .gadd _ => .next (h.serve fun _ ht => .ite ht.post ht.gaddWords.post)
  | .claim _ => h.execClaim
  | .rsp _ => h.execRsp
  | .staleRole _ _ => h.execStaleRole
  | .readData _ => h.execReadData
  | .freeMsg _ => h.execFreeMsg
  | .claimRetry _ => h.execClaimRetry
  | .heartbeat _ => .next (.ite h (h.take fun _ ht => ht.setPairVer))
  | .heartbeatSend _ => .next (.ite h.post h)
  | .heartbeatTimeout _ => .next (.ite h.dropNode h)
  | .mgmt _ _ => .next (.ite h (h.take fun _ ht => ht.access))
  | .lease _ => .next (.ite h (.ite (.ite h h.setLease.post) (.ite h (h.take fun _ ht =>
      .ite ht.setLease ht.setLease.tell))))
  | .stepDone _ => h.execStepDone
  | .commit _ => h.execCommit
  | .fence _ => h.execFence
  | .fenceRecovery _ _ _ => h.execFenceRecovery
  | .flitReceive _ _ => .next (.ite h (.ite h.setLink (h.setLink.foldl fun _ ht _ => ht.arrive)))
  | .linkCtl _ _ _ _ => .next (.ite h (.ite h.setLink.setLink (.linkPump (.ite h.setLink.replayLink h.setLink))))
  | .linkCtlSend _ => .next (.ite h.setLink.emit h)
  | .laneDrop _ _ => .next h.setLink.relane
  | .retrainComplete _ => .next (.ite h.repair.resumeLink h)
  | .laneTest _ _ _ => .next (.ite h (.ite h.setLink h.setLink.relane))
  | .linkTraining _ _ => h.execLinkTraining
  | .linkConfigWrite _ _ _ | .tunnelConfigWrite _ _ _ => .next h.write
  | .tunnelFrame _ _ => .next (.ite h (.ite h.countDev (.tunPump (.tunTake (.ite h.setTun.tunResend h.setTun)))))
  | .tunnelRto _ => .next (.ite h.tunResend h)
  | .tunnelDown _ => .next (.ite h.setTun.dropPort h)
  | .timebaseTick => .next (.ite h h.setNow)
  | .tbIncWrite _ _ | .tbStep _ _ | .tbSet _ _ => .next h.write
  | .tbAdjustApply => h.execTbAdjustApply
  | .scheduledInstant _ => .next (.ite h (.ite h.frame.countDev h.frame))
  | .tbRefLost => .next (.ite h.frame h.frame.warn)
  | .tbRefOk => .next (.ite h.frame.info h.frame)
  | .timeSourceWrite _ _ | .frameOffsetWrite _ _ => .next h.write
  | .fieldPortFrame _ => h.execFieldPortFrame
  | .portLinkUp _ _ _ => h.execPortLinkUp
  | .portLatencyWrite _ _ _ => .next h.write
  | .pktTxSend _ => h.execPktTxSend
  | .ppsInEdge _ => .next (.ite h.countDev h.frame)
  | .ppsOutEnd => .next h.frame
  | .timeRequest _ _ => .next (.ite h h.takeFree.emit)
  | .timeResponse _ _ => .next (.ite h (.ite h.frame.servoOffset h.frame))
  | .timeExchangeStart => .next (.ite h h.frame.emit)
  | .canRead _ _ | .canWrite _ _ | .writeStart _ _ | .segment _ _ | .nextBlock _ _ | .abortTransfer _ _ => .next h.frameRow
  | .transferTimeout _ => h.execTransferTimeout
  | .inBandDatagram _ => .next (.ite h.countDev h.access)
  | .odRead _ _ | .odWrite _ _ _ => .next h.mailRow
  | .dictionaryWrite _ _ _ _ _ => .next h.access
  | .persistComplete => h.execPersistComplete
  | .noticeSend _ => h.execNoticeSend
  | .journalAppend => .next h.appendJournal
  | .ringCfgWrite _ _ _ => h.execRingCfgWrite
  | .jobRingProd _ _ _ _ => .next (.ite h (.ite h.ringErr (h.setRing.foldl fun _ ht _ => ht.submit)))
  | .ringConsWrite _ _ _ => .next (.ite h (.ite h.ringErr h.setRing.ringOpened))
  | .msiXMessage _ _ => .next (.ite h (.ite h.setRing.msix h.setRing))
  | .suspend _ _ => .next (h.jobCtl fun _ => h.modJob.needAll.trySuspended)
  | .resume _ _ => .next (h.jobCtl fun _ => h.resumeJob.getD h.modJob)
  | .release _ _ => .next (h.jobCtl fun _ => h.completeJob.endJob)
  | .setprio _ _ => .next (h.jobCtl fun _ => h.modJob.completeJob)
  | .functionLevelReset _ => .next (.ite h.resetAllFunctions h.resetFunction)
  | .perst => .next h.resetAllFunctions.frame
  | .bar2Access _ _ _ _ _ => .next (.ite h (.ite (.ite h.bar2Write h.countDev) (.ite h.takeFree.emit h.emit)))
  | .pktTxProd _ _ _ => .next (.ite h (.ite h.ringErr h.setRing))
  | .visorCountWrite _ _ _ _ | .visorSelectWrite _ _ _ _ => .next (.ite h.write h)
  | .visorHoldWrite _ _ | .safetyPartitionWrite _ _ => .next h.write
  | .mittenCompare _ => h.execMittenCompare
  | .voteRerunDone _ => h.execVoteRerunDone
  | .gauntletRotation _ => h.execGauntletRotation
  | .gauntletSwap _ => h.execGauntletSwap
  | .gauntletStalled _ => .next h.warn
  | .selfTestComplete _ _ => h.execSelfTestComplete
  | .checkerTest _ _ _ => .next (.ite h h.faultNotice.guardedLost)
  | .cantonLost _ => .next (.ite h.loseCanton h)
  | .crownRestart _ => .next (.ite (.faultNotice (.ite h.frame.setOd h.frame)) (.ite h.frame.setOd h.frame))
  | .pwrFail => .next (.ite h h.frame.abandonPersists.faultNotice.appendJournal)
  | .pwrFailRelease => .next h.frame
  | .install _ => .next h.write
  | .installDone => .next (.ite h (.ite (.ite h.frame.setOd.setLevel h.frame.setOd) h.setOd))
  | .handover _ => .next h.write
  | .fwHandover => .next (.ite h (.ite h.frame.setOd.info.retrainAll h.frame.setOd.info))
  | .fwRevert => .next (.ite h h.frame.setOd.warn)
  | .confirm _ | .revert _ => .next h.write
  | .trialExpiry => .next (.ite h h.frame.setOd)
  | .porst _ => .next h.afterPorst
  | .warmrst => h.execWarmrst
  | .pwrGoodFall => .next h.afterPorst
  | .bootVerify => h.execBootVerify
  | .serviceLevel _ => h.execServiceLevel
  | .governorTick _ _ _ => h.execGovernorTick
  | .frequencyChange _ => .next (.ite h (.ite h.setFreq.modCoreAt h.setCore))
  | .powerCap _ => .next (.ite h.warn h)
  | .thermalRead _ => h.execThermalRead
  | .thermalThrottleStep => .next (.ite h.frame h)
  | .thermalTrip => .next (.ite h h.frame)
  | .alertRelease _ _ => .next h.write
  | .semaphoreCrownWrite _ _ _ => h.execSemaphoreCrownWrite
  | .hbmRefresh _ => h.execHbmRefresh
  | .railFault _ _ => .next h.faultNotice
  | .hbmStackLost _ => .next h.loseStack
  | .signalQuadLost _ => .next (.ite h h.loseQuad)
  | .portLinkDown _ | .pcieLinkDown => .next h.frame
  | .crownStateRestored => .next (.ite h (h.frame.warn.foldl fun _ ht _ => ht.perform))
  | .frTxTailEnd => .next (.ite h.frame.sendDeferred h)
  | .cmdOpcode _ => h.execCmdOpcode
  | .vopSubop _ => .next (h.decodeCmd fun _ ht _ => .ite .stall ht.decodeVop)
  | .sigOpcode _ => .next (h.issue fun _ _ _ => .fault)
  | .tap _ _ => .next (.frame (.ite h.takeFree h))

/-- Whatever command is at the front of the queue, a step keeps the canonical forms. -/
theorem step_canonical (h : s.canonical) {t : State} (e : step s = .next t) : t.canonical := by
  have hs : s.Canonical := .of_canonical h
  unfold step at e
  split at e
  · exact Host.Outcome.next.inj e ▸ h
  · exact (hs.frame.exec _ t e).canonical

end Sys2Proof.Machine

namespace Sys2Proof.Claims

open Machine

/-- Settles O3: the five stores' canonical forms are kept by every operation that a command is made of, and so by the row of
every command; a step runs the row of the command at the front on the rest of the queue. -/
theorem stepKeepsCanonicalForms : Obligations.StepKeepsCanonicalForms :=
  fun _ _ h e => step_canonical h e

end Sys2Proof.Claims
end

section
/-! SUPPORT. What an accepted write does, entry by entry: the branch of `State.odApply` that the index and sub-index select, and
what the operation of that branch leaves of the unit it is made for (R192, R332, R359, R363, R422, R437, R511). -/

namespace Sys2Proof.Machine

@[simp] theorem State.cell_setCell_same (s : State) (c : CellId) (x : CellSt) : (s.setCell c x).cell c = x := by
  simp [State.cell, State.setCell]

@[simp] theorem State.tun_setTun_same (s : State) (t : TunnelId) (x : TunSt) : (s.setTun t x).tun t = x := by
  simp [State.tun, State.setTun]

/-! ### Signal cores -/

theorem State.odApply_signalCore (s : State) (g : SigId) (v : Nat) : s.odApply 0x3120 (g.val + 1) v = s.sigControl g v :=
  dif_pos g.isLt

theorem State.sigControl_start {s : State} {g : SigId} {v : Nat} (hv : bit v 0 = true) (hstop : (s.sig g).running = false)
    (hquad : g.val / 8 ∉ s.power.quadLost) :
    s.sigControl g v = s.setSig g { Sig.reset with
      entry := BitVec.ofNat 16 (bits v 31 16), pc := BitVec.ofNat 32 (4 * (BitVec.ofNat 16 (bits v 31 16)).toNat)
      run := true, running := true } := by
  simp [State.sigControl, hv, hstop, hquad]

theorem State.sigControl_running {s : State} {g : SigId} {v : Nat} (hv : bit v 0 = true) (hrun : (s.sig g).running = true) :
    s.sigControl g v = s := by
  simp [State.sigControl, hv, hrun]

@[simp] theorem State.sigStop_run (s : State) (g : SigId) : ((s.sigStop g).sig g).run = false := by
  simp [State.sigStop]

theorem State.sigControl_stop {s : State} {g : SigId} {v : Nat} (hv : bit v 0 = false) :
    ((s.sigControl g v).sig g).run = false := by
  simp [State.sigControl, hv]

/-! ### Cells -/

theorem State.odApply_cell (s : State) (c : CellId) (v : Nat) :
    s.odApply 0x5000 (c.val + 1) v = (s.setOd 0x5000 (c.val + 1) v).cellWritten c v :=
  dif_pos c.isLt

/-- A cell disabled with no slot in flight stops at once (R363). -/
theorem State.cellWritten_stop {s : State} {c : CellId} {v : Nat} (hv : bit v 0 = false) (hrun : (s.cell c).running = true)
    (hslots : (s.cell c).slots = []) : ((s.cellWritten c v).cell c).running = false := by
  simp [State.cellWritten, hv, hrun, hslots]

/-! ### Links and tunnels -/

theorem State.odApply_link (s : State) (l : LinkId) (v : Nat) : s.odApply 0x6002 (l.val + 1) v =
    (s.setOd 0x6002 (l.val + 1) v).linkWritten l (s.od 0x6002 (l.val + 1)) :=
  dif_pos l.isLt

theorem State.odApply_tunnel (s : State) (t : TunnelId) (v : Nat) : s.odApply 0x6020 (t.val + 1) v =
    (s.setOd 0x6020 (t.val + 1) v).setTun t (if bit v 0 then s.tun t else TunSt.reset) :=
  dif_pos t.isLt

/-! ### Visor -/

/-- No entry with an effect of its own lies in the Visor groups, so their writes reach the last case. -/
theorem State.odApply_visor {index : Nat} (h : isVisor index = true) (s : State) (sub v : Nat) :
    s.odApply index sub v = { s with
      visor := sput s.visor zeroD (odKey index sub)
        (if isCounter index sub then counterWrite (sget s.visor zeroD (odKey index sub)) v else v) } := by
  have hn : 0x8000 < index := by
    simp only [isVisor, Bool.or_eq_true, beq_iff_eq, decide_eq_true_eq] at h
    omega
  unfold State.odApply
  split
  case h_18 => exact if_pos h
  all_goals omega

/-! ### CAN -/

theorem State.odApply_can {s : State} {sub : Nat} (hsub : sub ≤ 2) (v : Nat) :
    s.odApply 0x1100 sub v = s.holdCan.setOd 0x1100 sub v :=
  if_pos hsub

theorem State.holdCan_closed {s : State} (h : s.canOpen = false) : s.holdCan = s := if_neg (by simp [h])

theorem State.holdCan_open {s : State} (h : s.canOpen = true) :
    s.holdCan = { s with host := { s.host with canHeld := some s.canInForce } } :=
  if_pos h

/-! ### Plain entries -/

/-- Indices whose entries take a value and have no further effect. -/
def plainIndices : List Nat := [0x1110, 0x2100, 0x2110, 0x2300, 0x3140, 0x4040, 0x5810, 0x6010, 0x6110, 0x7000, 0x8000]

theorem State.odApply_plain {index : Nat} (h : index ∈ plainIndices) (s : State) (sub v : Nat) :
    s.odApply index sub v = s.setOd index sub v := by
  simp only [plainIndices, List.mem_cons, List.not_mem_nil, or_false] at h
  rcases h with rfl | rfl | rfl | rfl | rfl | rfl | rfl | rfl | rfl | rfl | rfl <;> rfl

end Sys2Proof.Machine

namespace Sys2Proof.Claims

open Machine

/-- Settles O43, entry by entry: the index and sub-index select a branch of `State.odApply`, and the lemmas about the operation
of that branch say what it leaves. The clauses closed by `rfl` name the branch itself. -/
theorem acceptedWriteEffects : Obligations.AcceptedWriteEffects := by
  intro s v
  refine ⟨fun _ => rfl, fun _ => rfl, fun _ => rfl, fun _ => rfl, fun _ => rfl, ?start, ?running, ?stop, ?cell, rfl,
    fun l => s.odApply_link l v, ?tunnel, rfl, rfl, rfl, rfl, rfl, rfl, rfl, rfl, rfl, ?counter, ?select, ?alert,
    fun _ _ h => State.odApply_plain h s _ v, fun _ h => if_neg h.not_ge, ?can, rfl, rfl⟩
  case start =>
    intro g hv hstop hquad
    rw [State.odApply_signalCore, State.sigControl_start hv hstop hquad]
  case running =>
    intro g hv hrun
    rw [State.odApply_signalCore, State.sigControl_running hv hrun]
  case stop =>
    intro g hv
    rw [State.odApply_signalCore, State.sigControl_stop hv]
  case cell =>
    intro c hv hrun hslots
    rw [State.odApply_cell]
    exact State.cellWritten_stop hv hrun hslots
  case tunnel =>
    intro t hv
    rw [State.odApply_tunnel, State.tun_setTun_same]
    simp [hv]
  case counter =>
    intro index sub hvisor hcounter
    rw [State.odApply_visor hvisor, if_pos hcounter]
  case select =>
    intro index sub hvisor hcounter
    rw [State.odApply_visor hvisor, if_neg (Bool.eq_false_iff.mp hcounter)]
  case alert => exact fun hv => if_pos hv
  case can =>
    intro sub hsub
    rw [State.odApply_can hsub]
    exact ⟨fun h => by rw [State.holdCan_closed h], fun h => by rw [State.holdCan_open h]⟩

end Sys2Proof.Claims
end

section
/-! SUPPORT. Bits that hardware finds wrong, scrubs, the gaps that forced rounds take, and the power states of a bank (R185,
R187 to R193, R286). -/

namespace Sys2Proof.Machine

variable {s : State} {b : Nat}

/-! ### Upsets (R185, R186) -/

@[simp] theorem State.upset_none (s : State) (a : Nat) : s.upset a .none = s := if_pos (.inl rfl)

theorem State.besideMem_upset (s : State) (a : Nat) (u : Upset) : s.BesideMem (s.upset a u) := by
  unfold State.upset
  split
  · exact .refl s
  extract_lets
  split
  · exact ⟨rfl, rfl, rfl, rfl, rfl, rfl⟩
  · exact ⟨rfl, rfl, rfl, rfl, rfl, rfl⟩

/-- An upset loses no bits but those of its word (R186). -/
theorem State.byte_upset_outside (hs : Memory.wf s.mem) {a c : Nat} (u : Upset) (h : c < a / 8 * 8 ∨ a / 8 * 8 + 8 ≤ c) :
    (s.upset a u).byte c = s.byte c := by
  unfold State.upset
  split
  · rfl
  extract_lets
  split
  · exact (sget_writeMem hs ..).trans (if_neg (by omega))
  · rfl

/-! ### Scrubs (R187) -/

theorem eight_dvd_bankStart (b : Nat) : 8 ∣ bankStart b := by
  unfold bankStart spBase cantonBase sigBase
  split
  · omega
  · split <;> omega

theorem eight_dvd_rowBytes (b : Nat) : 8 ∣ rowBytes b := by
  unfold rowBytes
  split <;> omega

/-- The rows of a bank begin at words. -/
theorem row_aligned (b n : Nat) : (bankStart b + n * rowBytes b) / 8 * 8 = bankStart b + n * rowBytes b :=
  Nat.div_mul_cancel (dvd_add (eight_dvd_bankStart b) ((eight_dvd_rowBytes b).mul_left n))

theorem State.scrub_idle (u : Upset) (h : (s.bank b).st ≠ .on ∨ (s.bank b).powering = true) : s.scrub b u = s := if_pos h

/-- What the bits that a scrub finds wrong, the counting and the bank's record leave alone, a scrub leaves alone. -/
theorem State.scrub_keeps {α : Type} {f : State → α} (u : Upset)
    (hupset : f (s.upset (bankStart b + (s.bank b).scrubRow * rowBytes b) u) = f s)
    (hread : ∀ t a n, f (State.eccRead t a n) = f t) (hbank : ∀ t x, f (State.setBank t b x) = f t) :
    f (s.scrub b u) = f s := by
  unfold State.scrub
  dsimp only
  split
  · rfl
  · rw [hbank]
    split
    · rfl
    · rw [hread, hupset]

theorem State.scrub_none_mem (s : State) (b : Nat) : (s.scrub b .none).mem = s.mem :=
  State.scrub_keeps (f := State.mem) .none (by rw [State.upset_none]) State.eccRead_mem fun t => t.setBank_mem b

theorem State.byte_scrub_outside (hs : Memory.wf s.mem) (u : Upset) {c : Nat}
    (h : c < bankStart b + (s.bank b).scrubRow * rowBytes b ∨ bankStart b + (s.bank b).scrubRow * rowBytes b + 8 ≤ c) :
    (s.scrub b u).byte c = s.byte c := by
  refine State.scrub_keeps (f := fun t => t.byte c) u (State.byte_upset_outside hs u ?_) (fun t a n => ?_) fun _ _ => rfl
  · rwa [row_aligned]
  · rw [State.byte, State.eccRead_mem]; rfl

theorem State.scrub_cores (s : State) (b : Nat) (u : Upset) : (s.scrub b u).cores = s.cores :=
  State.scrub_keeps (f := State.cores) u (State.besideMem_upset ..).cores (fun _ _ _ => (State.besideMem_eccRead ..).cores)
    fun _ _ => rfl

theorem State.scrub_sems (s : State) (b : Nat) (u : Upset) : (s.scrub b u).sems = s.sems :=
  State.scrub_keeps (f := State.sems) u (State.besideMem_upset ..).sems (fun _ _ _ => (State.besideMem_eccRead ..).sems)
    fun _ _ => rfl

/-! ### Forced rounds (R188, R286) -/

theorem exec_scrubForcedRound_free {bank : Fin 480} (u : Upset) (h : s.alignsScrub bank.val = none) :
    exec (.scrubForcedRound bank u) s = .next (s.scrub bank.val u) := by
  show execScrubForcedRound bank u s = _
  unfold execScrubForcedRound
  rw [h]

theorem exec_scrubForcedRound_aligned {bank : Fin 480} (u : Upset) {k : Nat} (h : s.alignsScrub bank.val = some k) :
    exec (.scrubForcedRound bank u) s = .next (if s.allAtBoundary k then
      ((s.scrub bank.val u).countGap k [if bank.val < 288 then bank.val / 36 else (bank.val - 288) / 8]).needPart k .scrub
        false
      else s.needPart k .scrub true) := by
  show execScrubForcedRound bank u s = _
  unfold execScrubForcedRound
  rw [h]

/-! ### Macros (R191) -/

theorem State.retained_wakeMacro (hs : swf s.banks (fun _ => Bank.reset)) (b m : Nat) :
    ((s.wakeMacro b m).bank b).retained = (s.bank b).retained.filter (fun k => k ≠ m) := by
  have hbanks (x : Bank) : (if b < 288 then (s.setBank b x).countCore (b / 4) 0x1C else s.setBank b x).banks =
      (s.setBank b x).banks := by
    split
    · exact State.visorCount_banks ..
    · rfl
  unfold State.wakeMacro State.bank
  dsimp only
  rw [State.eccRead_banks, hbanks]
  exact congrArg Bank.retained (State.bank_setBank_same hs b _)

/-! ### Power states (R189, R190, R192, R193) -/

theorem State.besideMem_loseBank (s : State) (b : Nat) : s.BesideMem (s.loseBank b) := ⟨rfl, rfl, rfl, rfl, rfl, rfl⟩

theorem State.byte_loseBank (s : State) (b a : Nat) : (s.loseBank b).byte a =
    if bankStart b ≤ a ∧ a < bankStart b + bankRows b * rowBytes b then 0#8 else s.byte a :=
  sget_zeroMem ..

theorem exec_bankWakeDone_bank {bank : Fin 480} (hst : (s.bank bank.val).st = .retain)
    (hwaking : (s.bank bank.val).waking = true) :
    exec (.bankWakeDone bank) s = .next ((s.setBank bank.val { s.bank bank.val with
      st := .on, req := .on, waking := false, retained := [], macroWake := [] }).release bank.val) := by
  show execBankWakeDone bank s = _
  simp only [execBankWakeDone, if_pos hst, if_pos hwaking]

theorem exec_bankWakeDone_macro {bank : Fin 480} {m : Nat} {rest : List Nat} (hst : (s.bank bank.val).st ≠ .retain)
    (hmacro : (s.bank bank.val).macroWake = m :: rest) :
    exec (.bankWakeDone bank) s = .next ((s.wakeMacro bank.val m).release bank.val) := by
  show execBankWakeDone bank s = _
  simp only [execBankWakeDone, if_neg hst, hmacro]

section
variable {bank : Fin 480} (hpower : (s.bank bank.val).powering = false)
include hpower

/-- A bank asked out of OFF begins its power-up. -/
theorem exec_bankStateChange_fromOff (hst : (s.bank bank.val).st = .off) (hreq : (s.bank bank.val).req ≠ .off) :
    exec (.bankStateChange bank) s = .next (s.setBank bank.val { s.bank bank.val with powering := true }) := by
  show execBankStateChange bank s = _
  simp [execBankStateChange, hst, hreq.symm, hpower]

/-- A bank asked out of RETAIN for ON begins its wake. -/
theorem exec_bankStateChange_wake (hst : (s.bank bank.val).st = .retain) (hreq : (s.bank bank.val).req = .on) :
    exec (.bankStateChange bank) s = .next (s.setBank bank.val { s.bank bank.val with waking := true }) := by
  show execBankStateChange bank s = _
  simp [execBankStateChange, hst, hreq, hpower]

theorem exec_bankStateChange_retain (hwait : s.stalled = []) (hst : (s.bank bank.val).st = .on)
    (hreq : (s.bank bank.val).req = .retain) :
    exec (.bankStateChange bank) s = .next ((s.setBank bank.val { s.bank bank.val with
      st := .retain, waking := false, retained := [], macroWake := [] }).release bank.val) := by
  show execBankStateChange bank s = _
  simp [execBankStateChange, hst, hreq, hpower, hwait]

/-- A bank turned off loses its content; nothing waits for it. -/
theorem exec_bankStateChange_off (hwait : s.stalled = []) (hst : (s.bank bank.val).st ≠ .off)
    (hreq : (s.bank bank.val).req = .off) :
    exec (.bankStateChange bank) s = .next ((s.loseBank bank.val).setBank bank.val { s.bank bank.val with
      st := .off, retained := [], macroWake := [], waking := false, cleared := true, valid := [] }) := by
  have hnone (t : State) (ht : t.stalled = s.stalled) : t.release bank.val = t :=
    State.release_none t _ (by rw [ht, hwait]; exact fun _ h => nomatch h)
  show execBankStateChange bank s = _
  refine .trans ?_ (congrArg Host.Outcome.next (hnone _ rfl))
  cases h : (s.bank bank.val).st with
  | on => simp [execBankStateChange, h, hreq, hpower, hwait]
  | retain => simp [execBankStateChange, h, hreq, hpower, hwait]
  | off => exact absurd h hst

end

theorem exec_bankPowerUpDone_on (hs : swf s.banks (fun _ => Bank.reset)) {bank : Fin 480}
    (hpower : (s.bank bank.val).powering = true) (hreq : (s.bank bank.val).req = .on) :
    exec (.bankPowerUpDone bank) s = .next ((s.setBank bank.val { s.bank bank.val with
      st := .on, powering := false, cleared := !s.zscrub bank.val, valid := [], retained := [], macroWake := [] }).release
      bank.val) := by
  have hup : ((s.powerUp bank.val).bank bank.val).st = .on := by
    rw [State.powerUp, State.bank_setBank_same hs, hreq]
  show execBankPowerUpDone bank s = _
  simp only [execBankPowerUpDone, if_pos hpower, if_pos hup]
  rw [State.powerUp, hreq]

end Sys2Proof.Machine

namespace Sys2Proof.Claims

open Machine

/-- Settles O14, clause by clause: what a scrub leaves alone (`State.scrub_keeps`), the forced round of a partition that aligns
its refreshes, and one equation for each change of a bank's state. -/
theorem banksAndScrubbing : Obligations.BanksAndScrubbing := by
  intro bank s hs
  obtain ⟨hmem, -, -, -, hbanks⟩ := hs
  refine ⟨?writeBack, ?scrub, ?aged, fun _ _ => rfl, ?starved, ?retained, ?wake, ?macroWake, ?change, ?powerUp⟩
  case writeBack =>
    intro w hw
    exact ⟨_, congrArg Host.Outcome.next (if_pos (List.contains_iff_mem.mpr hw)), by simp, rfl, rfl⟩
  case scrub =>
    intro u
    refine ⟨rfl, exec_scrubForcedRound_free u, fun k hk => ⟨fun h => ?_, fun h => ?_⟩, State.scrub_idle u, ?_,
      fun a => State.byte_scrub_outside hmem u, State.scrub_cores .., State.scrub_sems ..⟩
    · rw [exec_scrubForcedRound_aligned u hk, if_neg (Bool.eq_false_iff.mp h)]
    · rw [exec_scrubForcedRound_aligned u hk, if_pos h]
    · rintro rfl
      exact State.scrub_none_mem ..
  case aged =>
    intro sub m
    refine ⟨fun hm hb => ?_, fun h => congrArg Host.Outcome.next (if_pos h)⟩
    exact congrArg Host.Outcome.next (if_neg (not_or.mpr ⟨hm, hb.not_ge⟩))
  case starved =>
    intro g k
    exact ⟨fun h => congrArg Host.Outcome.next (if_neg (Bool.eq_false_iff.mp h)),
      fun h => congrArg Host.Outcome.next (if_pos h)⟩
  case retained =>
    intro m hst hauto hm hnew
    exact congrArg Host.Outcome.next (if_pos ⟨hst, hauto, hm, Bool.eq_false_iff.mp hnew⟩)
  case wake => exact fun hwaking hst => exec_bankWakeDone_bank hst hwaking
  case macroWake =>
    intro m rest hst hmacro
    exact ⟨exec_bankWakeDone_macro hst hmacro, State.retained_wakeMacro hbanks ..⟩
  case change =>
    intro hpower hwait
    refine ⟨exec_bankStateChange_fromOff hpower, exec_bankStateChange_wake hpower,
      exec_bankStateChange_retain hpower hwait, fun hst hreq => ?_⟩
    refine ⟨_, exec_bankStateChange_off hpower hwait hst hreq, fun a h1 h2 => ?_, fun a h => ?_, rfl, rfl, rfl, rfl⟩
    · exact (State.byte_loseBank ..).trans (if_pos ⟨h1, h2⟩)
    · exact (State.byte_loseBank ..).trans (if_neg (by omega))
  case powerUp => exact fun hpower hreq => exec_bankPowerUpDone_on hbanks hpower hreq

end Sys2Proof.Claims
end

section
/-! SUPPORT. DMA and LITE at the head of a core's stream, and the steps of the descriptor at the head of an engine's queue: its
checks, its requests and its completion (R217 to R228). -/

namespace Sys2Proof.Machine

variable {s : State} {p : CoreId} {cmd : Nat}

open Claims in
theorem State.decodeCmd_of_stall {op : Nat} {k : State → Nat → DecR} (h : atHead s p op cmd)
    (hk : k (past s p) cmd = .stall) : s.decodeCmd p op k = s := by
  obtain ⟨hnext, hop⟩ := h
  simp only [past] at hk
  simp only [State.decodeCmd, hnext, hop, if_true, hk]

/-! ### A read leaves the pairs and what is stored -/

@[simp] theorem State.eccRead_safety (s : State) (a n : Nat) : (s.eccRead a n).safety = s.safety := by rw [State.eccRead_frame]

@[simp] theorem State.wake_safety (s : State) (a : Nat) : (s.wake a).safety = s.safety := by
  have hmacro (b m : Nat) : (s.wakeMacro b m).safety = s.safety := by
    unfold State.wakeMacro
    split <;> simp [State.countCore]
  unfold State.wake
  split
  · simp only []
    split_ifs <;> simp [hmacro]
  · rfl

@[simp] theorem State.wakeSpan_safety (s : State) (a n : Nat) : (s.wakeSpan a n).safety = s.safety := by
  unfold State.wakeSpan
  split
  · rfl
  · exact List.foldlRecOn (motive := fun t : State => t.safety = s.safety) _ _ rfl
      (fun t ht b _ => (t.wake_safety b).trans ht)

@[simp] theorem State.readAll_safety (s : State) (l : List (Nat × Nat)) : (s.readAll l).safety = s.safety :=
  List.foldlRecOn (motive := fun t : State => t.safety = s.safety) l _
    (List.foldlRecOn (motive := fun t : State => t.safety = s.safety) l _ rfl
      (fun t ht e _ => (t.eccRead_safety e.1 e.2).trans ht))
    (fun t ht e _ => (t.wakeSpan_safety e.1 e.2).trans ht)

@[simp] theorem State.readAll_inPair (s : State) (l : List (Nat × Nat)) (n : Nat) : (s.readAll l).inPair n = s.inPair n := by
  simp only [State.inPair, State.readAll_safety]

@[simp] theorem State.readAll_rd (s : State) (l : List (Nat × Nat)) (a n : Nat) : (s.readAll l).rd a n = s.rd a n := by
  simp only [State.rd, State.readAll_mem]

/-! ### DMA (R217, R218) -/

/-- The engine that a DMA command of core p names: the core's own, its canton's, or one of Brim's (R217). -/
def namedEngine (p : CoreId) (cmd : Nat) : Nat :=
  if bits cmd 119 118 = 0 then p.val else if bits cmd 119 118 = 1 then 72 + p.val / 9 else 80 + bits cmd 117 116

theorem decodeDma_of_full (hnamed : bits cmd 119 118 ≠ 3)
    (hfull : dmaDepth (namedEngine p cmd) ≤ (s.dmaQ (namedEngine p cmd)).length) : decodeDma p s cmd = .stall :=
  if_pos ⟨hnamed, hfull⟩

theorem decodeDma_of_room {off : Nat} (hnamed : bits cmd 119 118 ≠ 3) (hheld : bits cmd 98 0 = 0)
    (hbrim : bits cmd 119 118 = 2 ∨ bits cmd 117 116 = 0)
    (heff : (s.core p).effOffset (bit cmd 99) (64 * bits cmd 115 100) = some off)
    (hread : (s.ownCode true [(spBase p.val + off, 64)]).1 = 0)
    (hroom : (s.dmaQ (namedEngine p cmd)).length < dmaDepth (namedEngine p cmd)) (halone : s.inPair p.val = false) :
    decodeDma p s cmd = .ok ((s.readAll [(spBase p.val + off, 64)]).submitDma (namedEngine p cmd)
      (s.rd (spBase p.val + off) 64) p.val) := by
  have hfield : (bits cmd 98 0 != 0 || bits cmd 119 118 == 3 || (bits cmd 119 118 != 2 && bits cmd 117 116 != 0)) = false := by
    rcases hbrim with h | h <;> simp [hheld, hnamed, h]
  unfold namedEngine at hroom ⊢
  simp only [decodeDma, heff, hfield]
  rw [if_neg (fun h => hroom.not_ge h.2), State.seqRead_of_ok hread, orFault_of_none rfl, State.readAll_inPair, halone]
  simp

/-! ### LITE (R226, R228) -/

/-- A LITE whose held field is 0 and whose semaphore its partition may release (R226, R244) faults with LITE_SHAPE alone. -/
theorem decodeLite_of_allowed (s : State) (p : CoreId) (cmd : Nat) :
    let src := 8 * bits cmd 119 101
    let n := 8 * (bits cmd 100 96 + 1)
    let dst := bits cmd 79 16
    let l := [(spBase p.val + src, n)]
    bits cmd 15 0 = 0 → (s.core p).lites.length < 16 → (s.ownCode true l).1 = 0 → s.inPair p.val = false →
    (dst / 2 ^ 52 ≠ s.nodeId ∨ s.semPart (bits cmd 95 80) = s.coreOwner p.val) →
    decodeLite p s cmd =
      if liteShapeBad src n dst then .fault 0x57 0
      else .ok ((s.readAll l).setCore p { s.core p with
        lites := (s.core p).lites ++
          [⟨(s.core p).ord, s.rd (spBase p.val + src) n, n, dst, bits cmd 95 80, false, none⟩] }) := by
  intro src n dst l hheld hroom hread halone hsem
  have hdenied : (dst / 2 ^ 52 == s.nodeId && s.semPart (bits cmd 95 80) != s.coreOwner p.val) = false := by
    rcases hsem with h | h
    · rw [beq_false_of_ne h, Bool.false_and]
    · rw [h, bne_self_eq_false, Bool.and_false]
  simp only [decodeLite, hheld]
  rw [if_neg hroom.not_ge, State.seqRead_of_ok hread, hdenied]
  cases hshape : liteShapeBad src n dst with
  | true => exact orFault_of_least (by simp) (by simp) (by simp) _
  | false => exact (orFault_of_none rfl _).trans (by simp [halone, l, src, n, dst])

/-! ### The light path's delivery and answer (R227, R228) -/

theorem exec_liteDelivery_here {x : LiteMsg} (hnext : (s.core p).nextLite = some x) (hhere : x.dst / 2 ^ 52 = s.nodeId) :
    let w := s.writeAccess (s.coreReq p.val) (x.dst % 2 ^ 52) x.len x.data
    let t := if w.1 = 0 then w.2.semAdd x.sem 1 else w.2
    exec (.liteDelivery p) s = .next ((t.setCore p ((t.core p).modLite x.ord
      (fun l => { l with sent := true, resp := some w.1 }))).countCore p.val 0x20) := by
  show execLiteDelivery p s = _
  simp only [execLiteDelivery, hnext, if_pos hhere]

theorem exec_liteDelivery_far {x : LiteMsg} {t : State} (hnext : (s.core p).nextLite = some x)
    (hfar : x.dst / 2 ^ 52 ≠ s.nodeId)
    (hsent : s.request (x.dst / 2 ^ 52) 0 0x03 (x.dst % 2 ^ 52) (x.len / 8 + 1) x.payload (.lite p.val x.ord) = some t) :
    exec (.liteDelivery p) s = .next ((t.setCore p ((t.core p).modLite x.ord
      (fun l => { l with sent := true }))).countCore p.val 0x20) := by
  show execLiteDelivery p s = _
  simp only [execLiteDelivery, hnext, if_neg hfar, hsent]

theorem exec_liteResponse {x : LiteMsg} {code : Nat} (hanswered : (s.core p).lites.find? (fun l => l.resp.isSome) = some x)
    (hcode : x.resp = some code) :
    let t := s.setCore p { s.core p with
      lites := (s.core p).lites.erase x
      liteFaults := if liteFault code = 0 then (s.core p).liteFaults
        else (s.core p).liteFaults ++ [(x.ord, liteFault code)] }
    exec (.liteResponse p) s =
      .next (if code = 1 then t.warn 0x0100 (s.coreOwner p.val) 1 p.val (x.dst % 2 ^ 52) else t) := by
  show execLiteResponse p s = _
  simp only [execLiteResponse, hanswered, hcode, Option.getD_some]

/-! ### A descriptor begins (R222, R223) -/

section
variable {e : EngineId} {x : Dma} (hhead : s.dmaHead e.val = some x)
include hhead

theorem exec_dmaDescriptorStart_refused (hfresh : x.started = false) (hbad : s.dmaCheck e.val x ≠ 0) :
    exec (.dmaDescriptorStart e) s = .next (s.setDmaHead e.val
      { x with started := true, moved := true, status := s.dmaCheck e.val x }) := by
  show execDmaDescriptorStart e s = _
  simp [execDmaDescriptorStart, hhead, hfresh, hbad]

theorem exec_dmaDescriptorStart_free (hfresh : x.started = false) (hok : s.dmaCheck e.val x = 0)
    (hwait : bit x.desc 10 = false) :
    exec (.dmaDescriptorStart e) s = .next (s.setDmaHead e.val { x with started := true }) := by
  show execDmaDescriptorStart e s = _
  simp [execDmaDescriptorStart, hhead, hfresh, hok, hwait]

theorem exec_dmaDescriptorStart_waits (hfresh : x.started = false) (hok : s.dmaCheck e.val x = 0)
    (hwait : bit x.desc 10 = true) (hfirst : s.dmaReplay x = false) (hlead : s.dmaFollower x = false) :
    exec (.dmaDescriptorStart e) s = .next ((s.setDmaHead e.val { x with started := true, waiting := true }).ask
      (bits x.desc 31 16) 1 (.dma e.val)) := by
  show execDmaDescriptorStart e s = _
  simp [execDmaDescriptorStart, hhead, hfresh, hok, hwait, hfirst, hlead]

/-! ### A descriptor moves its bytes (R219, R225) -/

/-- A descriptor that need not claim (R451) moves its bytes within the node, or sends its requests over Brim. -/
theorem State.dmaStep_unclaimed (hgo : x.started = true) (hgranted : x.waiting = false) (htodo : x.moved = false)
    (hfree : (s.crossing e.val x.desc).filter (fun y => s.claims x.job y.2.1) = none) :
    s.dmaStep e.val (dmaOp x.desc) =
      if e.val < 80 then s.dmaMove e.val x else s.brimRun e.val ((brimRuns x.desc).drop x.next) := by
  simp [State.dmaStep, hhead, hgo, hgranted, htodo, hfree]

end

theorem State.dmaMove_of_no_fails {x : Dma} (e : Nat) (h : s.dmaFails x = []) :
    s.dmaMove e x = (s.dmaRun x none (withRun x.desc) 0).setDmaHead e { x with moved := true } := by
  simp [State.dmaMove, h]

/-- The three commands that move bytes, each with its OP. -/
theorem exec_dmaMover {row : Instr × Nat} {e : EngineId}
    (h : row ∈ [(Instr.dmaCopy e, 0), (.dmaFill e, 1), (.dmaGadd e, 2)]) :
    exec row.1 s = .next (s.dmaStep e.val row.2) := by
  simp only [List.mem_cons, List.not_mem_nil, or_false] at h
  rcases h with rfl | rfl | rfl <;> rfl

theorem State.dmaLocal_copy {x : Dma} (run : Nat) {a b n : Nat} (hop : dmaOp x.desc = 0)
    (hread : (s.readAccess x.req (a % 2 ^ 52) n).1 = 0) :
    s.dmaLocal x run (a, b, n) =
      (s.readAccess x.req (a % 2 ^ 52) n).2.2.writeAccess x.req (b % 2 ^ 52) n (s.readAccess x.req (a % 2 ^ 52) n).2.1 := by
  simp only [State.dmaLocal, hop, hread, ne_eq, not_true_eq_false, if_false]

/-! ### A descriptor completes (R223 to R225, R325) -/

theorem exec_dmaComplete {e : EngineId} {x : Dma} (hhead : s.dmaHead e.val = some x) (hmoved : x.moved = true)
    (hwait : x.wait = 0) : exec (.dmaComplete e) s = .next (s.dmaFinish e.val x) := by
  show execDmaComplete e s = _
  simp [execDmaComplete, hhead, hmoved, hwait]

/-- A descriptor of Crown's without a record leaves its queue for a collector; then its status says what follows. -/
theorem State.dmaFinish_crown {x : Dma} {e : Nat} (hcross : s.crossing e x.desc = none) (hby : x.by_ = none)
    (hrecord : bit x.desc 12 = false) :
    let t := (s.setDmaQ e (s.dmaQ e).tail).latchEntry (crownEntry e)
    s.dmaFinish e x =
      if x.status = 0xB then t
      else if 1 < x.status then t.faultNotice 0x56 none 0 0 x.status
      else if bit x.desc 11 then t.semAdd (bits x.desc 47 32) 1
      else t := by
  simp [State.dmaFinish, State.dmaFail, State.dmaFollower, State.dmaReplay, hcross, hby, hrecord]

/-- A core's descriptor that did not fail writes its record and releases its SIGNAL_SEM; it fails with the record's code where
that write fails. -/
theorem State.dmaFinish_record {x : Dma} {e p : Nat} (hcross : s.crossing e x.desc = none) (hby : x.by_ = some p)
    (hrecord : bit x.desc 12 = true) (hok : x.status = 0) (hsignal : bit x.desc 11 = true)
    (hlead : s.dmaFollower x = false) (hfirst : s.dmaReplay x = false) :
    let r := (s.setDmaQ e (s.dmaQ e).tail).writeAccess x.req (bits x.desc 99 48) 16 (compRecord s.stamp 0)
    s.dmaFinish e x =
      if r.1 = 0 then (r.2.countCore p 0x21).semAdd (bits x.desc 47 32) 1 else (r.2.countCore p 0x21).dmaFail x r.1 := by
  simp [State.dmaFinish, hcross, hby, hrecord, hok, hsignal, hlead, hfirst]

end Sys2Proof.Machine

namespace Sys2Proof.Claims

open Machine

/-- What a core decodes, what Crown submits, and the two steps of a LITE that is outstanding. -/
theorem claimDmaAndLiteQueued_holds : claimDmaAndLiteQueued := by
  intro p cmd s s1 c
  refine ⟨?dma, fun e d => ?crown, ?lite, fun x => exec_liteDelivery_here, fun x t => exec_liteDelivery_far, ?response⟩
  case dma =>
    intro off h eng e l hnamed hheld hbrim heff hread
    refine ⟨fun hfull => ?_, fun hroom halone => ?_⟩
    · exact congrArg Host.Outcome.next (State.decodeCmd_of_stall h (decodeDma_of_full hnamed hfull))
    · exact congrArg Host.Outcome.next
        (State.decodeCmd_of_ok h (decodeDma_of_room hnamed hheld hbrim heff hread hroom halone))
  case crown =>
    exact ⟨fun hfull => congrArg Host.Outcome.next (if_pos hfull),
      fun hroom => congrArg Host.Outcome.next (if_neg hroom.not_ge)⟩
  case lite =>
    intro h src n dst l hheld hroom hread halone hsem
    have hdecoded := decodeLite_of_allowed s1 p cmd hheld hroom hread halone hsem
    refine ⟨fun hbad => ?_, fun hgood => ?_⟩
    · exact congrArg Host.Outcome.next (State.decodeCmd_of_fault h (hdecoded.trans (if_pos hbad)))
    · exact congrArg Host.Outcome.next
        (State.decodeCmd_of_ok h (hdecoded.trans (if_neg (Bool.eq_false_iff.mp hgood))))
  case response =>
    intro x code hanswered hcode t
    have hstep := exec_liteResponse hanswered hcode
    exact ⟨fun hne => hstep.trans (congrArg Host.Outcome.next (if_neg hne)),
      fun heq => hstep.trans (congrArg Host.Outcome.next (if_pos heq))⟩

/-- The steps of an engine's head descriptor, from its checks to its completion. -/
theorem claimDmaDescriptors_holds : claimDmaDescriptors := by
  intro e x s hhead
  refine ⟨fun hfresh => ?start, fun row hrow hop hgo hgranted htodo hfree => ?move,
    fun hmoved hwait hcross hby hrecord => ?complete, fun p hmoved hwait hcross hby hrecord hok => ?record,
    fun run a b n => State.dmaLocal_copy run⟩
  case start =>
    exact ⟨exec_dmaDescriptorStart_refused hhead hfresh, exec_dmaDescriptorStart_free hhead hfresh,
      exec_dmaDescriptorStart_waits hhead hfresh⟩
  case move =>
    have hstep : exec row.1 s = .next (if e.val < 80 then s.dmaMove e.val x
        else s.brimRun e.val ((brimRuns x.desc).drop x.next)) := by
      rw [exec_dmaMover hrow, ← hop, State.dmaStep_unclaimed hhead hgo hgranted htodo hfree]
    refine ⟨fun hlocal hnone => ?_, fun hbrim => ?_⟩
    · rw [hstep, if_pos hlocal, State.dmaMove_of_no_fails _ hnone]
    · rw [hstep, if_neg hbrim.not_gt]
  case complete =>
    intro t
    have hdone : exec (.dmaComplete e) s = .next (if x.status = 0xB then t
        else if 1 < x.status then t.faultNotice 0x56 none 0 0 x.status
        else if bit x.desc 11 then t.semAdd (bits x.desc 47 32) 1 else t) := by
      rw [exec_dmaComplete hhead hmoved hwait, State.dmaFinish_crown hcross hby hrecord]
    refine ⟨fun hok hsignal => ?_, fun hok hsilent => ?_, fun hfail hreset => ?_⟩
    · simp [hdone, hok, hsignal]
    · simp [hdone, hok, hsilent]
    · rw [hdone, if_neg hreset, if_pos hfail]
  case record =>
    intro t r hwritten hsignal hlead hfirst
    rw [exec_dmaComplete hhead hmoved hwait, State.dmaFinish_record hcross hby hrecord hok hsignal hlead hfirst,
      if_pos hwritten]

/-- Settles O15: a core's stream, Crown and the light path (`claimDmaAndLiteQueued_holds`), and the descriptor at the head of
each engine (`claimDmaDescriptors_holds`). -/
theorem dmaQueuedAndFetched : Obligations.DmaQueuedAndFetched :=
  ⟨claimDmaAndLiteQueued_holds, claimDmaDescriptors_holds⟩

end Sys2Proof.Claims
end

section
/-! SUPPORT. An addition to a semaphore: the count limited to 32 bits, the notice where it was limited, and the signal cores that
watch it (R259, R354). -/

namespace Sys2Proof.Machine

/-- The limited sum is stored, and SEM_SAT raised where it is not the exact one (R259). -/
theorem State.semAdd_eq_setSem (s : State) (n : Nat) (d : Int) :
    let r : Int := s.semCount n + d
    ∃ v : Nat, (v : Int) = max 0 (min r (2 ^ 32 - 1)) ∧
      s.semAdd n d = if 0 ≤ r ∧ r ≤ 2 ^ 32 - 1 then s.setSem n v
        else (s.setSem n v).warn 0x0102 (s.semPart n) 3 (n / 8192) n := by
  intro r
  rcases s.semAdd_cases n d with ⟨hlo, hhi, h⟩ | ⟨hneg, h⟩ | ⟨hbig, h⟩
  · exact ⟨r.toNat, by omega, h.trans (if_pos ⟨hlo, hhi⟩).symm⟩
  · exact ⟨0, by omega, h.trans (if_neg (by omega)).symm⟩
  · exact ⟨2 ^ 32 - 1, by omega, h.trans (if_neg (by omega)).symm⟩

/-- A count that leaves 0 sets SEMWATCH in every signal core that watches the semaphore (R354). -/
theorem State.setSem_sig_watching {s : State} {n v : Nat} {g : SigId} (hzero : s.semCount n = 0) (hpos : v ≠ 0)
    (hwatch : (s.sig g).watch.toNat = n) :
    (s.setSem n v).sig g = { s.sig g with ipend := (s.sig g).ipend ||| 0x10#16 } := by
  have hwatch' : s.sigs[g.val].watch.toNat = n := hwatch
  simp [State.setSem, State.semWatch, State.sig, hzero, hpos, hwatch']

end Sys2Proof.Machine

namespace Sys2Proof.Claims
open Machine

/-- Settles O17: the count is what `State.setSem` stores (`State.semAdd_eq_setSem`), with or without the notice,
and a count that leaves 0 is told to the signal cores (`State.setSem_sig_watching`). -/
theorem semaphoreCountsSaturate : Obligations.SemaphoreCountsSaturate := by
  intro n d s hs r t
  obtain ⟨v, hv, ht⟩ := s.semAdd_eq_setSem n d
  change t = _ at ht
  have hframe : t.sems = (s.setSem n v).sems ∧ t.mem = s.mem ∧ t.dict = s.dict ∧ t.cores = s.cores ∧ t.banks = s.banks ∧
      t.time = s.time ∧ t.jobs = s.jobs ∧ t.sigs = (s.setSem n v).sigs := by
    rw [ht]
    split <;> simp [State.warn, State.raise]
  obtain ⟨hsems, hmem, hdict, hcores, hbanks, htime, hjobs, hsigs⟩ := hframe
  have hcount (m : Nat) : t.semCount m = (s.setSem n v).semCount m := by simp only [State.semCount, hsems]
  refine ⟨?_, fun m hm => ?_, hmem, hdict, hcores, hbanks, htime, hjobs, fun hlo hhi => ?_, fun hout => ?_,
    fun hzero hpos g hwatch => ?_⟩
  · rw [hcount, State.semCount_setSem_same hs, hv]
  · rw [hcount, State.semCount_setSem_other s hm]
  · rw [ht, if_pos ⟨hlo, hhi⟩, State.setSem_host]
  · rw [ht, if_neg (by omega)]
    simp [State.warn, State.raise]
  · have hsig : t.sig g = (s.setSem n v).sig g := by simp only [State.sig, hsigs]
    rw [hsig, State.setSem_sig_watching hzero (by omega) hwatch]
    simp

end Sys2Proof.Claims
end

section
/-! SUPPORT. The control of a core's stream: fetch, loops, STEP, the ends of tiles, NOTE, HALT and held opcodes (R234, R243,
R245, R261 to R266). -/

namespace Sys2Proof.Machine

variable {s : State} {p : CoreId} {cmd : Nat}

/-! ### NOTE (R262) -/

theorem decodeNote_of_alone (hheld : bits cmd 101 64 = 0) (hsev : bits cmd 119 118 < 2) (hsync : bit cmd 117 = false)
    (halone : s.inPair p.val = false) :
    decodeNote p s cmd = .ok (s.noteNotice p.val (bits cmd 119 118) (bits cmd 116 102) (bits cmd 63 0)) := by
  simp only [decodeNote, hheld, hsync, halone, decide_eq_false hsev.not_ge]
  exact orFault_of_none rfl _

/-! ### Fetch (R235) -/

theorem State.fetch_of_line {l : List Nat} (hrun : (s.core p).mode = .running) (hgo : (s.core p).seqWait = .none)
    (hring : (s.core p).ringLen ≠ 0) (hwait : (s.core p).fetched.any isSeqWait = false) :
    let off := ringSkip (s.core p).ringBase (s.core p).ringLen (s.core p).pos (s.core p).fetched.length
    let a := spBase p.val + off
    l = Machine.fetchLine s.mem (spBase p.val) off 4 → (s.core p).fetched.length + l.length ≤ 16 →
    s.readCode (s.coreReq p.val) a 16 = 0 →
    s.fetch p = (s.readAll [(a, 16 * l.length)]).setCore p { s.core p with fetched := (s.core p).fetched ++ l } := by
  rintro off a rfl hroom hcode
  unfold State.fetch
  simp only []
  rw [if_pos ⟨hrun, hgo, hring, by simp [hwait]⟩, if_neg (not_not.mpr hcode), if_pos hroom]

/-! ### Loops (R245) -/

theorem decodeLoop_of_level (hheld : bits cmd 84 0 = 0) (hcount : bits cmd 119 104 ≠ 0)
    (hroom : (s.core p).loops.length < 4) :
    decodeLoop p s cmd = .ok (s.setCore p { s.core p with
      loops := (s.core p).loops ++ [⟨bits cmd 119 104, sbits cmd 103 88, bits cmd 87 85, 0, (s.core p).pos⟩] }) := by
  simp only [decodeLoop, hheld, beq_false_of_ne hcount, decide_eq_false hroom.not_ge]
  exact orFault_of_none rfl _

theorem decodeEndloop_of_level {outer : List LoopLevel} {l : LoopLevel} (hheld : bits cmd 119 0 = 0)
    (hloops : (s.core p).loops = outer ++ [l]) :
    decodeEndloop p s cmd = .ok (s.setCore p (
      if l.i + 1 < l.count then
        { s.core p with loops := outer ++ [{ l with i := l.i + 1 }], pos := l.body, fetched := [] }
      else { s.core p with loops := outer })) := by
  simp only [decodeEndloop, hheld, hloops]
  rw [orFault_of_none (by simp [leastCode])]
  simp only [List.getLast?_concat, List.dropLast_concat]
  split <;> rfl

/-! ### STEP (R261) -/

open Claims in
/-- Taking a command from the stream leaves the job and the step count that a STEP waits by. -/
theorem State.stepWaits_past (s : State) (p : CoreId) : (past s p).stepWaits p = s.stepWaits p := by
  have hcore : (past s p).core p = (s.core p).decoded := State.core_setCore_same ..
  unfold State.stepWaits
  rw [hcore]
  rfl

/-- A STEP that need not wait for a commit is decoded as it stands. -/
theorem exec_stepCmd_of_committed (hwait : s.stepWaits p = false) :
    exec (.stepCmd p) s = .next (s.decodeCmd p 0x51 (decodeStep p)) := by
  show execStepCmd p s = _
  unfold execStepCmd
  simp only [hwait, Bool.false_eq_true, and_false, if_false]
  split <;> rfl

theorem decodeStep_of_count (hheld : bits cmd 119 0 = 0) (hwait : s.stepWaits p = false)
    (hroom : (s.core p).step + 1 < 2 ^ 64) :
    decodeStep p s cmd =
      .ok ((s.setCore p { s.core p with step := (s.core p).step + 1, stepHeld := false }).frameStep p.val) := by
  simp only [decodeStep, hheld, hwait, decide_eq_false hroom.not_ge]
  exact orFault_of_none rfl _

theorem decodeStep_of_wrap (hheld : bits cmd 119 0 = 0) (hwrap : 2 ^ 64 ≤ (s.core p).step + 1) :
    decodeStep p s cmd = .fault 0x03 0 := by
  simp only [decodeStep, hheld, decide_eq_true hwrap]
  exact orFault_of_least (by simp) (by simp) (by simp) _

/-! ### Ends of tiles (R264 to R266) -/

theorem decodeTileEnd_of_held {off : Nat} (hheld : bits cmd 119 0 = 0) :
    decodeTileEnd p off s cmd = .ok (s.setCore p { s.core p with
      tileEnds := (s.core p).tileEnds ++ [((s.core p).ord, off, !(s.core p).deferred.isEmpty)]
      tileNo := (s.core p).tileNo + 1
      mode := if (s.core p).needs = [] ∧ (s.core p).deferred = [] ∧ s.inPair p.val = false then (s.core p).mode
        else .boundary }) := by
  simp only [decodeTileEnd, hheld, List.isEmpty_iff, Bool.not_eq_true]
  exact orFault_of_none rfl _

/-- The list's first tile end retires once the commands before it are done (R264, R265). -/
theorem exec_tileEndRetire_of_done {ord off : Nat} {takes : Bool} {rest : List (Nat × Nat × Bool)}
    (hends : (s.core p).tileEnds = (ord, off, takes) :: rest) (hrun : (s.core p).mode = .running)
    (hfirst : (s.core p).retiredTile = false) (hdone : (s.core p).queuesDone ord = true) :
    exec (.tileEndRetire p) s = .next (s.retireTile p ord off takes) := by
  show execTileEndRetire p s = _
  simp [execTileEndRetire, hends, hrun, hfirst, hdone]

theorem State.retireTile_of_clean {ord off : Nat} {takes : Bool} (hrun : (s.core p).mode = .running)
    (halone : s.inPair p.val = false) (hclean : (s.core p).tileFaults takes ord = []) :
    s.retireTile p ord off takes = ((s.setCore p (s.core p).retire).countCore p.val 0x07).tileLong p.val
      (sget (s.core p).tileCycles zeroD (s.core p).tileRet) := by
  simp [State.retireTile, halone, hclean, lowestFault, hrun]

theorem State.retireTile_of_fault {ord off : Nat} {takes : Bool} {f : Nat × Nat} (halone : s.inPair p.val = false)
    (hfault : lowestFault ((s.core p).tileFaults takes ord) = some f) :
    s.retireTile p ord off takes = (s.setCore p (s.core p).retire).fault p.val f.1 f.2 tileEndCmd off := by
  simp [State.retireTile, halone, hfault]

/-! ### HALT (R263) -/

theorem decodeHalt_of_alone (hheld : bits cmd 103 0 = 0) (halone : s.inPair p.val = false) :
    decodeHalt p s cmd = .ok (s.setCore p { s.core p with mode := .halting, haltCode := bits cmd 119 104 }) := by
  simp only [decodeHalt, hheld, halone]
  exact orFault_of_none rfl _

/-- A core that halts tells its canton's collector when all is done, and counts where the canton's latch is taken (R263, R323). -/
theorem exec_haltComplete_of_done (hmode : (s.core p).mode = .halting) (hends : (s.core p).tileEnds = [])
    (hdone : (s.core p).queuesDone (s.core p).ord = true) (hdmas : s.dmasDone p.val = true)
    (hfirst : (s.core p).held.contains .halt = false) (hclean : (s.core p).tileFaults true (s.core p).ord = []) :
    exec (.haltComplete p) s = .next (if s.latchFull p.val then s.countCanton (p.val / 9) 0x31
      else ((s.setCore p { s.core p with mode := .halted, saveMap := none }).tileLong p.val
        (sget (s.core p).tileCycles zeroD (s.core p).tileRet)).latch p.val (s.core p).haltCode 0) := by
  show execHaltComplete p s = _
  unfold execHaltComplete
  simp only [hmode, hends, hdone, hdmas, hfirst, hclean]
  rfl

/-! ### Held opcodes (R238, R243) -/

theorem exec_cmdOpcode_of_held (hnext : s.nextCmd p = some cmd) (hheld : opcodeKnown (bits cmd 127 120) = false) :
    exec (.cmdOpcode p) s = .next (s.fault p.val 0x01 0 cmd (s.core p).pos) := by
  show execCmdOpcode p s = _
  simp [execCmdOpcode, hnext, hheld]

end Sys2Proof.Machine

namespace Sys2Proof.Claims
open Machine

/-- Settles O18: NOTE without SYNC, outside a pair, raises its notice when it is decoded. -/
theorem noteRaisesItsNotice : Obligations.NoteRaisesItsNotice := by
  intro p cmd s h hheld hsev hsync halone
  exact congrArg Host.Outcome.next (State.decodeCmd_of_ok h (decodeNote_of_alone hheld hsev hsync halone))

/-- Settles O19: each command at the head of the stream is decoded (`State.decodeCmd_of_ok`, `State.decodeCmd_of_fault`); the
other steps of the stream are said one by one above. -/
theorem streamControl : Obligations.StreamControl := by
  intro p cmd s s1 c
  refine ⟨?fetch, ?loop, ?endloop, ?step, ?tileEnd, ?retire, ?halt, ?halted, exec_cmdOpcode_of_held⟩
  case fetch =>
    intro l hl hrun hgo hring hwait hroom a hcode
    exact congrArg Host.Outcome.next (State.fetch_of_line hrun hgo hring hwait hl hroom hcode)
  case loop =>
    intro h hheld hcount hroom
    exact congrArg Host.Outcome.next (State.decodeCmd_of_ok h (decodeLoop_of_level hheld hcount hroom))
  case endloop =>
    intro outer l h hheld hloops
    have hdecoded := State.decodeCmd_of_ok h (decodeEndloop_of_level hheld hloops)
    exact ⟨fun hmore => congrArg Host.Outcome.next (hdecoded.trans (by rw [if_pos hmore])),
      fun hlast => congrArg Host.Outcome.next (hdecoded.trans (by rw [if_neg hlast.not_gt]))⟩
  case step =>
    intro h hheld hwait
    have hwait1 : s1.stepWaits p = false := (State.stepWaits_past s p).trans hwait
    rw [exec_stepCmd_of_committed hwait]
    exact ⟨fun hroom => congrArg Host.Outcome.next (State.decodeCmd_of_ok h (decodeStep_of_count hheld hwait1 hroom)),
      fun hwrap => congrArg Host.Outcome.next (State.decodeCmd_of_fault h (decodeStep_of_wrap hheld hwrap))⟩
  case tileEnd =>
    intro h hheld
    exact congrArg Host.Outcome.next (State.decodeCmd_of_ok h (decodeTileEnd_of_held hheld))
  case retire =>
    intro ord off takes rest hends hrun hfirst hdone halone
    rw [exec_tileEndRetire_of_done hends hrun hfirst hdone]
    exact ⟨fun hclean => congrArg Host.Outcome.next (State.retireTile_of_clean hrun halone hclean),
      fun f hfault => congrArg Host.Outcome.next (State.retireTile_of_fault halone hfault)⟩
  case halt =>
    intro h hheld halone
    exact congrArg Host.Outcome.next (State.decodeCmd_of_ok h (decodeHalt_of_alone hheld halone))
  case halted =>
    intro hmode hends hdone hdmas hfirst hclean
    rw [exec_haltComplete_of_done hmode hends hdone hdmas hfirst hclean]
    exact ⟨fun hroom => congrArg Host.Outcome.next (if_neg (Bool.eq_false_iff.mp hroom)),
      fun hfull => congrArg Host.Outcome.next (if_pos hfull)⟩

end Sys2Proof.Claims
end

section
/-! SUPPORT. The commands of the array at the head of a core's stream: WLOAD, MPASS, SETG and DRAIN, where nothing is wrong with
them (R238, R246 to R252). -/

namespace Sys2Proof.Machine

variable {s : State} {p : CoreId} {cmd off doff : Nat}

/-! ### WLOAD (R248) -/

/-- Room for a WLOAD does not depend on what it loads (R239). -/
theorem Core.room_wload (c : Core) (w v : WloadCmd) : c.room 1 (.wload w) = c.room 1 (.wload v) := rfl

theorem decodeWload_of_clean (heff : (s.core p).effOffset (bit cmd 36) (128 * bits cmd 114 100) = some doff) :
    let c := s.core p
    let tag := c.effTag (bit cmd 36) (bits cmd 119 117)
    let l := [(spBase p.val + doff, 128)]
    let d := s.rd (spBase p.val + doff) 128
    let w : WloadCmd := ⟨c.ord, cmd, d, doff, tag, off⟩
    c.room 1 (.wload w) = true → (s.ownCode true l).1 = 0 →
    leastCode (wloadCauses p.val c cmd tag (parseDesc d)) = 0 →
    decodeWload p off s cmd =
      .ok (((s.readAll l).setCore p ((c.push 1 (.wload w)).noteWload w)).startWload p) := by
  intro c tag l d w hroom hread hclean
  simp only [decodeWload, heff]
  rw [Core.room_wload _ _ w, hroom, Bool.not_true, if_neg Bool.false_ne_true, State.seqRead_of_ok hread]
  exact orFault_of_none hclean _

/-! ### MPASS (R250) -/

theorem decodeMpass_of_clean {woff : Nat}
    (hdesc : (s.core p).effOffset (bit cmd 16) (128 * bits cmd 114 100) = some doff)
    (hwin : (s.core p).effOffset (bit cmd 16 && bit cmd 115) (32 * bits cmd 99 83) = some woff)
    (hroom : (s.core p).qArray.length < 8) :
    let c := s.core p
    let tag := c.effTag (bit cmd 16) (bits cmd 119 117)
    let d := s.rd (spBase p.val + doff) 128
    let win := if bit cmd 115 then some (s.rd (spBase p.val + woff) 32) else none
    let l := (spBase p.val + doff, 128) :: (if bit cmd 115 then [(spBase p.val + woff, 32)] else [])
    let m : MPass :=
      { cmd := cmd, off := off, tag := tag, opens := bit cmd 116, win := win, desc := d, r0 := bits cmd 82 59,
        ak0 := bits cmd 58 35, rows := mRows cmd, grow := mGrow cmd, krows := sget c.wRows zeroD tag,
        g := c.setg, filled := [], issued := 0, landed := 0, tile := c.tileNo }
    (s.ownCode true l).1 = 0 →
    leastCode (mpassCauses p.val c cmd tag (parseDesc d) (win.map parseWindow)) = 0 →
    decodeMpass p off s cmd = .ok (((s.readAll l).setCore p { c.push 2 (.mpass m) with
      lastM := some tag
      wPassed := c.wPassed || c.lastW == some tag
      wSince := [] }).pump p) := by
  intro c tag d win l m hread hclean
  simp only [decodeMpass, hdesc, hwin, decide_eq_true_eq]
  rw [if_neg hroom.not_ge, State.seqRead_of_ok hread]
  exact orFault_of_none hclean _

/-! ### SETG (R249) -/

theorem sext_range {w : Nat} (hw : 0 < w) (v : Nat) : -(2 ^ (w - 1)) ≤ sext w v ∧ sext w v ≤ 2 ^ (w - 1) - 1 := by
  have hlt : v % 2 ^ w < 2 ^ w := Nat.mod_lt _ (by positivity)
  obtain ⟨k, rfl⟩ := Nat.exists_eq_succ_of_ne_zero hw.ne'
  simp only [sext, Nat.succ_eq_add_one, Nat.add_sub_cancel, pow_succ] at hlt ⊢
  generalize v % (2 ^ k * 2) = x at hlt ⊢
  zify at hlt ⊢
  generalize (2 : ℤ) ^ k = y at hlt ⊢
  split_ifs <;> omega

/-- A uniform SETG reads no table, and its exponent of 12 bits lies in range. -/
theorem decodeSetg_of_uniform (hheld : bits cmd 88 0 = 0) (huni : bit cmd 119 = true) (htab : bits cmd 105 89 = 0) :
    decodeSetg p s cmd =
      .ok (s.setCore p { s.core p with setg := List.replicate 64 (sbits cmd 118 107) }) := by
  have hgval : -2048 ≤ sbits cmd 118 107 ∧ sbits cmd 118 107 ≤ 2047 := sext_range (w := 12) (by simp) _
  have hrange : (List.replicate 64 (sbits cmd 118 107)).all (fun g => decide (-2048 ≤ g ∧ g ≤ 2047)) = true :=
    List.all_replicate.trans (by simpa using hgval)
  have heff : (s.core p).effOffset (bit cmd 106 && !true) (32 * 0) = some 0 := by simp [Core.effOffset]
  simp only [decodeSetg, hheld, huni, htab, heff, if_true]
  rw [State.seqRead_of_ok (by simp [State.ownCode]), hrange]
  exact orFault_of_none rfl _

variable {toff : Nat}

/-- A SETG with a table, its exponents read from the scratchpad. -/
theorem decodeSetg_of_table (hheld : bits cmd 88 0 = 0) (huni : bit cmd 119 = false) (hval : bits cmd 118 107 = 0)
    (heff : (s.core p).effOffset (bit cmd 106) (32 * bits cmd 105 89) = some toff)
    (hread : (s.ownCode true [(spBase p.val + toff, 128)]).1 = 0) :
    let vals := (List.range 64).map (fun j => sext 16 (s.rd (spBase p.val + toff + 2 * j) 2))
    decodeSetg p s cmd = orFault [(!vals.all (fun g => decide (-2048 ≤ g ∧ g ≤ 2047)), 0x2A)]
      (.ok ((s.readAll [(spBase p.val + toff, 128)]).setCore p { s.core p with setg := vals })) := by
  intro vals
  simp only [decodeSetg, hheld, huni, hval, Bool.not_false, Bool.and_true, heff, Bool.false_eq_true, if_false]
  rw [State.seqRead_of_ok hread]
  exact rfl

/-! ### DRAIN (R251, R252) -/

/-- The drain that a DRAIN command makes of its descriptor and its parameter block. -/
def drainOf (cmd off desc pblk : Nat) : DrainCmd :=
  { cmd := cmd, off := off, dg := bit cmd 119, dslot := bits cmd 118 116, desc := desc, pblk := pblk,
    or0 := bits cmd 83 60, on0 := bits cmd 59 36, grow := bits cmd 35 27, rows := bits cmd 26 18 + 1,
    ncols := bits cmd 17 12 + 1, started := false, done := 0 }

section
variable (hdesc : (s.core p).effOffset (bit cmd 11) (128 * bits cmd 115 101) = some doff)
  (hroom : (s.core p).qDrain.length < 4) (hread : (s.ownCode true [(spBase p.val + doff, 128)]).1 = 0)
include hdesc hroom hread

/-- A drain of grid words reads no parameter block. -/
theorem decodeDrain_of_gridWords :
    let d := s.rd (spBase p.val + doff) 128
    (parseDesc d).gw = true → leastCode (drainCauses p.val (s.core p) cmd (parseDesc d) 0) = 0 →
    decodeDrain p off s cmd = .ok (((s.readAll [(spBase p.val + doff, 128)]).setCore p
      ((s.core p).push 3 (.drain (drainOf cmd off d 0)))).pump p) := by
  intro d hgw hclean
  simp only [decodeDrain, hdesc, decide_eq_true_eq]
  rw [if_neg hroom.not_ge, State.seqRead_of_ok hread, if_pos hgw]
  exact orFault_of_none hclean _

theorem decodeDrain_of_params {poff : Nat} :
    let d := s.rd (spBase p.val + doff) 128
    let s1 := s.readAll [(spBase p.val + doff, 128)]
    let l := [(spBase p.val + poff, 288)]
    let pblk := s1.rd (spBase p.val + poff) 288
    (parseDesc d).gw = false → (s.core p).effOffset (bit cmd 11) (32 * bits cmd 100 84) = some poff →
    (s1.ownCode true l).1 = 0 → leastCode (drainCauses p.val (s.core p) cmd (parseDesc d) pblk) = 0 →
    decodeDrain p off s cmd =
      .ok (((s1.readAll l).setCore p ((s.core p).push 3 (.drain (drainOf cmd off d pblk)))).pump p) := by
  intro d s1 l pblk hgw hparams hreadParams hclean
  simp only [decodeDrain, hdesc, hparams, decide_eq_true_eq]
  rw [if_neg hroom.not_ge, State.seqRead_of_ok hread, if_neg (Bool.eq_false_iff.mp hgw), State.seqRead_of_ok hreadParams]
  exact orFault_of_none hclean _

end

end Sys2Proof.Machine

namespace Sys2Proof.Claims
open Machine

/-- Each command of the array without a fault enters its queue or latches its exponents. -/
theorem claimArrayCommandsDecoded_holds : claimArrayCommandsDecoded := by
  intro p cmd s s1 c off b
  refine ⟨?wload, ?mpass, ?uniform, ?table, ?drain⟩
  case wload =>
    intro doff h heff tag d w hroom hread hclean
    exact congrArg Host.Outcome.next (State.decodeCmd_of_ok h (decodeWload_of_clean heff hroom hread hclean))
  case mpass =>
    intro doff woff h hdesc hwin tag d win l m hroom hread hclean
    exact congrArg Host.Outcome.next (State.decodeCmd_of_ok h (decodeMpass_of_clean hdesc hwin hroom hread hclean))
  case uniform =>
    intro h hheld huni htab
    exact congrArg Host.Outcome.next (State.decodeCmd_of_ok h (decodeSetg_of_uniform hheld huni htab))
  case table =>
    intro toff h hheld huni hval heff hread vals
    have hdecoded := decodeSetg_of_table hheld huni hval heff hread
    refine ⟨fun hall => ?_, fun ⟨g, hg, hout⟩ => ?_⟩
    · refine congrArg Host.Outcome.next (State.decodeCmd_of_ok h (hdecoded.trans (orFault_of_none ?_ _)))
      have hrange : vals.all (fun g => decide (-2048 ≤ g ∧ g ≤ 2047)) = true := by simpa using hall
      rw [hrange, Bool.not_true, leastCode_cons_false]
      rfl
    · refine congrArg Host.Outcome.next (State.decodeCmd_of_fault h (hdecoded.trans
        (orFault_of_least (by simp) ?_ (by simp) _)))
      have hrange : vals.all (fun g => decide (-2048 ≤ g ∧ g ≤ 2047)) = false :=
        List.all_eq_false.mpr ⟨g, hg, by simp only [decide_eq_true_eq]; omega⟩
      rw [hrange]
      simp
  case drain =>
    intro doff h hdesc d s2 dc hroom hread
    refine ⟨fun hgw hclean => ?_, ?_⟩
    · exact congrArg Host.Outcome.next
        (State.decodeCmd_of_ok h (decodeDrain_of_gridWords hdesc hroom hread hgw hclean))
    · intro poff hgw hparams pb hreadParams hclean
      exact congrArg Host.Outcome.next
        (State.decodeCmd_of_ok h (decodeDrain_of_params hdesc hroom hread hgw hparams hreadParams hclean))

end Sys2Proof.Claims
end

section
/-! SUPPORT. The events of the array, of its feeders and of its drain, each in a core where its condition holds, and in one that a
fault has stopped (R58 to R64, R71 to R75, R81 to R90, R105 to R112, R119 to R127, R251, R268). -/

namespace Sys2Proof.Machine

variable {s : State} {p : CoreId}

/-! ### Blocks (R58, R81 to R84) -/

theorem State.startWload_of_free {ord : Nat} {w : WloadCmd} {rest : List Queued} (hmode : (s.core p).mode ≠ .faulted)
    (hhead : (s.core p).qLoader = ⟨ord, .wload w⟩ :: rest) (hloading : (s.core p).loading = none)
    (hshadow : (s.core p).shadow = none) :
    s.startWload p = s.setCore p { s.core p with qLoader := rest, loading := some w } := by
  simp [State.startWload, hhead, hloading, hshadow, hmode]

theorem exec_shadowComplete_of_read {w : WloadCmd} (hloading : (s.core p).loading = some w)
    (hread : (s.ownCode true (wloadReads w)).1 = 0) :
    let s1 := (s.readAll (wloadReads w)).setCore p { s.core p with loading := none }
    exec (.shadowComplete p) s = .next (((s1.setCore p { s1.core p with shadow := some (buildBlock s.mem w).1 }).addFlags
      p.val (buildBlock s.mem w).2).pump p) := by
  show execShadowComplete p s = _
  simp [execShadowComplete, hloading, hread]

theorem exec_swap_of_tag {ord : Nat} {m : MPass} {b : Block} (hmode : (s.core p).mode ≠ .faulted)
    (hnext : nextPass (s.core p).qArray = some (ord, m)) (hshadow : (s.core p).shadow = some b) (htag : b.wl.tag = m.tag)
    (hactive : (s.core p).active.map (fun a => a.wl.tag) ≠ some m.tag) :
    exec (.swap p) s = .next (s.setCore p { s.core p with active := some b, shadow := none }) := by
  show execSwap p s = _
  simp only [execSwap, hnext, hshadow]
  rw [if_pos ⟨htag, hactive, hmode⟩]

theorem exec_swap_of_faulted (hmode : (s.core p).mode = .faulted) : exec (.swap p) s = .next s := by
  show execSwap p s = _
  unfold execSwap
  simp only [hmode, ne_eq, not_true_eq_false, and_false, if_false]
  split <;> rfl

/-! ### Feeders and rows (R59 to R64, R71 to R75) -/

theorem exec_feederFill_of_room {i : Fin 512} {ord : Nat} {m : MPass} (hmode : (s.core p).mode ≠ .faulted)
    (hroom : ((s.core p).feeder i.val).length < 16) (hfill : fillPass i.val (s.core p).qArray = some (ord, m)) :
    let c := s.core p
    let t := sget m.filled zeroD i.val
    let e := m.entry s.mem t i.val
    (s.ownCode true (m.reads t i.val)).1 = 0 →
    exec (.feederFill p i) s = .next (((s.readAll (m.reads t i.val)).setCore p
      { c.setFeeder i.val (c.feeder i.val ++ [e.1]) with
        qArray := mapPass ord (fun m => { m with filled := sput m.filled zeroD i.val (t + 1) }) c.qArray
        }).addFlags p.val e.2) := by
  intro c t e hread
  show execFeederFill p i s = _
  simp only [execFeederFill, hfill]
  rw [if_pos ⟨hroom, hmode⟩, if_neg (not_not.mpr hread)]
  rfl

@[simp] theorem State.countCore_core (s : State) (n event by_ : Nat) (q : CoreId) :
    (s.countCore n event by_).core q = s.core q :=
  State.core_congr (State.visorCount_cores ..) q

/-- A row from full feeders goes down the pipe through the block of its pass, and its flags and counts are taken. -/
theorem exec_rowIssue_of_row {ord : Nat} {m : MPass} {b : Block} {row : List FeederEntry}
    (hmode : (s.core p).mode ≠ .faulted) (hnext : nextPass (s.core p).qArray = some (ord, m))
    (hactive : (s.core p).active = some b) (htag : b.wl.tag = m.tag)
    (hholds : drainHolds (s.core p).qDrain ord (m.grow + m.issued) = false) (hheads : (s.core p).heads m.krows = some row) :
    let n := rowCycles b.k (actTwo (parseDesc m.desc).fmt)
    let c1 := (s.core p).popHeads m.krows
    exec (.rowIssue p) s = .next ((((s.setCore p { c1.addCycles m.tile n with
      pipe := c1.pipe ++ [⟨m.grow + m.issued, m.opens, m.g, ord, (rowTerms b row).map (·.1)⟩]
      qArray := mapPass ord (fun m => { m with issued := m.issued + 1 }) c1.qArray }).addFlags p.val
        (Flags.ofInv ((rowTerms b row).any (·.2)))).countCore p.val 0x05).countCore p.val 0x01 n) := by
  have hblock : (some b).filter (fun b => b.wl.tag == m.tag) = some b := by simp [Option.filter, htag]
  show execRowIssue p s = _
  simp only [execRowIssue, if_neg hmode, hnext, hheads, hactive, hblock, hholds, Bool.false_eq_true, if_false]

theorem exec_rowIssue_of_faulted (hmode : (s.core p).mode = .faulted) : exec (.rowIssue p) s = .next s := by
  show execRowIssue p s = _
  simp [execRowIssue, hmode]

/-! ### Contributions and residues (R105 to R112, R126) -/

theorem State.logRow_of_alone {n : Nat} (h : s.inPair n = false) (r : Nat) : s.logRow n r = s := by
  simp [State.logRow, h]

theorem exec_contributionLand_of_row {f : InFlight} {rest : List InFlight} (errs : List BitError)
    (hpipe : (s.core p).pipe = f :: rest) :
    let s0 := s.logRow p.val f.grow
    let c0 := s0.core p
    let r := landRow errs (c0.gridRow f.grow) f
    exec (.contributionLand p errs) s = .next ((((s0.setCore p { c0.setGridRow f.grow r.1 with
      pipe := rest
      qArray := mapPass f.ord (fun m => { m with landed := m.landed + 1 }) c0.qArray }).addFlags p.val r.2.1).residueHit
        p.val r.2.2).pump p) := by
  show execContributionLand p errs s = _
  simp only [execContributionLand, hpipe]

/-- The first residue that disagrees is kept with its fault, which the next TILE.END takes (R126, R127). -/
theorem State.residueHit_first (h : Nat × Nat) (hfirst : (s.core p).residue = none) :
    let t := s.residueHit p.val (some h)
    (t.core p).deferred = (s.core p).deferred ++ [(0x27, h.1 * 256 + h.2)] ∧ (t.core p).residue = some h ∧
      t.mem = s.mem := by
  refine ⟨?_, ?_, (State.visorCount_mem ..).trans (State.modCoreAt_mem ..)⟩ <;>
    simp [State.residueHit, State.modCoreAt_val, hfirst]

/-! ### The drain (R87, R119 to R125, R251) -/

section
variable {ord : Nat} {d : DrainCmd} (hmode : (s.core p).mode ≠ .faulted) (hhead : (s.core p).headDrain = some (ord, d))
include hmode hhead

theorem exec_drainStart_of_landed (hfresh : d.started = false) (hlanded : passesBefore (s.core p).qArray ord = false) :
    exec (.drainStart p) s = .next (s.setCore p ((s.core p).setHeadDrain ord { d with started := true })) := by
  show execDrainStart p s = _
  simp [execDrainStart, hhead, hfresh, hlanded, hmode]

theorem exec_drainRowRead_of_row (hgo : d.started = true) (hmore : d.done < d.rows) (errs : List BitError) :
    let c := s.core p
    let r := (c.gridRow (d.grow + d.done)).withErrors errs
    let ws := d.writes r d.done
    let s1 := ((ws.foldl (fun st w => st.vwrite p.val w)
      ((s.setCore p (c.setHeadDrain ord { d with done := d.done + 1 })).wakeAll
        (ws.map (VWrite.span p.val)))).addFlags p.val
      (Flags.joinAll ((List.range d.ncols).map (fun j => (d.store r j).fl))))
    (s.ownCode false (ws.map (VWrite.span p.val))).1 = 0 →
    exec (.drainRowRead p errs) s = .next (State.residueHit
      (if d.dg then s1.modCoreAt p.val (fun c => c.foldInto d.dslot (d.rowDigest r d.done) (d.rowNonZero r)) else s1)
      p.val r.drainCheck) := by
  intro c r ws s1 hwrite
  show execDrainRowRead p errs s = _
  simp only [execDrainRowRead, hhead]
  rw [if_neg (by simp [hgo, hmore, hmode]), if_neg (not_not.mpr hwrite)]

theorem exec_drainComplete_of_rows (hgo : d.started = true) (hrows : d.rows ≤ d.done) :
    exec (.drainComplete p) s = .next ((s.setCore p { s.core p with qDrain := (s.core p).qDrain.tail }).pump p) := by
  show execDrainComplete p s = _
  simp only [execDrainComplete, hhead]
  rw [if_pos ⟨hgo, hrows, hmode⟩]

end

section
variable (hmode : (s.core p).mode = .faulted)
include hmode

/-- The drain of a core that a fault has stopped stays as it is (R268). -/
theorem exec_drainStart_of_faulted : exec (.drainStart p) s = .next s := by
  show execDrainStart p s = _
  unfold execDrainStart
  simp only [hmode, or_true, if_true]
  split <;> rfl

theorem exec_drainRowRead_of_faulted (errs : List BitError) : exec (.drainRowRead p errs) s = .next s := by
  show execDrainRowRead p errs s = _
  unfold execDrainRowRead
  simp only [hmode, or_true, if_true]
  split <;> rfl

theorem exec_drainComplete_of_faulted : exec (.drainComplete p) s = .next s := by
  show execDrainComplete p s = _
  unfold execDrainComplete
  simp only [hmode, ne_eq, not_true_eq_false, and_false, if_false]
  split <;> rfl

theorem exec_feederFill_of_faulted (i : Fin 512) : exec (.feederFill p i) s = .next s :=
  congrArg Host.Outcome.next (if_neg fun ⟨_, hgo⟩ => hgo hmode)

end

end Sys2Proof.Machine

namespace Sys2Proof.Claims
open Machine

/-- The events of the array, the feeders and the drain, one by one. -/
theorem claimArrayEventsAct_holds : claimArrayEventsAct := by
  intro p s c
  refine ⟨fun hmode => ⟨exec_rowIssue_of_faulted hmode, exec_swap_of_faulted hmode, exec_drainStart_of_faulted hmode,
      exec_drainRowRead_of_faulted hmode, exec_drainComplete_of_faulted hmode, exec_feederFill_of_faulted hmode⟩,
    fun ord w rest hmode hhead hloading hshadow => ?start,
    fun w hloading hread => exec_shadowComplete_of_read hloading hread,
    fun i ord m hmode hroom hfill => ?fill,
    fun ord m b row hmode hnext hactive htag hholds hheads => ?row,
    fun ord m b hmode hnext hshadow htag hactive => exec_swap_of_tag hmode hnext hshadow htag hactive,
    fun f rest errs hpipe => ⟨exec_contributionLand_of_row errs hpipe, fun halone => State.logRow_of_alone halone _⟩,
    fun h => ⟨rfl, State.residueHit_first h⟩, fun ord d hmode hhead => ?drain⟩
  case start =>
    exact congrArg (fun t => Host.Outcome.next (State.pump t p)) (State.startWload_of_free hmode hhead hloading hshadow)
  case fill =>
    intro t hread
    exact exec_feederFill_of_room hmode hroom hfill hread
  case row =>
    refine ⟨_, exec_rowIssue_of_row hmode hnext hactive htag hholds hheads, ?_⟩
    refine ⟨?pipe, ?grid, ?active, fun q hq => ?others, ?mem, ?sems, ?host⟩
    case pipe | grid | active => simp [c, State.addFlags, State.modCoreAt_val, Core.addCycles]
    case others => simp [State.addFlags, State.modCoreAt_val, State.core_setCore_other _ hq]
    case mem | sems | host => simp [State.addFlags, State.countCore]
  case drain =>
    refine ⟨exec_drainStart_of_landed hmode hhead, fun hgo hmore errs => ?_, exec_drainComplete_of_rows hmode hhead⟩
    intro r ws s1 hwrite
    have hstep := exec_drainRowRead_of_row hmode hhead hgo hmore errs hwrite
    exact ⟨fun hplain => hstep.trans (by rw [if_neg (Bool.eq_false_iff.mp hplain)]),
      fun hdigest => hstep.trans (by rw [if_pos hdigest])⟩

/-- Settles O5: the commands of the array as they are decoded (`claimArrayCommandsDecoded_holds`) and its events
(`claimArrayEventsAct_holds`). -/
theorem arrayCommandsAndEvents : Obligations.ArrayCommandsAndEvents :=
  ⟨claimArrayCommandsDecoded_holds, claimArrayEventsAct_holds⟩

end Sys2Proof.Claims
end

section
/-! SUPPORT. A task's image in its scratchpad: the bytes copied from the image and zeros behind them (R237, R298). -/

namespace Sys2Proof.Machine

/-! ### Cells put into a map -/

/-- A key that no entry lists reads as the default. -/
theorem sget_of_unlisted {α : Type} {m : SMap α} {d : Nat → α} {k : Nat} (h : ∀ e ∈ m, e.1 ≠ k) : sget m d k = d k := by
  induction m with
  | nil => rfl
  | cons e m ih =>
    simp only [List.forall_mem_cons] at h
    obtain ⟨hne, hrest⟩ := h
    simp only [sget, if_neg hne]
    exact ih hrest

theorem sget_putCells_apart {m : SMap Byte} {l : List (Nat × Byte)} {k : Nat} (h : ∀ e ∈ l, e.1 ≠ k) :
    sget (putCells m l) memDef k = sget m memDef k := by
  unfold putCells
  induction l generalizing m with
  | nil => rfl
  | cons e l ih =>
    simp only [List.forall_mem_cons] at h
    obtain ⟨hne, hrest⟩ := h
    exact (ih hrest).trans (sget_sput_other _ hne.symm)

theorem sget_putCells_of_mem {m : SMap Byte} (hm : Memory.wf m) {l : List (Nat × Byte)}
    (hl : l.Pairwise (fun x y => x.1 < y.1)) {e : Nat × Byte} (he : e ∈ l) : sget (putCells m l) memDef e.1 = e.2 := by
  unfold putCells
  induction l generalizing m with
  | nil => cases he
  | cons x l ih =>
    obtain ⟨hfirst, hrest⟩ := List.pairwise_cons.1 hl
    rcases List.mem_cons.1 he with rfl | he
    · exact (sget_putCells_apart fun y hy => (hfirst y hy).ne').trans (sget_sput_same hm.1 _ _)
    · exact ih (sput_wf hm _ _) hrest he

theorem mem_cellsAt {m : SMap Byte} {a n dest : Nat} {x : Nat × Byte} :
    x ∈ cellsAt m a n dest ↔ ∃ e ∈ m, (a ≤ e.1 ∧ e.1 < a + n) ∧ (e.1 - a + dest, e.2) = x := by
  simp only [cellsAt, List.mem_map, List.mem_filter, decide_eq_true_eq, and_assoc]

theorem cellsAt_pairwise {m : SMap Byte} (hm : Memory.wf m) (a n dest : Nat) :
    (cellsAt m a n dest).Pairwise (fun x y => x.1 < y.1) := by
  refine List.pairwise_map.mpr (List.Pairwise.imp_of_mem ?_ (hm.1.filter _))
  intro x y hx hy hlt
  have hxa := (decide_eq_true_eq.mp (List.mem_filter.mp hx).2).1
  have hya := (decide_eq_true_eq.mp (List.mem_filter.mp hy).2).1
  show x.1 - a + dest < y.1 - a + dest
  omega

/-- Over zeros, the cells of n bytes from a read at dest as those bytes, and as zeros behind them. -/
theorem sget_putCells_cellsAt {m k : SMap Byte} (hm : Memory.wf m) (hk : Memory.wf k) {a n dest i : Nat}
    (hzero : sget m memDef (dest + i) = 0#8) :
    sget (putCells m (cellsAt k a n dest)) memDef (dest + i) = if i < n then sget k memDef (a + i) else 0#8 := by
  by_cases hlisted : ∃ e ∈ k, e.1 = a + i ∧ i < n
  · obtain ⟨e, he, hkey, hi⟩ := hlisted
    have hcell : (dest + i, e.2) ∈ cellsAt k a n dest :=
      mem_cellsAt.mpr ⟨e, he, by omega, Prod.ext (show e.1 - a + dest = dest + i by omega) rfl⟩
    rw [if_pos hi, ← hkey, sget_of_mem hk.1 he]
    exact sget_putCells_of_mem hm (cellsAt_pairwise hk a n dest) hcell
  · have hapart : ∀ x ∈ cellsAt k a n dest, x.1 ≠ dest + i := by
      intro x hx heq
      obtain ⟨e, he, hrange, rfl⟩ := mem_cellsAt.mp hx
      have hkey : e.1 - a + dest = dest + i := heq
      exact hlisted ⟨e, he, by omega, by omega⟩
    rw [sget_putCells_apart hapart, hzero]
    split
    · next hi => exact (sget_of_unlisted (d := memDef) fun e he hkey => hlisted ⟨e, he, hkey, hi⟩).symm
    · rfl

/-! ### The scratchpad of a core (R161, R163) -/

/-- The four banks of a scratchpad hold all its bytes (R161); cleared, they read as zeros (R193). -/
theorem State.byte_clearScratch {s : State} {p i : Nat} (hp : p < 72) (hi : i < 0x400000) :
    (s.clearScratch p).byte (spBase p + i) = 0#8 := by
  have hset (t : State) (b : Nat) (x : Bank) (a : Nat) : (t.setBank b x).byte a = t.byte a := rfl
  have hbank (b : Nat) (hb : b < 4) : bankStart (4 * p + b) = spBase p + 2 ^ 20 * b ∧
      bankRows (4 * p + b) * rowBytes (4 * p + b) = 2 ^ 20 := by
    simp only [bankStart, bankRows, rowBytes, spBase]
    split_ifs <;> omega
  simp only [State.clearScratch, List.range_succ, List.range_zero, List.nil_append, List.cons_append, List.foldl_cons,
    List.foldl_nil, hset, State.byte_loseBank]
  simp only [hbank 0 (by simp), hbank 1 (by simp), hbank 2 (by simp), hbank 3 (by simp)]
  simp only [ite_eq_left_iff]
  intro h3 h2 h1 h0
  omega

theorem State.loadImage_mem (s : State) (p image n : Nat) :
    (s.loadImage p image n).mem = putCells (s.clearScratch p).mem (cellsAt s.mem image (4096 * n) (spBase p)) :=
  List.foldlRecOn (motive := fun t : State => t.mem = _) _ _ rfl (fun _ ht _ _ => ht)

/-- The image stands at the start of the scratchpad, zeros behind it (R237). -/
theorem State.byte_loadImage {s : State} (h : s.Canonical) {p i : Nat} (hp : p < 72) (hi : i < 0x400000) (image n : Nat) :
    (s.loadImage p image n).byte (spBase p + i) = if i < 4096 * n then s.byte (image + i) else 0#8 := by
  rw [State.byte, State.loadImage_mem]
  exact sget_putCells_cellsAt h.clearScratch.mem h.mem (State.byte_clearScratch hp hi)

end Sys2Proof.Machine
end

section
/-! SUPPORT. Jobs as they start, the collector, Crown's drain of its entries, and the release of a faulted job's cores (R237,
R269, R298, R319, R320, R323 to R325, R504, R505). -/

namespace Sys2Proof.Machine

variable {s : State}

/-! ### Starting (R298, R504, R505) -/

/-- JOB_START starts the oldest waiting job of its queue set where it can be placed (R298, R504). -/
theorem exec_jobStart_of_waiting {q : QSet} {j : Job} (hadmits : s.admits = true)
    (hnone : s.jobs.find? (fun j => j.qset == q.val && j.st == .resuming) = none)
    (hwaiting : s.jobs.find? (fun j => j.qset == q.val && j.st == .waiting) = some j) :
    exec (.jobStart q) s = .next ((s.startJob j).getD s) := by
  show execJobStart q s = _
  simp only [execJobStart, hadmits, hnone, hwaiting, not_true_eq_false, if_false]

/-! ### The state of a started task (R237) -/

@[simp] theorem State.giveBank_cores (s : State) (k c : Nat) : (s.giveBank k c).cores = s.cores := by
  have hfold (l : List Nat) : (l.foldl (fun st b => st.ownBank k c b) s).cores = s.cores :=
    List.foldlRecOn (motive := fun t : State => t.cores = s.cores) l _ rfl (fun _ ht _ _ => ht)
  unfold State.giveBank
  dsimp only
  split
  · exact hfold _
  · split
    · rfl
    · exact hfold _

theorem State.coreAt_congr {t : State} (h : t.cores = s.cores) (n : Nat) : t.coreAt n = s.coreAt n := by
  simp only [State.coreAt, State.core, h]

/-- A move rewrites what a core holds of its commands (R165, R301). -/
theorem State.rewriteCore_coreAt {p : Nat} (hp : p < 72) (mv : Move) :
    (s.rewriteCore p mv).coreAt p = mv.core s.nodeId (s.coreAt p) :=
  State.coreAt_modCoreAt_same _ hp _

/-- A started task's core: R237's state, its commands and queues rewritten for the physical cores. -/
theorem State.startTask_coreAt {j : Job} {ps fs : List Nat} {t p : Nat} {e : Task} (hp : p < 72) :
    let v := ((s.bumpRole p).loadImage p e.image e.imgLen).modCoreAt p (fun _ => startedCore j t e)
    (s.startTask j ps fs t p e).coreAt p = (startMove j ps fs t p).core v.nodeId (startedCore j t e) := by
  rw [State.startTask, State.coreAt_congr (State.giveBank_cores ..), State.rewriteCore_coreAt hp,
    State.coreAt_modCoreAt_same _ hp]

/-! ### The addresses of a started task (R165, R244) -/

theorem addrBase_of_lt {a : Nat} (h : a < 2 ^ 48) : addrBase a = a := by
  simp only [addrBase]
  omega

theorem addrMode_of_lt {a : Nat} (h : a < 2 ^ 48) : addrMode a = 0 := by
  simp only [addrMode, bits, Nat.shiftRight_eq_div_pow, Nat.div_eq_of_lt h, Nat.zero_mod]

/-- An address of the scratchpad of place k lies in that of no other place (R163). -/
theorem find_scratchpad {n k o : Nat} (hk : k < n) (ho : o < 0x400000) :
    (List.range n).find? (fun u => decide (spBase u ≤ spBase k + o ∧ spBase k + o < spBase (u + 1))) = some k := by
  refine List.find?_range_eq_some.mpr ⟨decide_eq_true ?_, List.mem_range.mpr hk, fun u hu => ?_⟩
  · simp only [spBase]
    omega
  · rw [Bool.not_eq_true', decide_eq_false_iff_not]
    simp only [spBase]
    omega

/-- The core of logical place k in a job's image is the one that the job was placed on there. -/
theorem startMove_addr {j : Job} {ps : List Nat} {t own k o : Nat} (hk : k < ps.length) (hk72 : k < 72)
    (ho : o < 0x400000) :
    (startMove j ps [] t own).addr (spBase k + o) = spBase (if k = t then own else nth ps k) + o := by
  have hlt : spBase k + o < 2 ^ 48 := by simp only [spBase]; omega
  have hcores : (startMove j ps [] t own).cores =
      (List.range ps.length).map (fun u => (u, if u = t then own else nth ps u)) :=
    List.flatMap_pure_eq_map _ _
  have hfind : (startMove j ps [] t own).cores.find? (fun e => decide (spBase e.1 ≤ spBase k + o ∧
      spBase k + o < spBase (e.1 + 1))) = some (k, if k = t then own else nth ps k) := by
    rw [hcores, List.find?_map]
    exact congrArg (Option.map _) (find_scratchpad hk ho)
  simp only [Move.addr, addrBase_of_lt hlt, addrMode_of_lt hlt, hfind]
  omega

/-! ### The collector (R323, R324) -/

/-- With one canton that waits, the collector takes the first entry of its latch. -/
theorem exec_collectorTake_of_one {e : CollEntry} {rest : List CollEntry} {c : Nat} (hc : c < 8)
    (hlatch : s.latchesOf c = e :: rest) (hothers : ∀ d, d < 8 → d ≠ c → s.latchesOf d = [])
    (hroom : s.collQ.length < 1024) :
    exec .collectorTake s = .next (({ s with
      collCycle := s.collCycle + 1
      latches := sput s.latches (fun _ => []) c rest
      collQ := s.collQ ++ [{ e with take := s.collCycle % 2 ^ 48 }] } : State).refillLatch e.core) := by
  have hwaiting : (List.range 8).filter (fun c => !(s.latchesOf c).isEmpty) = [c] := by
    have hpred : ∀ d ∈ List.range 8, (!(s.latchesOf d).isEmpty) = (d == c) := by
      intro d hd
      by_cases heq : d = c
      · simp [heq, hlatch]
      · simp [heq, hothers d (List.mem_range.mp hd) heq]
    rw [List.filter_congr hpred, List.filter_beq,
      List.count_eq_one_of_mem List.nodup_range (List.mem_range.mpr hc), List.replicate_one]
  have htaken : [c].take (1024 - s.collQ.length) = [c] := List.take_of_length_le (by simp; omega)
  have hlatch1 : ({ s with collCycle := s.collCycle + 1 } : State).latchesOf c = e :: rest := hlatch
  show execCollectorTake s = _
  simp only [execCollectorTake, hwaiting, htaken, List.foldl_cons, List.foldl_nil, hlatch1]

theorem State.refillLatch_of_none {p : Nat} (h : s.latchHeld.find? (fun e => e.core == p) = none) : s.refillLatch p = s := by
  simp only [State.refillLatch, h]

theorem State.refillLatch_of_held {p : Nat} {e : CollEntry} (h : s.latchHeld.find? (fun e => e.core == p) = some e) :
    s.refillLatch p = ({ s with latchHeld := s.latchHeld.erase e } : State).enterLatch e := by
  simp only [State.refillLatch, h]

/-! ### Completions and faulted jobs (R269, R325) -/

section
variable {e : CollEntry} {rest : List CollEntry} (hq : s.collQ = e :: rest)
include hq

theorem exec_completionWrite_of_no_job (hnone : s.jobOf e.job = none) :
    exec .completionWrite s = .next { s with collQ := rest } := by
  show execCompletionWrite s = _
  simp only [execCompletionWrite, hq, hnone]

/-- An entry acts on its job unless its queue set has 1,024 completions held back (R325). -/
theorem exec_completionWrite_of_job {j : Job} (hjob : s.jobOf e.job = some j) :
    exec .completionWrite s = .next (if 1024 ≤ (s.heldFor j.qset).length then s
      else ((({ s with collQ := rest }).modJob e.job e.onJob).trySuspended e.job).tryFinish e.job) := by
  show execCompletionWrite s = _
  simp only [execCompletionWrite, hq, hjob]

end

theorem exec_faultedJobRelease_of_job {h : BitVec 32} {j : Job} (hjob : s.jobOf h.toNat = some j) :
    exec (.faultedJobRelease h) s =
      .next (if j.st = .faulted then (s.releaseCores h.toNat).tryFinish h.toNat else s) := by
  show execFaultedJobRelease h s = _
  simp only [execFaultedJobRelease, hjob]

end Sys2Proof.Machine

namespace Sys2Proof.Claims
open Machine

/-- Settles O20: a job's start, its tasks' state (`State.startTask_coreAt`, `State.byte_loadImage`, `startMove_addr`), the
collector, the completions and the release of cores. -/
theorem jobsStartAndComplete : Obligations.JobsStartAndComplete := by
  intro s
  refine ⟨fun q j hadmits hnone hwaiting => ?start, fun j ps fs t p e hp hs himg => ?task,
    fun e rest c hc hlatch hothers hroom => exec_collectorTake_of_one hc hlatch hothers hroom,
    fun p => ⟨State.refillLatch_of_none, fun e => State.refillLatch_of_held⟩, fun e rest hq => ?completion,
    fun h j hjob => ?release, fun _ _ => rfl⟩
  case start =>
    have hstart := exec_jobStart_of_waiting hadmits hnone hwaiting
    exact ⟨fun ps fs hplace => hstart.trans (by simp only [State.startJob, hplace, Option.map_some, Option.getD_some]),
      fun hplace => hstart.trans (by simp only [State.startJob, hplace, Option.map_none, Option.getD_none])⟩
  case task =>
    intro mv v u c
    refine ⟨rfl, ?addr, ?state⟩
    case addr =>
      rintro k o rfl hk hk72 ho
      exact startMove_addr hk hk72 ho
    case state =>
      have hcore : c = mv.core v.nodeId (startedCore j t e) := State.startTask_coreAt hp
      rw [hcore]
      refine ⟨rfl, rfl, rfl, rfl, rfl, rfl, rfl, rfl, rfl, rfl, rfl, rfl, fun i hi => ?_⟩
      have hmem : v.mem = ((s.bumpRole p).loadImage p e.image e.imgLen).mem := State.modCoreAt_mem ..
      rw [State.byte, hmem]
      exact State.byte_loadImage (State.Canonical.of_canonical hs).bumpRole hp hi ..
  case completion =>
    refine ⟨exec_completionWrite_of_no_job hq, fun j hjob hroom => ?_, fun j hjob hfull => ?_⟩
    · exact (exec_completionWrite_of_job hq hjob).trans (congrArg Host.Outcome.next (if_neg hroom.not_ge))
    · exact (exec_completionWrite_of_job hq hjob).trans (congrArg Host.Outcome.next (if_pos hfull))
  case release =>
    have hrelease := exec_faultedJobRelease_of_job hjob
    exact ⟨fun hst => hrelease.trans (by rw [if_pos hst]), fun hst => hrelease.trans (by rw [if_neg hst])⟩

end Sys2Proof.Claims
end

section
/-! SUPPORT. Cores that the device needs at their boundaries, and the refresh of a stack that waits for them (R286, R288 to
R290). -/

namespace Sys2Proof.Machine

variable {s : State} {k : Nat}

/-! ### The cores of a partition, needed at their boundaries or released -/

/-- Who owns a core is told by the logical map and the pairs (R183, R524). -/
theorem State.coreOwner_congr {t : State} (hlogical : t.logical = s.logical) (hsafety : t.safety = s.safety) (p : Nat) :
    t.coreOwner p = s.coreOwner p := by
  simp only [State.coreOwner, State.coreHome, State.standsFor, hlogical, hsafety]

/-- A core needed at its next boundary for n, or needed for it no more. -/
def Core.setNeed (n : Need) (on : Bool) (c : Core) : Core :=
  if on then (if c.needs.contains n then c else { c with needs := c.needs ++ [n] }) else c.needDone n

theorem Core.mem_needs_setNeed (n : Need) (on : Bool) (c : Core) : n ∈ (c.setNeed n on).needs ↔ on = true := by
  cases on with
  | false => simp [Core.setNeed, Core.notMem_needs_needDone]
  | true =>
    by_cases h : n ∈ c.needs
    · simp [Core.setNeed, h]
    · simp [Core.setNeed, h]

/-- What `State.needPart` does at core p. -/
def State.needAt (k : Nat) (n : Need) (on : Bool) (s : State) (p : Nat) : State :=
  if s.coreOwner p = some k ∧ (s.coreAt p).job.isSome then s.modCoreAt p (Core.setNeed n on) else s

theorem State.needPart_eq_foldl (s : State) (k : Nat) (n : Need) (on : Bool) :
    s.needPart k n on = (List.range 72).foldl (State.needAt k n on) s := by
  cases on <;> rfl

/-- What a change of a core leaves alone, a need recorded leaves alone. -/
theorem State.needAt_keeps {α : Type} {f : State → α} (hcore : ∀ t p g, f (State.modCoreAt t p g) = f t) (s : State)
    (k : Nat) (n : Need) (on : Bool) (p : Nat) : f (s.needAt k n on p) = f s := by
  unfold State.needAt
  split
  · exact hcore ..
  · rfl

theorem State.needPart_keeps {α : Type} {f : State → α} (hcore : ∀ t p g, f (State.modCoreAt t p g) = f t) (s : State)
    (k : Nat) (n : Need) (on : Bool) : f (s.needPart k n on) = f s := by
  rw [State.needPart_eq_foldl]
  exact List.foldlRecOn (motive := fun t => f t = f s) _ _ rfl
    fun t ht p _ => (State.needAt_keeps hcore t k n on p).trans ht

theorem State.needAt_coreAt_other {p q : Nat} (h : p ≠ q) (n : Need) (on : Bool) :
    (s.needAt k n on q).coreAt p = s.coreAt p := by
  unfold State.needAt
  split
  · exact State.coreAt_modCoreAt_other _ h _
  · rfl

theorem State.needAt_coreAt_same {p : Nat} (hp : p < 72) (howner : s.coreOwner p = some k)
    (hjob : (s.coreAt p).job.isSome) (n : Need) (on : Bool) :
    (s.needAt k n on p).coreAt p = (s.coreAt p).setNeed n on := by
  rw [State.needAt, if_pos ⟨howner, hjob⟩, State.coreAt_modCoreAt_same _ hp]

theorem State.needAt_coreOwner (n : Need) (on : Bool) (q p : Nat) :
    (s.needAt k n on q).coreOwner p = s.coreOwner p :=
  State.needAt_keeps (f := fun t => t.coreOwner p)
    (fun t _ _ => State.coreOwner_congr (t.modCoreAt_logical ..) (t.modCoreAt_safety ..) p) ..

/-- Each core is visited once: those visited after it leave it alone. -/
theorem State.foldl_needAt_coreAt {l : List Nat} (hl : l.Nodup) {p : Nat} (hmem : p ∈ l) (hp : p < 72)
    (howner : s.coreOwner p = some k) (hjob : (s.coreAt p).job.isSome) (n : Need) (on : Bool) :
    (l.foldl (State.needAt k n on) s).coreAt p = (s.coreAt p).setNeed n on := by
  induction l generalizing s with
  | nil => simp at hmem
  | cons q l ih =>
    obtain ⟨hq, hl⟩ := List.nodup_cons.mp hl
    by_cases heq : p = q
    · subst heq
      have hrest : (l.foldl (State.needAt k n on) (s.needAt k n on p)).coreAt p = (s.needAt k n on p).coreAt p :=
        List.foldlRecOn (motive := fun t : State => t.coreAt p = _) _ _ rfl
          fun t ht r hr => (State.needAt_coreAt_other (ne_of_mem_of_not_mem hr hq).symm n on).trans ht
      exact hrest.trans (State.needAt_coreAt_same hp howner hjob n on)
    · have hkept : (s.needAt k n on q).coreAt p = s.coreAt p := State.needAt_coreAt_other heq n on
      rw [List.foldl_cons, ih hl ((List.mem_cons.mp hmem).resolve_left heq)
        ((State.needAt_coreOwner ..).trans howner) (by rwa [hkept]), hkept]

theorem State.needPart_core {p : CoreId} (howner : s.coreOwner p.val = some k) (hjob : (s.core p).job ≠ none) (n : Need)
    (on : Bool) : (s.needPart k n on).core p = (s.core p).setNeed n on := by
  rw [← State.coreAt_val, ← State.coreAt_val, State.needPart_eq_foldl]
  rw [← State.coreAt_val] at hjob
  exact State.foldl_needAt_coreAt List.nodup_range (List.mem_range.mpr p.isLt) p.isLt howner
    (Option.isSome_iff_ne_none.mpr hjob) n on

/-! ### Counted events change Visor's counters alone -/

/-- The state with other counters in Visor (R510). -/
def State.setVisor (s : State) (v : SMap Nat) : State := { s with visor := v }

theorem State.visorCount_frame (s : State) (i n e : Nat) (part : Option Nat) (b : Nat) :
    ∃ v, s.visorCount i n e part b = s.setVisor v := by
  unfold State.visorCount
  split
  · exact ⟨s.visor, rfl⟩
  · exact ⟨_, rfl⟩

theorem State.countGap_frame (s : State) (k : Nat) (cs : List Nat) : ∃ v, s.countGap k cs = s.setVisor v := by
  unfold State.countGap
  split
  · refine List.foldlRecOn (motive := fun t : State => ∃ v, t = s.setVisor v) _ _ ⟨s.visor, rfl⟩ ?_
    rintro _ ⟨v, rfl⟩ c -
    exact State.visorCount_frame ..
  · exact ⟨s.visor, rfl⟩

/-! ### HBM_REFRESH, case by case -/

/-- Whether partition k aligns its refreshes and holds a segment of stack st (R286). -/
def State.alignsOn (s : State) (st k : Nat) : Bool :=
  s.refreshAlign k && (s.segsOf k).any (fun g => sget s.segStack zeroD g == st + 1)

theorem State.alignsOn_iff {st : Nat} :
    s.alignsOn st k = true ↔ s.refreshAlign k = true ∧ ∃ g ∈ s.segsOf k, sget s.segStack zeroD g = st + 1 := by
  simp [State.alignsOn]

/-- The state that owes stack st n refreshes (R288). -/
def State.setOwed (s : State) (st n : Nat) : State :=
  { s with power := { s.power with refreshOwed := s.power.refreshOwed.set st n } }

theorem State.setOwed_owed {st : Nat} (h : st < s.power.refreshOwed.length) (n : Nat) :
    nth (s.setOwed st n).power.refreshOwed st = n := by
  simp [State.setOwed, nth, h]

/-- The limits of partition k's cores after a refresh that could be postponed no further (R290, log 152). -/
def State.breakLimits (s : State) (k : Nat) : State :=
  s.takeFree.2.relimit ((List.range 72).filter (fun p => s.coreOwner p == some k)) (fun _ => 800 + 25 * (s.takeFree.1 % 33))

theorem State.breakFreq_eq (s : State) (k : Nat) : s.breakFreq k = (s.breakLimits k).timingBreak k := rfl

theorem State.breakLimits_own {p : Nat} (hp : p < 72) (howner : s.coreOwner p = some k) :
    nth (s.breakLimits k).power.limit p = 800 + 25 * (s.takeFree.1 % 33) := by
  rw [State.breakLimits, State.relimit_limit _ _ _ hp, if_pos (by simp [hp, howner])]

theorem State.breakLimits_other {p : Nat} (hp : p < 72) (howner : s.coreOwner p ≠ some k) :
    nth (s.breakLimits k).power.limit p = nth s.power.limit p := by
  rw [State.breakLimits, State.relimit_limit _ _ _ hp, if_neg (by simp [howner])]
  rfl

section
variable {st : Fin 4}

theorem exec_hbmRefresh_free (hnone : ∀ k < 16, s.alignsOn st.val k = false) :
    exec (.hbmRefresh st) s = .next (s.setOwed st.val 0) := by
  have hfind : (List.range 16).find? (s.alignsOn st.val) = none :=
    List.find?_range_eq_none.mpr fun k hk => by simp [hnone k hk]
  show execHbmRefresh st s = _
  unfold State.alignsOn at hfind
  simp only [execHbmRefresh, hfind]
  rfl

variable (hk : k < 16) (halign : s.alignsOn st.val k = true) (hfirst : ∀ j < k, s.alignsOn st.val j = false)
include hk halign hfirst

/-- The first partition that aligns its refreshes on the stack decides. -/
theorem exec_hbmRefresh_aligned : exec (.hbmRefresh st) s = .next (
    let owed := nth s.power.refreshOwed st.val
    if s.allAtBoundary k then
      ((if owed = 0 then s.setOwed st.val 0 else (s.setOwed st.val 0).countGap k (s.cantonsOf k)).needPart k .refresh false)
    else if owed < 8 then ((s.setOwed st.val (owed + 1)).countDev 0x004 (some k)).needPart k .refresh true
    else if s.pinned k then s.breakFreq k
    else s) := by
  have hfind : (List.range 16).find? (s.alignsOn st.val) = some k :=
    List.find?_range_eq_some.mpr ⟨halign, List.mem_range.mpr hk, fun j hj => by simp [hfirst j hj]⟩
  show execHbmRefresh st s = _
  unfold State.alignsOn at hfind
  simp only [execHbmRefresh, hfind]
  rfl

theorem exec_hbmRefresh_boundary (hat : s.allAtBoundary k = true) : ∃ v,
    exec (.hbmRefresh st) s = .next (((s.setOwed st.val 0).setVisor v).needPart k .refresh false) := by
  rw [exec_hbmRefresh_aligned hk halign hfirst]
  dsimp only
  rw [if_pos hat]
  split
  · exact ⟨s.visor, rfl⟩
  · obtain ⟨v, hv⟩ := (s.setOwed st.val 0).countGap_frame k (s.cantonsOf k)
    exact ⟨v, by rw [hv]⟩

variable (hat : s.allAtBoundary k = false)
include hat

theorem exec_hbmRefresh_postponed (howed : nth s.power.refreshOwed st.val < 8) : ∃ v,
    exec (.hbmRefresh st) s = .next
      (((s.setOwed st.val (nth s.power.refreshOwed st.val + 1)).setVisor v).needPart k .refresh true) := by
  obtain ⟨v, hv⟩ := (s.setOwed st.val (nth s.power.refreshOwed st.val + 1)).visorCount_frame 0x8300 32 0x004 (some k) 1
  refine ⟨v, ?_⟩
  rw [exec_hbmRefresh_aligned hk halign hfirst]
  simp only [hat, Bool.false_eq_true, if_false, if_pos howed, State.countDev, hv]

theorem exec_hbmRefresh_late (howed : 8 ≤ nth s.power.refreshOwed st.val) :
    exec (.hbmRefresh st) s = .next (if s.pinned k then (s.breakLimits k).timingBreak k else s) := by
  rw [exec_hbmRefresh_aligned hk halign hfirst]
  simp only [hat, Bool.false_eq_true, if_false, if_neg howed.not_gt, State.breakFreq_eq]

end

/-- The refreshes owed recorded and events counted, then the partition's cores needed or released: nothing else of the host,
of memory or of those cores changes. -/
theorem State.needPart_setOwed {st : Nat} (h : st < s.power.refreshOwed.length) (n : Nat) (v : SMap Nat) (need : Need)
    (on : Bool) : let t := ((s.setOwed st n).setVisor v).needPart k need on
    nth t.power.refreshOwed st = n ∧ t.host = s.host ∧ t.mem = s.mem ∧
      ∀ p : CoreId, s.coreOwner p.val = some k → (s.core p).job ≠ none → (need ∈ (t.core p).needs ↔ on = true) := by
  intro t
  have hkeeps {α : Type} (f : State → α) (hcore : ∀ t p g, f (State.modCoreAt t p g) = f t) :=
    State.needPart_keeps hcore ((s.setOwed st n).setVisor v) k need on
  refine ⟨?_, hkeeps State.host State.modCoreAt_host, hkeeps State.mem State.modCoreAt_mem, fun p howner hjob => ?_⟩
  · rw [hkeeps State.power State.modCoreAt_power]
    exact State.setOwed_owed h n
  · have hcore : t.core p = (s.core p).setNeed need on :=
      State.needPart_core (s := (s.setOwed st n).setVisor v) howner hjob need on
    rw [hcore, Core.mem_needs_setNeed]

end Sys2Proof.Machine
end

section
/-! SUPPORT. The test access port: its controller and IDCODE (R569). -/

namespace Sys2Proof.Machine

/-- Five cycles with TMS one reach Test-Logic-Reset from every state (IEEE 1149.1). -/
theorem TapSt.next_five_ones (x : TapSt) :
    ((((x.next true).next true).next true).next true).next true = .reset := by
  cases x <;> rfl

theorem bits_lt_two_pow (w hi lo : Nat) : bits w hi lo < 2 ^ (hi + 1 - lo) := Nat.mod_lt _ (Nat.two_pow_pos _)

/-- `idcode` with w for its open bits (log 25). The open bits are opaque, and reducing the closed sum of `idcode` does not end in
reach; with w a variable nothing is reduced. -/
def idcodeOf (w : BitVec 32) : Nat := 0x7200 * 2 ^ 12 + bits w.toNat 31 28 * 2 ^ 28 + bits w.toNat 11 1 * 2 + 1

theorem idcode_eq : idcode = idcodeOf Config.idcodeOther := rfl

/-- The open bits lie outside [27:12]. -/
theorem idcodeOf_part (w : BitVec 32) : idcodeOf w / 2 ^ 12 % 2 ^ 16 = 0x7200 := by
  have hlow : bits w.toNat 11 1 < 2 ^ 11 := bits_lt_two_pow ..
  unfold idcodeOf
  omega

theorem idcode_part : idcode / 2 ^ 12 % 2 ^ 16 = 0x7200 := by
  rw [idcode_eq, idcodeOf_part]

end Sys2Proof.Machine

namespace Sys2Proof.Claims
open Machine

/-- By the cases of HBM_REFRESH: the first partition that aligns its refreshes on the stack decides, by where its cores stand and
by what is owed. -/
theorem claimHbmRefreshPostponed_holds : claimHbmRefreshPostponed := by
  intro st s hlen aligned owed
  have hst : st.val < s.power.refreshOwed.length := by omega
  have hnot : ∀ k, ¬ aligned k → s.alignsOn st.val k = false := fun k h =>
    Bool.eq_false_iff.mpr (mt State.alignsOn_iff.mp h)
  refine ⟨fun hnone => ⟨_, exec_hbmRefresh_free fun k hk => hnot k (hnone k hk), State.setOwed_owed hst 0⟩,
    fun k hk halign hfirst => ?_⟩
  have halign := State.alignsOn_iff.mpr halign
  have hfirst := fun j hj => hnot j (hfirst j hj)
  refine ⟨fun hat => ?boundary, fun hat howed => ?postponed, fun hat howed hpin => ?broken, fun hat howed hpin => ?kept⟩
  case boundary =>
    obtain ⟨v, hexec⟩ := exec_hbmRefresh_boundary hk halign hfirst hat
    obtain ⟨hnow, hhost, -, hneeds⟩ := State.needPart_setOwed (k := k) hst 0 v .refresh false
    exact ⟨_, hexec, hnow, hhost, fun p howner hjob => (hneeds p howner hjob).not.mpr (by decide)⟩
  case postponed =>
    obtain ⟨v, hexec⟩ := exec_hbmRefresh_postponed hk halign hfirst hat howed
    obtain ⟨hnow, hhost, hmem, hneeds⟩ := State.needPart_setOwed (k := k) hst (nth s.power.refreshOwed st.val + 1) v .refresh true
    exact ⟨_, hexec, hnow, hhost, hmem, fun p howner hjob => (hneeds p howner hjob).mpr rfl⟩
  case broken =>
    refine ⟨s.breakLimits k, ?_, rfl, fun p hp howner => ?_, fun p hp => State.breakLimits_other hp⟩
    · rw [exec_hbmRefresh_late hk halign hfirst hat howed, if_pos hpin, State.timingBreak]
    · rw [State.breakLimits_own hp howner]
      omega
  case kept =>
    rw [exec_hbmRefresh_late hk halign hfirst hat howed, if_neg (Bool.eq_false_iff.mp hpin)]

/-- One cycle of TCK by the state that it leaves (what is captured or shifted) and the one that it enters (what is driven). -/
theorem claimTapShiftsAndDrives_holds : claimTapShiftsAndDrives := by
  refine ⟨fun tms tdi s => ?_, TapSt.next_five_ones, idcode_part⟩
  refine ⟨_, rfl, rfl, ?driven, ?reset, ?idcode, ?bypass, ?shift, ?frame⟩
  case driven =>
    dsimp only
    cases s.tap.st.next tms <;> simp
  case reset =>
    intro hreset
    dsimp only at hreset ⊢
    rw [hreset]
  case idcode =>
    intro hst hir
    dsimp only
    rw [hst, hir]
  case bypass =>
    intro hst hir
    dsimp only
    rw [hst, hir]
  case shift =>
    intro hst
    dsimp only
    rw [hst]
  case frame =>
    dsimp only
    split
    · rfl
    · rfl

/-- Settles O57: HBM_REFRESH case by case (`exec_hbmRefresh_aligned`, `State.needPart_core`), and one cycle of TCK. -/
theorem hbmRefreshAndTap : Obligations.HbmRefreshAndTap :=
  ⟨claimHbmRefreshPostponed_holds, claimTapShiftsAndDrives_holds⟩

end Sys2Proof.Claims
end

section
/-! SUPPORT. A task saved at its boundary and put back on its core: what the saved state holds, and what the core and its
scratchpad hold after it is restored (R306, R309, R310). -/

namespace Sys2Proof.Machine

variable {s : State} {p h t : Nat} {j : Job}

/-! ### The job of a task (R298) -/

theorem State.handle_of_jobOf (hj : s.jobOf h = some j) : j.handle = h :=
  beq_iff_eq.mp (List.find?_some (p := fun x : Job => x.handle == h) hj)

/-- A change of a job that keeps handles is found under the same handle. -/
theorem State.jobOf_modJob (hj : s.jobOf h = some j) {f : Job → Job} (hf : ∀ x, (f x).handle = x.handle) :
    (s.modJob h f).jobOf h = some (f j) := by
  have hkeep : (fun x : Job => x.handle == h) ∘ (fun x => if x.handle = h then f x else x) = fun x => x.handle == h := by
    funext x
    dsimp only [Function.comp]
    split
    · rw [hf]
    · rfl
  have hfind : s.jobs.find? (fun x => x.handle == h) = some j := hj
  rw [State.jobOf, State.modJob_jobs, List.find?_map, hkeep, hfind, Option.map_some, if_pos (State.handle_of_jobOf hj)]

theorem Job.taskOn_lt (ht : j.taskOn p = some t) : t < j.tasks.length :=
  List.mem_range.mp (List.mem_of_mem_filter (List.mem_of_head? ht))

/-! ### Saving (R306, R307) -/

/-- The job once the state of its task t is saved. -/
def Job.saving (t : Nat) (sv : Saved) (j : Job) : Job :=
  { j with tasks := (j.tasks[t]?).elim j.tasks (fun e => j.tasks.set t { e with core := none, saved := some sv }) }

section
variable (hcore : (s.coreAt p).job = some h) (hj : s.jobOf h = some j) (ht : j.taskOn p = some t)
include hcore hj ht

theorem State.saveTask_of_task : s.saveTask p =
    ((((s.bumpRole p).modJob h (Job.saving t (s.savedOf p j))).setDmaQ p []).dropWaiters p).modCoreAt p Core.release := by
  have hbind : (s.coreAt p).job.bind s.jobOf = some j := by rw [hcore, Option.bind_some, hj]
  simp only [State.saveTask, hbind, ht, State.handle_of_jobOf hj]
  rfl

theorem State.jobOf_saveTask : (s.saveTask p).jobOf h = some (j.saving t (s.savedOf p j)) := by
  have hbump : (s.bumpRole p).jobOf h = some j := hj
  rw [State.saveTask_of_task hcore hj ht, State.jobOf, State.modCoreAt_jobs]
  exact State.jobOf_modJob hbump fun _ => rfl

end

/-- The task of a job that has just been saved holds its saved state. -/
theorem Job.saving_task (ht : t < j.tasks.length) (sv : Saved) :
    ∃ e, (j.saving t sv).tasks[t]? = some e ∧ e.saved = some sv := by
  simp [Job.saving, ht]

/-- With everything live, what is saved is the core, and its scratchpad whole (R307). -/
theorem State.savedOf_of_all (hmap : (s.coreAt p).saveMap = none) : s.savedOf p j =
    ⟨s.coreAt p, p, cellsAt s.mem (spBase p) 0x400000 0, [], ((s.dmaQ p).filter (fun x => !x.started)).map (·.desc),
      j.moves.length⟩ := by
  simp only [State.savedOf, hmap, Option.map_none]

/-! ### Restoring (R309 to R311) -/

theorem State.giveBank_mem (s : State) (k c : Nat) : (s.giveBank k c).mem = s.mem := by
  have hfold (l : List Nat) : (l.foldl (fun st b => st.ownBank k c b) s).mem = s.mem :=
    List.foldlRecOn (motive := fun t : State => t.mem = s.mem) l _ rfl (fun _ ht _ _ => ht)
  unfold State.giveBank
  dsimp only
  split
  · exact hfold _
  · split
    · rfl
    · exact hfold _

variable {sv : Saved}

/-- The core of a task restored where no move is owed: as it was saved, running unless it had halted, its weight blocks
loaded again (R310). -/
theorem State.restoreTask_coreAt (hp : p < 72) : ∃ active shadow, (s.restoreTask p j sv []).coreAt p =
    { sv.core with
      mode := if sv.core.mode = .halted then .halted else .running
      needs := [], fetched := [], tileEnds := [], seqWait := .none, active := active, shadow := shadow } := by
  unfold State.restoreTask
  extract_lets s1 back m s2 _ s3 s4 s5
  have hsubmit (l : List Nat) (u : State) :
      (l.foldl (fun st d => st.submitDma p (([] : List Move).foldl (fun d mv => mv.transfer s.nodeId d) d) p) u).cores =
        u.cores :=
    List.foldlRecOn (motive := fun v : State => v.cores = u.cores) l _ rfl (fun _ hv _ _ => hv)
  have hlast : s5.coreAt p = { s3.coreAt p with
      active := reload s4.mem p (s3.coreAt p).active, shadow := reload s4.mem p (s3.coreAt p).shadow } :=
    State.coreAt_modCoreAt_same _ hp _
  refine ⟨reload s4.mem p sv.core.active, reload s4.mem p sv.core.shadow, ?_⟩
  rw [State.coreAt_congr (hsubmit ..), State.coreAt_congr (State.giveBank_cores ..), hlast,
    State.coreAt_modCoreAt_same _ hp]

/-- The scratchpad of a task restored with nothing to refetch: the saved cells over zeros (R309). -/
theorem State.restoreTask_mem (hback : sv.refetch = []) : (s.restoreTask p j sv []).mem =
    putCells ((s.bumpRole p).clearScratch p).mem (sv.cells.map (fun e => (spBase p + e.1, e.2))) := by
  unfold State.restoreTask
  extract_lets s1 back m s2 _ s3 s4 s5
  have hsubmit (l : List Nat) (u : State) :
      (l.foldl (fun st d => st.submitDma p (([] : List Move).foldl (fun d mv => mv.transfer s.nodeId d) d) p) u).mem =
        u.mem :=
    List.foldlRecOn (motive := fun v : State => v.mem = u.mem) l _ rfl (fun _ hv _ _ => hv)
  have hbanks : s2.mem = m := List.foldlRecOn (motive := fun v : State => v.mem = m) _ _ rfl (fun _ hv _ _ => hv)
  have hnone : back = [] := congrArg (List.flatMap _) hback
  have hput : m = putCells s1.mem (sv.cells.map (fun e => (spBase p + e.1, e.2))) := by
    show putCells _ back = _
    rw [hnone]
    rfl
  have hcore : s3.mem = s2.mem := State.modCoreAt_mem ..
  rw [hsubmit, State.giveBank_mem, State.modCoreAt_mem]
  exact hcore.trans (hbanks.trans hput)

/-- A task put back on the core that it left, with no move owed to it: restored there, and its job told (R318). -/
theorem State.placeSaved_of_home {e : Task} (hj : s.jobOf h = some j) (htask : j.tasks[t]? = some e)
    (hsaved : e.saved = some sv) (hhome : sv.home = p) (hmoves : sv.moves = j.moves.length) :
    ∃ f, s.placeSaved h t p = (s.restoreTask p j sv []).modJob h f := by
  subst hhome
  have hsems : s.movedSems e sv.home sv.home = e.sems := if_pos (.inl rfl)
  have hstay : s.moveSems j.part ⟨[(sv.home, sv.home)], e.sems, e.sems⟩ = s := if_pos rfl
  simp only [State.placeSaved, hj, htask, hsaved, hsems, hstay, hmoves, and_self, if_true, List.drop_length]
  exact ⟨_, rfl⟩

/-- The cells of a scratchpad, saved by offset and put back, are those of the scratchpad. -/
theorem cellsAt_back (m : SMap Byte) (a n : Nat) :
    (cellsAt m a n 0).map (fun e => (a + e.1, e.2)) = cellsAt m a n a := by
  simp only [cellsAt, List.map_map, Function.comp_def, Nat.add_zero, Nat.add_comm a]

end Sys2Proof.Machine

namespace Sys2Proof.Claims
open Machine

/-- A task saved with everything live and put back: `State.placeSaved_of_home` for its core, the cells of its scratchpad over
zeros for its bytes. -/
theorem claimSavedTaskComesBack_holds : claimSavedTaskComesBack := by
  intro p h t j s hp hs hcore hj ht hmap hmode u c d
  have hall := State.savedOf_of_all (j := j) hmap
  obtain ⟨e, htask, hsaved⟩ := Job.saving_task (Job.taskOn_lt ht) (s.savedOf p j)
  obtain ⟨f, hu : u = _⟩ := State.placeSaved_of_home (State.jobOf_saveTask hcore hj ht) htask hsaved
    (by rw [hall]) (by rw [hall]; rfl)
  obtain ⟨active, shadow, hrestored⟩ := State.restoreTask_coreAt (s := s.saveTask p)
    (j := j.saving t (s.savedOf p j)) (sv := s.savedOf p j) hp
  have hd : d = _ := (congrArg (State.coreAt · p) hu).trans hrestored
  refine ⟨fun i hi => ?bytes, ?core⟩
  case bytes =>
    have hcanonical : (s.saveTask p).Canonical := (State.Canonical.of_canonical hs).saveTask
    have hmem := (congrArg State.mem hu).trans (State.restoreTask_mem (by rw [hall]))
    rw [State.byte, hmem, hall, cellsAt_back,
      sget_putCells_cellsAt hcanonical.bumpRole.clearScratch.mem hs.1 (State.byte_clearScratch hp hi), if_pos hi]
    rfl
  case core =>
    rw [hd, hall, if_neg hmode]
    exact ⟨rfl, rfl, rfl, rfl, rfl, rfl, rfl, rfl, rfl, rfl, rfl, hcore, rfl⟩

end Sys2Proof.Claims
end

section
/-! SUPPORT. Cores freed, lent, handed over, returned and moved, and tasks saved and resumed: one equation for each case of a
row (R295, R301, R302, R306 to R316). -/

namespace Sys2Proof.Machine

variable {s : State} {p : CoreId} {k : PartId}

/-! ### Surplus cores (R295) -/

theorem State.excess_pairwise (s : State) (k : Nat) : (s.excess k).Pairwise (· < ·) := by
  have hown : (s.ownLogical k).Pairwise (· < ·) := List.pairwise_lt_range.filter _
  unfold State.excess
  dsimp only
  split
  · exact hown.drop
  · exact hown.filter _

theorem State.mem_excess {k : Nat} (hk : k ≠ 0) (l : Nat) : l ∈ s.excess k ↔
    l < 64 ∧ s.ncores k ≤ l ∧ (s.mapByte k l < 0x80 ∨ s.mapByte k l = 0xFE) := by
  simp only [State.excess, State.ownLogical, if_neg hk, List.mem_filter, List.mem_range, decide_eq_true_eq]
  tauto

/-- The last element of a rising list for which f holds is the greatest one. -/
theorem getLast?_filter_of_greatest {l : List Nat} (hl : l.Pairwise (· < ·)) {f : Nat → Bool} {x : Nat} (hx : x ∈ l)
    (hfx : f x = true) (hmax : ∀ y ∈ l, f y = true → y ≤ x) : (l.filter f).getLast? = some x := by
  have hmem : x ∈ l.filter f := List.mem_filter.mpr ⟨hx, hfx⟩
  have hlast := List.mem_filter.mp (List.getLast_mem (List.ne_nil_of_mem hmem))
  have hle := ((hl.filter f).imp Nat.le_of_lt).rel_getLast hmem
  rw [List.getLast?_eq_some_getLast (List.ne_nil_of_mem hmem)]
  exact congrArg some (Nat.le_antisymm (hmax _ hlast.1 hlast.2) hle)

/-- Logical core l of partition k can leave: it is on a core of its own that runs no job (R295). -/
def State.gives (s : State) (k l : Nat) : Bool :=
  decide (s.mapByte k l < 72) && (s.coreAt (s.mapByte k l)).job.isNone

theorem State.gives_iff {k l : Nat} :
    s.gives k l = true ↔ s.mapByte k l < 72 ∧ (s.coreAt (s.mapByte k l)).job = none := by
  simp only [State.gives, Bool.and_eq_true, decide_eq_true_eq, Option.isNone_iff_eq_none]

theorem exec_partitionCoreFreed_of_greatest {l : Nat} (hl : l ∈ s.excess k.val) (hgives : s.gives k.val l = true)
    (hmax : ∀ m ∈ s.excess k.val, s.gives k.val m = true → m ≤ l) :
    exec (.partitionCoreFreed k) s =
      .next ((s.setMapByte k.val l 0xFF).bumpRole (s.mapByte k.val l)).growAll := by
  have hlast : ((s.excess k.val).filter (s.gives k.val)).getLast? = some l :=
    getLast?_filter_of_greatest (s.excess_pairwise _) hl hgives hmax
  show execPartitionCoreFreed k s = _
  unfold State.gives at hlast
  rw [execPartitionCoreFreed, hlast]

theorem exec_partitionCoreFreed_of_none (hnone : ∀ m ∈ s.excess k.val, ¬ s.gives k.val m = true) :
    exec (.partitionCoreFreed k) s = .next s := by
  have hempty : (s.excess k.val).filter (s.gives k.val) = [] := List.filter_eq_nil_iff.mpr hnone
  show execPartitionCoreFreed k s = _
  unfold State.gives at hempty
  rw [execPartitionCoreFreed, hempty]
  rfl

/-! ### Saving and resuming (R306, R309 to R311, R313, R316) -/

theorem exec_stateSave_of_need (hsavable : s.savable p.val = true)
    (hneed : (s.core p).needs.contains .suspend = true ∨
      ((s.core p).needs.contains .preempt = true ∧ s.dmaQ p.val = [])) :
    exec (.stateSave p) s = .next ((s.latch p.val 0 3).saveUnit p.val) :=
  congrArg Host.Outcome.next (if_pos ⟨hsavable, hneed.imp_right (And.imp_right List.isEmpty_iff.mpr)⟩)

section
variable {k h t : Nat} (howner : s.coreOwner p.val = some k) (hpre : s.preempted k = some (h, t))
  (hfirst : s.firstFreeIs k p.val = true)
include howner hpre hfirst

theorem exec_stateRestore_alone (halone : s.isSafety k = false) :
    exec (.stateRestore p) s = .next (s.placeSaved h t p.val) := by
  show execStateRestore p s = _
  simp [execStateRestore, howner, hpre, hfirst, halone]

/-- In a safety partition the task resumes with its follower (R516). -/
theorem exec_stateRestore_pair {f : Nat} (hsafety : s.isSafety k = true)
    (hf : followers ((s.freeLogical k).filter (fun x => x.2 != p.val)) [p.val] = some [f]) :
    exec (.stateRestore p) s = .next (s.placePair h t p.val f) := by
  show execStateRestore p s = _
  simp [execStateRestore, howner, hpre, hfirst, hsafety, hf]

end

/-! ### Borrowing (R312 to R316) -/

theorem exec_borrowRequest_at_limit (hlimit : s.od 0x4030 1 ≤ s.loans.length) : exec .borrowRequest s = .next s :=
  congrArg Host.Outcome.next (if_pos hlimit)

section
variable (hroom : s.loans.length < s.od 0x4030 1)
include hroom

/-- A free core is lent first; of several the lowest-numbered, the model's choice (log 44). -/
theorem exec_borrowRequest_of_free {q : Nat}
    (hfree : s.lendableCores.find? (fun q => (s.coreAt q).idle) = some q) :
    exec .borrowRequest s = .next { s with
      loans := s.loans ++ [⟨q, (s.coreOwner q).getD 0, ((s.coreHome q).map (·.2)).getD 0, false⟩] } := by
  show execBorrowRequest s = _
  simp only [execBorrowRequest, State.loanCount, if_neg hroom.not_ge, hfree]

/-- Where every lendable core is busy, the best one to stop is asked for its next boundary (R312). -/
theorem exec_borrowRequest_of_busy {q : Nat} {rest : List Nat} (hcores : s.lendableCores = q :: rest)
    (hbusy : ∀ r ∈ s.lendableCores, (s.coreAt r).idle = false) :
    let v := rest.foldl s.betterVictim q
    exec .borrowRequest s = .next (({ s with
      loans := s.loans ++ [(⟨v, (s.coreOwner v).getD 0, ((s.coreHome v).map (·.2)).getD 0, false⟩ : Loan)] } :
        State).modCoreAt v (fun c => { c with needs := c.needs ++ [Need.preempt] })) := by
  have hfree : s.lendableCores.find? (fun q => (s.coreAt q).idle) = none := by simpa using hbusy
  show execBorrowRequest s = _
  rw [hcores] at hfree
  simp only [execBorrowRequest, State.loanCount, if_neg hroom.not_ge, hcores, hfree]

end

theorem exec_borrowHandover_of_open {l : Loan} {x : Nat} (ns : Nat) (hloan : s.openLoan p.val = some l)
    (hidle : (s.core p).idle = true) (hplace : (List.range 64).find? (fun x => s.mapByte 0 x == 0xFF) = some x) :
    let s1 := ((s.setMapByte l.lender l.logical 0xFE).setMapByte 0 x (0x80 + p.val)).clearCore p.val
    let s2 := (({ s1 with loans := s1.loans.map (fun (y : Loan) =>
      if y.core = p.val then { y with ready := true } else y) }).bumpRole p.val).incOd 0x4030 2
    exec (.borrowHandover p ns) s =
      .next (if 5500 < ns then (s2.incOd 0x4030 3).warn 0x0106 (some l.lender) 4 l.lender ns else s2) := by
  show execBorrowHandover p ns s = _
  simp only [execBorrowHandover, hloan, hidle, hplace, not_true_eq_false, if_false]

theorem State.besideMem_clearScratch (s : State) (n : Nat) : s.BesideMem (s.clearScratch n) :=
  List.foldlRecOn (motive := s.BesideMem) _ _ (.refl s)
    fun _ ht _ _ => ht.trans ((State.besideMem_loseBank ..).trans (State.besideMem_setBank ..))

/-- Beside its memory, a core is cleared to its reset state, and the others stay (R313). -/
theorem State.besideMem_clearCore (s : State) (p : CoreId) : (s.setCore p Core.reset).BesideMem (s.clearCore p.val) := by
  have hdrop : (s.setCore p Core.reset).BesideMem ((s.dropWaiters p.val).setCore p Core.reset) :=
    ⟨rfl, rfl, rfl, rfl, rfl, rfl⟩
  rw [State.clearCore, State.modCoreAt_val]
  exact hdrop.trans (State.besideMem_clearScratch ..)

/-- The loan of core p ended, its role changed (R441). -/
def State.closeLoan (s : State) (p : CoreId) : State :=
  ({ s with loans := s.loans.filter (fun y => y.core != p.val) }).bumpRole p.val

theorem State.besideMem_closeLoan (s : State) (p : CoreId) : s.BesideMem (s.closeLoan p) := ⟨rfl, rfl, rfl, rfl, rfl, rfl⟩

theorem State.byte_closeLoan (s : State) (p : CoreId) (a : Nat) : (s.closeLoan p).byte a = s.byte a := rfl

theorem State.core_ne_of_mem_closeLoan {y : Loan} (hy : y ∈ (s.closeLoan p).loans) : y.core ≠ p.val :=
  bne_iff_ne.mp (List.mem_filter.mp hy).2

/-- Core p, which partition 0 had as logical core x, cleared and back as the lender's logical core (R316). -/
def State.returnLoan (s : State) (l : Loan) (x : Nat) (p : CoreId) : State :=
  (((s.setMapByte 0 x 0xFF).setMapByte l.lender l.logical p.val).clearCore p.val).closeLoan p

theorem exec_borrowReturn_of_ready {l : Loan} {x : Nat}
    (hloan : s.loans.find? (fun l => l.core == p.val && l.ready) = some l) (hidle : (s.core p).idle = true)
    (hplace : (List.range 64).find? (fun x => s.mapByte 0 x == 0x80 + p.val) = some x) :
    exec (.borrowReturn p) s = .next (s.returnLoan l x p) := by
  show execBorrowReturn p s = _
  simp only [execBorrowReturn, State.returnLoan, State.closeLoan, hloan, hidle, hplace, not_true_eq_false, if_false,
    Option.getD_some]

theorem State.besideMem_returnLoan (s : State) (l : Loan) (x : Nat) (p : CoreId) :
    (s.setCore p Core.reset).BesideMem (s.returnLoan l x p) := by
  have hmap : (s.setCore p Core.reset).BesideMem
      (((s.setMapByte 0 x 0xFF).setMapByte l.lender l.logical p.val).setCore p Core.reset) :=
    ⟨rfl, rfl, rfl, rfl, rfl, rfl⟩
  exact hmap.trans ((State.besideMem_clearCore ..).trans (State.besideMem_closeLoan ..))

theorem State.byte_returnLoan (s : State) (l : Loan) (x : Nat) (p : CoreId) {i : Nat} (hi : i < 0x400000) :
    (s.returnLoan l x p).byte (spBase p.val + i) = 0#8 :=
  (State.byte_closeLoan ..).trans (State.byte_clearScratch p.isLt hi)

/-! ### Moves (R301) -/

/-- A retired core's logical core moves to the first free core of its canton. -/
theorem exec_coreReassign_of_near {q : Nat}
    (htest : s.safety.testing.find? (fun t => t.core == p.val && t.passed == some false) = none)
    (hretired : s.safety.retired.contains p.val = true) (howner : s.coreOwner p.val ≠ none)
    (hmovable : s.movable p.val = true) (hnear : s.freeCores.find? (fun q => q / 9 == p.val / 9) = some q) :
    exec (.coreReassign p) s = .next (s.moveCore p.val q) := by
  have hserves : ¬ (¬ s.safety.retired.contains p.val = true ∨ s.coreOwner p.val = none ∨ ¬ s.movable p.val = true) := by
    simp only [hretired, hmovable, howner, not_true_eq_false, or_self, not_false_eq_true]
  show execCoreReassign p s = _
  simp only [execCoreReassign, State.reassign, htest, if_neg hserves, hnear]

end Sys2Proof.Machine

namespace Sys2Proof.Claims
open Machine

/-- The rows of placement, one equation for each of their cases. -/
theorem claimCoresFreedLentAndMoved_holds : claimCoresFreedLentAndMoved := by
  intro p s
  refine ⟨fun k => ?freed, exec_stateSave_of_need, fun k h t howner hpre hfirst => ?restore,
    exec_borrowRequest_at_limit, fun q hroom hfree => exec_borrowRequest_of_free hroom hfree,
    fun q rest hroom hcores hbusy => exec_borrowRequest_of_busy hroom hcores hbusy,
    fun l ns x hloan hidle hplace => ?handover, fun l x hloan hidle hplace => ?giveBack,
    fun q htest hretired howner hmovable hnear => exec_coreReassign_of_near htest hretired howner hmovable hnear⟩
  case freed =>
    intro gives
    have hgives (l : Nat) : s.gives k.val l = true ↔ gives l := State.gives_iff
    exact ⟨fun l hl hl1 hmax => exec_partitionCoreFreed_of_greatest hl ((hgives l).mpr hl1)
        fun m hm hm1 => hmax m hm ((hgives m).mp hm1),
      fun hnone => exec_partitionCoreFreed_of_none fun m hm hm1 => hnone m hm ((hgives m).mp hm1), State.mem_excess⟩
  case restore =>
    exact ⟨exec_stateRestore_alone howner hpre hfirst, fun f => exec_stateRestore_pair howner hpre hfirst⟩
  case handover =>
    intro s1 s2
    have hstep := exec_borrowHandover_of_open ns hloan hidle hplace
    exact ⟨fun hfast => hstep.trans (by rw [if_neg hfast.not_gt]), fun hslow => hstep.trans (by rw [if_pos hslow])⟩
  case giveBack =>
    obtain ⟨-, hcores, hsems, hdict, -, hjobs⟩ := s.besideMem_returnLoan l x p
    exact ⟨_, exec_borrowReturn_of_ready hloan hidle hplace,
      (State.core_congr hcores p).trans (s.core_setCore_same p _), fun _ => State.core_ne_of_mem_closeLoan,
      fun _ => s.byte_returnLoan l x p, fun q hq => (State.core_congr hcores q).trans (s.core_setCore_other hq _),
      hsems, hdict, hjobs⟩

/-- Settles O21: the rows of placement (`claimCoresFreedLentAndMoved_holds`) and a task saved and put back
(`claimSavedTaskComesBack_holds`). -/
theorem coresAndSavedTasks : Obligations.CoresAndSavedTasks :=
  ⟨claimCoresFreedLentAndMoved_holds, claimSavedTaskComesBack_holds⟩

end Sys2Proof.Claims
end

section
/-! SUPPORT. The issue of an instruction of a signal core: what its fetch leaves alone, and what an instruction that acts on its
registers only leaves alone (R345, R350). -/

namespace Sys2Proof.Machine

/-! ### A read of local memory -/

/-- From s to t banks woke, words await their write-back and events were counted; nothing else happened. -/
def State.WakesAndCounts (s t : State) : Prop := ∃ b w v, t = { s with banks := b, writeBack := w, visor := v }

theorem State.WakesAndCounts.refl (s : State) : s.WakesAndCounts s := ⟨_, _, _, rfl⟩

theorem State.WakesAndCounts.trans {s t u : State} (h : s.WakesAndCounts t) (g : t.WakesAndCounts u) : s.WakesAndCounts u := by
  obtain ⟨_, _, _, rfl⟩ := h
  obtain ⟨b, w, v, rfl⟩ := g
  exact ⟨b, w, v, rfl⟩

theorem State.wakesAndCounts_setBank (s : State) (b : Nat) (x : Bank) : s.WakesAndCounts (s.setBank b x) := ⟨_, _, _, rfl⟩

theorem State.wakesAndCounts_eccRead (s : State) (a n : Nat) : s.WakesAndCounts (s.eccRead a n) :=
  ⟨_, _, _, s.eccRead_frame a n⟩

theorem State.wakesAndCounts_wakeMacro (s : State) (b m : Nat) : s.WakesAndCounts (s.wakeMacro b m) := by
  unfold State.wakeMacro
  refine State.WakesAndCounts.trans ?_ (State.wakesAndCounts_eccRead _ _ _)
  split
  · exact (s.wakesAndCounts_setBank b _).trans ⟨_, _, _, State.visorCount_eq _ _ _ _ _ _⟩
  · exact s.wakesAndCounts_setBank b _

theorem State.wakesAndCounts_wake (s : State) (a : Nat) : s.WakesAndCounts (s.wake a) := by
  unfold State.wake
  split
  · simp only []
    split_ifs
    · exact s.wakesAndCounts_setBank _ _
    · exact s.wakesAndCounts_setBank _ _
    · exact s.wakesAndCounts_wakeMacro _ _
    · exact .refl s
  · exact .refl s

theorem State.wakesAndCounts_wakeSpan (s : State) (a n : Nat) : s.WakesAndCounts (s.wakeSpan a n) := by
  unfold State.wakeSpan
  split
  · exact .refl s
  · exact List.foldlRecOn _ _ (.refl s) (fun t ht b _ => ht.trans (t.wakesAndCounts_wake b))

theorem State.wakesAndCounts_sigLoad (s : State) (g : SigId) (off n : Nat) : s.WakesAndCounts (s.sigLoad g off n).2 := by
  unfold State.sigLoad
  simp only []
  split
  · exact .refl s
  · exact (s.wakesAndCounts_eccRead _ _).trans (State.wakesAndCounts_wakeSpan _ _ _)

/-! ### A fetch -/

theorem State.setSig_setSig (s : State) (g : SigId) (c d : Sig) : (s.setSig g c).setSig g d = s.setSig g d := by
  simp [State.setSig]

theorem State.setSig_sig (s : State) (g : SigId) : s.setSig g (s.sig g) = s := by
  simp [State.setSig, State.sig]

/-- From s to t signal core g filled its fetch buffer: lines were read and free values may be taken. -/
def State.Fetched (g : SigId) (s t : State) : Prop :=
  ∃ f b w v l, t = ({ s with free := f, banks := b, writeBack := w, visor := v } : State).setSig g { s.sig g with lines := l }

/-- A read, then a change of the fetch buffer. -/
theorem State.WakesAndCounts.fetched {s u : State} (h : s.WakesAndCounts u) (g : SigId) (l : List (Nat × Nat)) :
    s.Fetched g (u.setSig g { u.sig g with lines := l }) := by
  obtain ⟨b, w, v, rfl⟩ := h
  exact ⟨s.free, b, w, v, l, rfl⟩

theorem State.Fetched.refl (g : SigId) (s : State) : s.Fetched g s :=
  ⟨s.free, s.banks, s.writeBack, s.visor, (s.sig g).lines, (s.setSig_sig g).symm⟩

theorem State.Fetched.trans {g : SigId} {s t u : State} (h : s.Fetched g t) (k : t.Fetched g u) : s.Fetched g u := by
  obtain ⟨_, _, _, _, _, rfl⟩ := h
  obtain ⟨f, b, w, v, l, rfl⟩ := k
  refine ⟨f, b, w, v, l, ?_⟩
  rw [State.sig_setSig_same]
  simp [State.setSig]

theorem State.fetched_fetchLine (s : State) (g : SigId) (i : Nat) : s.Fetched g (s.fetchLine g i) := by
  unfold State.fetchLine
  split
  · exact .refl g s
  · split
    · exact (State.WakesAndCounts.refl s).fetched g _
    · exact (s.wakesAndCounts_sigLoad g _ _).fetched g _

theorem State.fetched_sigWord (s : State) (g : SigId) (pc : Nat) : s.Fetched g (s.sigWord g pc).2 := by
  unfold State.sigWord
  split
  · exact ((s.fetched_fetchLine g _).trans (State.fetched_fetchLine _ g _)).trans (State.fetched_fetchLine _ g _)
  · exact ⟨s.free + 1, s.banks, s.writeBack, s.visor, (s.sig g).lines,
      (State.setSig_sig { s with free := s.free + 1 } g).symm⟩

/-! ### Checks at issue (R358) -/

theorem sigChecked_of_pass {b : Bool} (hb : b = false) (x : Nat × Nat) (k : SigR) : sigChecked [(b, x)] k = k := by
  rw [hb]
  rfl

end Sys2Proof.Machine

namespace Sys2Proof.Claims
open Machine

variable {s : State} {g : SigId} {w : Nat} {mine : Nat → Bool} {k : State → Nat → SigR}

/-! ### Issue (R345, R350) -/

theorem issue_of_ok (h : sigAt s g w) (hmine : mine w = true) {t : State} (hk : k (sigPast s g) w = .ok t) :
    s.issue g mine k = t := by
  obtain ⟨hissues, hclock, hpc, hword⟩ := h
  simp only [sigPast] at hk
  simp only [State.issue, hissues, hclock, hword, hmine, hk, if_neg hpc.not_ge]
  rfl

theorem issue_of_fault (h : sigAt s g w) (hmine : mine w = true) {code detail : Nat}
    (hk : k (sigPast s g) w = .fault code detail) :
    s.issue g mine k = (s.sigWord g (s.sig g).pc.toNat).2.sigFault g w (s.sig g).pc.toNat code detail := by
  obtain ⟨hissues, hclock, hpc, hword⟩ := h
  simp only [sigPast] at hk
  simp only [State.issue, hissues, hclock, hword, hmine, hk, if_neg hpc.not_ge]
  rfl

/-- A held function of VALU, AALU or AALUI faults with SIG_FIELD. -/
theorem exec_sigOpcode_of_heldFunction (h : sigAt s g w) (hheld : sigKnown w = false)
    (hop : sigOp w = 0x10 ∨ sigOp w = 0x20 ∨ sigOp w = 0x21) :
    exec (.sigOpcode g) s = .next ((s.sigWord g (s.sig g).pc.toNat).2.sigFault g w (s.sig g).pc.toNat 0x71 0) :=
  congrArg Host.Outcome.next (issue_of_fault h (by simp [hheld]) (by rw [if_pos hop]))

/-- The signal core behind its next instruction: its fetch buffer and PC alone are new, and it waits no more. -/
theorem sig_sigPast (s : State) (g : SigId) : ∃ l, (sigPast s g).sig g =
    { s.sig g with lines := l, pc := BitVec.ofNat 32 ((s.sig g).pc.toNat + 4), waiting := false } := by
  obtain ⟨f, b, x, v, l, hu⟩ := s.fetched_sigWord g (s.sig g).pc.toNat
  refine ⟨l, ?_⟩
  simp only [sigPast, hu, State.sig_setSig_same, Sig.goto]

@[simp] theorem sigPast_vreg (s : State) (g : SigId) (i : Nat) : ((sigPast s g).sig g).vreg i = (s.sig g).vreg i := by
  obtain ⟨l, hl⟩ := sig_sigPast s g
  rw [hl]
  rfl

@[simp] theorem sigPast_areg (s : State) (g : SigId) (i : Nat) : ((sigPast s g).sig g).areg i = (s.sig g).areg i := by
  obtain ⟨l, hl⟩ := sig_sigPast s g
  rw [hl]
  rfl

@[simp] theorem sigPast_v (s : State) (g : SigId) : ((sigPast s g).sig g).v = (s.sig g).v := by
  obtain ⟨l, hl⟩ := sig_sigPast s g
  rw [hl]

@[simp] theorem sigPast_a (s : State) (g : SigId) : ((sigPast s g).sig g).a = (s.sig g).a := by
  obtain ⟨l, hl⟩ := sig_sigPast s g
  rw [hl]

@[simp] theorem sigPast_accs (s : State) (g : SigId) : ((sigPast s g).sig g).accs = (s.sig g).accs := by
  obtain ⟨l, hl⟩ := sig_sigPast s g
  rw [hl]

@[simp] theorem sigPast_flags (s : State) (g : SigId) : ((sigPast s g).sig g).flags = (s.sig g).flags := by
  obtain ⟨l, hl⟩ := sig_sigPast s g
  rw [hl]

/-- An instruction that leaves its core new registers and flags alone leaves everything else as it was. -/
theorem sigFrame_setSig (h : sigAt s g w) {c : Sig}
    (hc : c = { (sigPast s g).sig g with v := c.v, a := c.a, accs := c.accs, flags := c.flags }) :
    sigFrame s ((sigPast s g).setSig g c) g := by
  obtain ⟨hissues, -, hpc, -⟩ := h
  have hrun : (s.sig g).run = true := by
    simp only [Sig.issues, Bool.and_eq_true] at hissues
    exact hissues.1.1.1
  obtain ⟨l, hl⟩ := sig_sigPast s g
  rw [hl] at hc
  obtain ⟨f, b, x, v, m, hu⟩ := s.fetched_sigWord g (s.sig g).pc.toNat
  have hpast : (sigPast s g).setSig g c = ({ s with free := f, banks := b, writeBack := x, visor := v } : State).setSig g c := by
    simp only [sigPast, hu, State.setSig_setSig]
  rw [hpast, sigFrame, State.sig_setSig_same, hc]
  refine ⟨fun d hd => State.sig_setSig_other _ hd _, rfl, rfl, rfl, rfl, rfl, rfl, rfl, rfl, ?_, hrun, rfl, rfl, rfl, rfl⟩
  exact (BitVec.toNat_ofNat ..).trans (Nat.mod_eq_of_lt (by omega))

end Sys2Proof.Claims
end

section
/-! SUPPORT. AALU and AALUI (R341): each function modulo 2^32. -/

namespace Sys2Proof.Machine

theorem sext_toNat (a : BitVec 32) : sext 32 a.toNat = a.toInt := by
  have := a.isLt
  rw [sext, Nat.mod_eq_of_lt this, BitVec.toInt_eq_toNat_cond]
  split_ifs <;> omega

/-- A number that a comparison chooses is chosen with its 32 bits. -/
theorem ofInt_ite_toInt (c : Prop) [Decidable c] (a b : BitVec 32) :
    BitVec.ofInt 32 (if c then a.toInt else b.toInt) = if c then a else b := by
  split_ifs <;> exact BitVec.ofInt_toInt

open Claims in
/-- Each function's result modulo 2^32 is the one of R341's table. -/
theorem ofInt_aaluOp {g : SigId} {row : Instr × Nat × (BitVec 32 → BitVec 32 → BitVec 32)} (hrow : row ∈ aaluRows g)
    (a b : BitVec 32) : BitVec.ofInt 32 (aaluOp row.2.1 a.toNat b.toNat) = row.2.2 a b := by
  have hshr (n : Int) (k : Nat) : BitVec.ofInt 32 (roundDiv n (2 ^ k)) = BitVec.ofInt 32 ⌊(n : ℚ) / 2 ^ k + 1 / 2⌋ := by
    rw [roundDiv_eq_floor n (Nat.two_pow_pos k)]
    push_cast
    rfl
  simp only [aaluRows, List.mem_cons, List.not_mem_nil, or_false] at hrow
  rcases hrow with rfl | rfl | rfl | rfl | rfl | rfl | rfl | rfl | rfl | rfl | rfl
  · simp [aaluOp, BitVec.ofInt_add]
  · simp [aaluOp, sub_eq_add_neg, BitVec.ofInt_add, BitVec.ofInt_neg]
  · exact BitVec.eq_of_toNat_eq (by simp [aaluOp])
  · exact BitVec.eq_of_toNat_eq (by simp [aaluOp])
  · exact BitVec.eq_of_toNat_eq (by simp [aaluOp])
  · exact (BitVec.ofInt_natCast ..).trans (BitVec.eq_of_toNat_eq (by simp [Nat.shiftLeft_eq]))
  · exact hshr a.toNat (b.toNat % 32)
  · simp only [aaluOp, sext_toNat]
    exact hshr a.toInt (b.toNat % 32)
  · simp only [aaluOp, sext_toNat, min_def]
    exact ofInt_ite_toInt ..
  · simp only [aaluOp, sext_toNat, max_def]
    exact ofInt_ite_toInt ..
  · simp only [aaluOp, sext_toNat]
    split_ifs <;> rfl

end Sys2Proof.Machine

namespace Sys2Proof.Claims
open Machine

variable {s : State} {g : SigId} {w : Nat} {row : Instr × Nat × (BitVec 32 → BitVec 32 → BitVec 32)}

/-- The second operand: a register, or the immediate extended by sign. -/
def aaluSecond (c : Sig) (w : Nat) : BitVec 32 :=
  if sigOp w = 0x20 then BitVec.ofNat 32 (c.areg (bits w 13 10)) else BitVec.ofInt 32 (sbits w 13 0)

theorem exec_aaluRow (hrow : row ∈ aaluRows g) (s : State) :
    exec row.1 s = .next (s.issue g (ofAalu row.2.1) (sigAalu g)) ∧ row.2.1 < 0xB := by
  simp only [aaluRows, List.mem_cons, List.not_mem_nil, or_false] at hrow
  rcases hrow with rfl | rfl | rfl | rfl | rfl | rfl | rfl | rfl | rfl | rfl | rfl <;> exact ⟨rfl, of_decide_eq_true rfl⟩

/-- A function of R341's table writes its result to the destination. -/
theorem sigAalu_of_row (hrow : row ∈ aaluRows g) (hfn : bits w 17 14 = row.2.1) (hlt : row.2.1 < 0xB)
    (hzero : sigOp w = 0x20 → bits w 9 0 = 0) :
    sigAalu g s w = .ok (s.setSig g { s.sig g with
      a := (s.sig g).a.setIfInBounds (bits w 25 22)
        (row.2.2 (BitVec.ofNat 32 ((s.sig g).areg (bits w 21 18))) (aaluSecond (s.sig g) w)) }) := by
  have hpass : (decide (0xB ≤ bits w 17 14) || (sigOp w == 0x20 && bits w 9 0 != 0)) = false := by
    simpa [hfn, hlt] using hzero
  have hfirst : (s.sig g).areg (bits w 21 18) = (BitVec.ofNat 32 ((s.sig g).areg (bits w 21 18))).toNat := by
    simp [Sig.areg]
  have hsecond : (if sigOp w = 0x20 then (s.sig g).areg (bits w 13 10) else enc 32 (sbits w 13 0)) =
      (aaluSecond (s.sig g) w).toNat := by
    unfold aaluSecond
    split_ifs
    · simp [Sig.areg]
    · exact (BitVec.toNat_ofInt ..).symm
  rw [← ofInt_aaluOp hrow, ← hfirst, ← hsecond, ← hfn]
  exact sigChecked_of_pass hpass _ _

/-- Settles O22: a row of R341's table is issued (`issue_of_ok`), writes the result modulo 2^32 to its destination
(`sigAalu_of_row`) and leaves all else (`sigFrame_setSig`); a held function faults. -/
theorem scalarArithmetic : Obligations.ScalarArithmetic := by
  intro g w s hat hop hzero x y
  refine ⟨fun row hrow hfn => ?row, fun hheld => ?held⟩
  case row =>
    obtain ⟨hexec, hlt⟩ := exec_aaluRow hrow s
    have hmine : ofAalu row.2.1 w = true := by simpa [ofAalu, hfn] using hop
    have hok := sigAalu_of_row (s := sigPast s g) hrow hfn hlt hzero
    refine ⟨_, hexec.trans (congrArg _ (issue_of_ok hat hmine hok)), sigFrame_setSig hat rfl, ?_⟩
    simp only [State.sig_setSig_same, sigPast_a, sigPast_areg, sigPast_flags, sigPast_v, sigPast_accs, aaluSecond, x, y,
      and_self]
  case held =>
    have hunknown : sigKnown w = false := by rcases hop with h | h <;> simp [sigKnown, h, hheld]
    exact exec_sigOpcode_of_heldFunction hat hunknown (.inr hop)

end Sys2Proof.Claims
end

section
/-! SUPPORT. VALU (R340): results stored as I16, their flags together, lines made of elements and of lanes, and the vector
registers. -/

namespace Sys2Proof.Machine

/-! ### Results stored -/

/-- A quotient is stored rounded and limited: SAT and INX where it was limited, INX where the divisor does not divide (R33, R37,
R41). -/
theorem storeInt_num (w : Nat) {d : Nat} (hd : 0 < d) (n : Int) (z : Bool) :
    storeInt w (.num n d z) = ⟨enc w (max (-(2 ^ (w - 1))) (min (roundDiv n d) (2 ^ (w - 1) - 1))),
      if roundDiv n d < -(2 ^ (w - 1)) ∨ 2 ^ (w - 1) - 1 < roundDiv n d then Flags.saturated
      else Flags.ofInx (decide (¬(d : Int) ∣ n))⟩ := by
  have hpos : (0 : Int) < 2 ^ (w - 1) := by positivity
  simp only [storeInt]
  split
  · next hlow => rw [if_pos (.inl hlow), max_eq_left (by omega)]
  · split
    · next hhigh => rw [if_pos (.inr hhigh), min_eq_right (by omega), max_eq_right (by omega)]
    · rw [if_neg (by omega), min_eq_left (by omega), max_eq_right (by omega)]
      simp [roundDiv_mul_eq_iff hd]

/-- The stored code x is the result r limited to 16 bits, SAT and INX set where it was limited, INX where `drops`. -/
structure Stored.Limits (x : Stored) (r : Int) (drops : Prop) : Prop where
  code : x.code = enc 16 (max (-(2 ^ 15)) (min r (2 ^ 15 - 1)))
  sat : x.fl.sat = true ↔ r < -(2 ^ 15) ∨ 2 ^ 15 - 1 < r
  inx : x.fl.inx = true ↔ r < -(2 ^ 15) ∨ 2 ^ 15 - 1 < r ∨ drops

theorem valuStore_limits {d : Nat} (hd : 0 < d) (n : Int) :
    (valuStore n d).Limits ⌊(n : ℚ) / d + 1 / 2⌋ (¬(d : Int) ∣ n) := by
  rw [← roundDiv_eq_floor n hd, valuStore, storeInt_num 16 hd]
  constructor
  · rfl
  all_goals
    simp only [Nat.add_one_sub_one]
    split_ifs with hout
    · simp only [Flags.saturated, true_iff]
      tauto
    · simp only [Flags.ofInx, decide_eq_true_eq]
      tauto

/-- An integer is stored exactly or limited. -/
theorem valuStore_integer_limits (r : Int) : (valuStore r 1).Limits r False := by
  have h := valuStore_limits Nat.one_pos r
  rw [← roundDiv_eq_floor r Nat.one_pos, roundDiv_one] at h
  simpa using h

/-! ### Flags of a list -/

theorem Flags.sat_foldl_join (l : List Flags) (f : Flags) :
    (l.foldl Flags.join f).sat = true ↔ f.sat = true ∨ ∃ x ∈ l, x.sat = true := by
  induction l generalizing f with
  | nil => simp
  | cons x l ih => simp [ih, Flags.join, or_assoc]

theorem Flags.inx_foldl_join (l : List Flags) (f : Flags) :
    (l.foldl Flags.join f).inx = true ↔ f.inx = true ∨ ∃ x ∈ l, x.inx = true := by
  induction l generalizing f with
  | nil => simp
  | cons x l ih => simp [ih, Flags.join, or_assoc]

theorem Flags.sat_join_joinAll (f : Flags) (l : List Flags) :
    (f.join (Flags.joinAll l)).sat = true ↔ f.sat = true ∨ ∃ x ∈ l, x.sat = true := by
  rw [show (f.join (Flags.joinAll l)).sat = (f.sat || (Flags.joinAll l).sat) from rfl, Bool.or_eq_true, Flags.joinAll,
    Flags.sat_foldl_join]
  simp [Flags.clear]

theorem Flags.inx_join_joinAll (f : Flags) (l : List Flags) :
    (f.join (Flags.joinAll l)).inx = true ↔ f.inx = true ∨ ∃ x ∈ l, x.inx = true := by
  rw [show (f.join (Flags.joinAll l)).inx = (f.inx || (Flags.joinAll l).inx) from rfl, Bool.or_eq_true, Flags.joinAll,
    Flags.inx_foldl_join]
  simp [Flags.clear]

/-! ### Lines (R330) -/

/-- What is encoded within its width is read back. -/
theorem sext_enc {v : Int} (hlo : -(2 ^ 15) ≤ v) (hhi : v ≤ 2 ^ 15 - 1) : sext 16 (enc 16 v) = v := by
  unfold sext enc
  split_ifs <;> omega

theorem elemOf_eq (line e : Nat) : elemOf line e = sext 16 (line >>> (16 * e)) := by
  simp [elemOf, sbits, bits, sext, show 16 * e + 15 + 1 - 16 * e = 16 by omega]

theorem laneOf_eq (line i : Nat) :
    laneOf line i = (sext 16 (line >>> (32 * i)), sext 16 (line >>> (32 * i) >>> 16)) := by
  simp [laneOf, sbits, bits, sext, show 32 * i + 15 + 1 - 32 * i = 16 by omega,
    show 32 * i + 31 + 1 - (32 * i + 16) = 16 by omega, Nat.shiftRight_add]

theorem packElems_lt (l : List Nat) : packElems l < 2 ^ (16 * l.length) := by
  induction l with
  | nil => decide
  | cons x l ih =>
    have hx : x % 65536 < 65536 := Nat.mod_lt _ (by decide)
    rw [List.length_cons, Nat.mul_succ, pow_add]
    simp only [packElems, List.foldr_cons] at ih ⊢
    omega

/-- Element e of a line is the e-th code of which it is made. -/
theorem packElems_shiftRight (l : List Nat) (e : Nat) : (packElems l >>> (16 * e)) % 2 ^ 16 = l.getD e 0 % 2 ^ 16 := by
  induction l generalizing e with
  | nil => simp [packElems]
  | cons x l ih =>
    have hcons : packElems (x :: l) = x % 65536 + 65536 * packElems l := rfl
    cases e with
    | zero => simp [hcons]
    | succ e =>
      have hnext : packElems (x :: l) >>> 16 = packElems l := by
        rw [hcons, Nat.shiftRight_eq_div_pow]
        omega
      rw [Nat.mul_succ, Nat.add_comm, Nat.shiftRight_add, hnext, ih, List.getD_cons_succ]

theorem elemOf_packElems (l : List Nat) (e : Nat) : elemOf (packElems l) e = sext 16 (l.getD e 0) := by
  rw [elemOf_eq, sext, packElems_shiftRight, sext]

theorem packLanes_lt (l : List (Nat × Nat)) : packLanes l < 2 ^ (32 * l.length) := by
  induction l with
  | nil => decide
  | cons x l ih =>
    have h1 : x.1 % 65536 < 65536 := Nat.mod_lt _ (by decide)
    have h2 : x.2 % 65536 < 65536 := Nat.mod_lt _ (by decide)
    rw [List.length_cons, Nat.mul_succ, pow_add]
    simp only [packLanes, List.foldr_cons] at ih ⊢
    omega

/-- Lane i of a line is the i-th pair of codes of which it is made. -/
theorem packLanes_shiftRight (l : List (Nat × Nat)) (i : Nat) : (packLanes l >>> (32 * i)) % 2 ^ 32 =
    (l.getD i (0, 0)).1 % 65536 + 65536 * ((l.getD i (0, 0)).2 % 65536) := by
  induction l generalizing i with
  | nil => simp [packLanes]
  | cons x l ih =>
    have hcons : packLanes (x :: l) = x.1 % 65536 + 65536 * (x.2 % 65536) + 2 ^ 32 * packLanes l := rfl
    cases i with
    | zero =>
      simp only [hcons, mul_zero, Nat.shiftRight_zero, List.getD_cons_zero]
      omega
    | succ i =>
      have hnext : packLanes (x :: l) >>> 32 = packLanes l := by
        rw [hcons, Nat.shiftRight_eq_div_pow]
        omega
      rw [Nat.mul_succ, Nat.add_comm, Nat.shiftRight_add, hnext, ih, List.getD_cons_succ]

theorem laneOf_packLanes (l : List (Nat × Nat)) (i : Nat) :
    laneOf (packLanes l) i = (sext 16 (l.getD i (0, 0)).1, sext 16 (l.getD i (0, 0)).2) := by
  have h := packLanes_shiftRight l i
  have hre : (packLanes l >>> (32 * i)) % 2 ^ 16 = (l.getD i (0, 0)).1 % 2 ^ 16 := by omega
  have him : (packLanes l >>> (32 * i) >>> 16) % 2 ^ 16 = (l.getD i (0, 0)).2 % 2 ^ 16 := by
    rw [Nat.shiftRight_eq_div_pow _ 16]
    omega
  simp only [laneOf_eq, sext, hre, him]

/-- Lane j of a line in every lane (BCAST). -/
def broadcastLine (a j : Nat) : Nat :=
  packLanes (List.replicate 16 (bits a (32 * j + 15) (32 * j), bits a (32 * j + 31) (32 * j + 16)))

theorem laneOf_broadcastLine (a j : Nat) {i : Nat} (hi : i < 16) : laneOf (broadcastLine a j) i = laneOf a j := by
  have hre : 32 * j + 15 + 1 - 32 * j = 16 := by omega
  have him : 32 * j + 31 + 1 - (32 * j + 16) = 16 := by omega
  rw [broadcastLine, laneOf_packLanes, List.getD_replicate _ hi, laneOf, sbits, sbits, hre, him]

/-! ### Vector registers (R330) -/

theorem vget_setIfInBounds_same {α : Type} {n : Nat} (v : Vector α n) {i : Nat} (hi : i < n) (x d : α) :
    vget (v.setIfInBounds i x) i d = x := by
  simp [vget, hi]

theorem vget_setIfInBounds_other {α : Type} {n : Nat} (v : Vector α n) {i k : Nat} (hk : k ≠ i) (x d : α) :
    vget (v.setIfInBounds i x) k d = vget v k d := by
  simp [vget, List.getD_eq_getElem?_getD, List.getElem?_set_ne hk.symm]

/-- A number of 512 bits, as a vector register holds it. -/
def FitsLine (x : Nat) : Prop := ∃ v : BitVec 512, v.toNat = x

theorem fitsLine_of_lt {x n : Nat} (hn : n = 512) (hx : x < 2 ^ n) : FitsLine x := by
  refine ⟨(BitVec.ofNat n x).cast hn, ?_⟩
  rw [BitVec.toNat_cast, BitVec.toNat_ofNat, Nat.mod_eq_of_lt hx]

theorem Sig.fitsLine_vreg (c : Sig) (i : Nat) : FitsLine (c.vreg i) := ⟨_, rfl⟩

theorem FitsLine.and {x y : Nat} (hx : FitsLine x) (hy : FitsLine y) : FitsLine (x &&& y) := by
  obtain ⟨v, rfl⟩ := hx
  obtain ⟨u, rfl⟩ := hy
  exact ⟨v &&& u, BitVec.toNat_and v u⟩

theorem FitsLine.or {x y : Nat} (hx : FitsLine x) (hy : FitsLine y) : FitsLine (x ||| y) := by
  obtain ⟨v, rfl⟩ := hx
  obtain ⟨u, rfl⟩ := hy
  exact ⟨v ||| u, BitVec.toNat_or v u⟩

theorem FitsLine.xor {x y : Nat} (hx : FitsLine x) (hy : FitsLine y) : FitsLine (x ^^^ y) := by
  obtain ⟨v, rfl⟩ := hx
  obtain ⟨u, rfl⟩ := hy
  exact ⟨v ^^^ u, BitVec.toNat_xor v u⟩

theorem Sig.vreg_setV_same (c : Sig) {d x : Nat} (hd : d < 32) (hx : FitsLine x) : (c.setV d x).vreg d = x := by
  obtain ⟨v, rfl⟩ := hx
  rw [Sig.vreg, Sig.setV, vget_setIfInBounds_same c.v hd, BitVec.ofNat_toNat, BitVec.setWidth_eq]

theorem Sig.vreg_setV_other (c : Sig) {d k : Nat} (hk : k ≠ d) (x : Nat) : (c.setV d x).vreg k = c.vreg k := by
  simp only [Sig.vreg, Sig.setV, vget_setIfInBounds_other c.v hk]

/-! ### Lines fit a register -/

theorem fitsLine_packElems {l : List Nat} (hl : l.length = 32) : FitsLine (packElems l) :=
  fitsLine_of_lt (by rw [hl]) (packElems_lt l)

theorem fitsLine_broadcastLine (a j : Nat) : FitsLine (broadcastLine a j) :=
  fitsLine_of_lt (by rw [List.length_replicate]) (packLanes_lt _)

end Sys2Proof.Machine
end

section
/-! SUPPORT. VALU's functions at the signal core (R340). -/

namespace Sys2Proof.Claims
open Machine

variable {s : State} {g : SigId} {w : Nat} {row : Instr × Nat × (Nat → Int → Int → Int → Bool → Int)}

/-! ### One element -/

/-- The result of a function of R340's table at element e of VA and VB, before it is limited. -/
def valuResult (f : Nat → Int → Int → Int → Bool → Int) (n a b e : Nat) : Int :=
  f n (elemOf a e) (elemOf b e) (elemOf a (if e % 2 = 0 then e + 1 else e - 1)) (e % 2 == 1)

/-- Rounding drops bits that are not 0: of SHR and AVG alone. -/
def valuDrops (fn n a b e : Nat) : Prop :=
  (fn = 0x09 ∧ ¬(2 ^ n : Int) ∣ elemOf a e) ∨ (fn = 0x0B ∧ ¬(2 : Int) ∣ elemOf a e + elemOf b e)

/-- A function other than SHR and AVG gives an integer and drops nothing. -/
theorem valuElem_limits_of_integer {fn n a b e : Nat} {r : Int} (hr : valuElem fn n a b e = valuStore r 1)
    (hexact : (fn == 0x09 || fn == 0x0B) = false) : (valuElem fn n a b e).Limits r (valuDrops fn n a b e) := by
  obtain ⟨hshr, havg⟩ := by simpa using hexact
  have hdrops : valuDrops fn n a b e ↔ False := by simp [valuDrops, hshr, havg]
  rw [hr, hdrops]
  exact valuStore_integer_limits r

/-- Each function stores the result of R340's table. -/
theorem valuElem_limits (hrow : row ∈ valuRows g) (n a b e : Nat) :
    (valuElem row.2.1 n a b e).Limits (valuResult row.2.2 n a b e) (valuDrops row.2.1 n a b e) := by
  simp only [valuRows, List.mem_cons, List.not_mem_nil, or_false] at hrow
  rcases hrow with rfl | rfl | rfl | rfl | rfl | rfl | rfl | rfl | rfl | rfl | rfl | rfl
  · exact valuElem_limits_of_integer rfl rfl
  · exact valuElem_limits_of_integer rfl rfl
  · exact valuElem_limits_of_integer rfl rfl
  · exact valuElem_limits_of_integer rfl rfl
  · refine valuElem_limits_of_integer ?_ rfl
    simp [valuElem, valuResult]
  · exact valuElem_limits_of_integer rfl rfl
  · refine valuElem_limits_of_integer ?_ rfl
    simp [valuElem, valuResult]
  · refine valuElem_limits_of_integer ?_ rfl
    rcases Nat.mod_two_eq_zero_or_one e with h | h <;> simp [valuElem, valuResult, h]
  · refine valuElem_limits_of_integer ?_ rfl
    rcases Nat.mod_two_eq_zero_or_one e with h | h <;> simp [valuElem, valuResult, h]
  · have h := valuStore_limits (Nat.two_pow_pos n) (elemOf a e)
    simpa [valuElem, valuResult, valuDrops] using h
  · exact valuElem_limits_of_integer rfl rfl
  · have h := valuStore_limits Nat.two_pos (elemOf a e + elemOf b e)
    simpa [valuElem, valuResult, valuDrops] using h

/-! ### The instruction -/

/-- The fields of a VALU instruction that its function does not read are 0. -/
def valuFieldsZero (w : Nat) : Prop :=
  (valuBinary (bits w 10 6) = false → bits w 15 11 = 0) ∧ (valuImm (bits w 10 6) = false → bits w 5 0 = 0)

theorem valu_passes (hfields : valuFieldsZero w) (hfn : bits w 10 6 < 0x11) :
    (decide (0x11 ≤ bits w 10 6) || (!valuBinary (bits w 10 6) && bits w 15 11 != 0) ||
      (!valuImm (bits w 10 6) && bits w 5 0 != 0)) = false := by
  obtain ⟨hbinary, himm⟩ := hfields
  simpa [hfn] using ⟨hbinary, himm⟩

/-- What VALU stores in the elements, in order. -/
def valuElems (c : Sig) (w : Nat) : List Stored :=
  (List.range 32).map (valuElem (bits w 10 6) (bits w 3 0) (c.vreg (bits w 20 16)) (c.vreg (bits w 15 11)))

theorem sigValu_elementwise (hfields : valuFieldsZero w) (hfn : bits w 10 6 < 0x0C) :
    sigValu g s w = .ok (s.setSig g { (s.sig g).setV (bits w 25 21) (packElems ((valuElems (s.sig g) w).map (·.code))) with
      flags := (s.sig g).flags.join (Flags.joinAll ((valuElems (s.sig g) w).map (·.fl))) }) := by
  refine (sigChecked_of_pass (valu_passes hfields (by omega)) _ _).trans ?_
  -- the codes of the functions that move bits lie above those of the elementwise ones
  dsimp only
  split
  · omega
  · omega
  · omega
  · omega
  · omega
  · rfl

/-- The functions that move bits, with the line that each makes. -/
def valuLines (c : Sig) (w : Nat) : List (Nat × Nat) :=
  let a := c.vreg (bits w 20 16)
  let b := c.vreg (bits w 15 11)
  [(0x0C, a &&& b), (0x0D, a ||| b), (0x0E, a ^^^ b), (0x0F, broadcastLine a (bits w 3 0)), (0x10, a)]

theorem sigValu_line (hfields : valuFieldsZero w) {fn x : Nat} (hline : (fn, x) ∈ valuLines (s.sig g) w)
    (hfn : bits w 10 6 = fn) : sigValu g s w = .ok (s.setSig g ((s.sig g).setV (bits w 25 21) x)) := by
  simp only [valuLines, List.mem_cons, List.not_mem_nil, or_false, Prod.mk.injEq] at hline
  have hlt : bits w 10 6 < 0x11 := by omega
  refine (sigChecked_of_pass (valu_passes hfields hlt) _ _).trans ?_
  rcases hline with ⟨hcode, hx⟩ | ⟨hcode, hx⟩ | ⟨hcode, hx⟩ | ⟨hcode, hx⟩ | ⟨hcode, hx⟩ <;>
    simp only [hfn, hcode, hx] <;> rfl

theorem fitsLine_of_mem_valuLines {c : Sig} {fn x : Nat} (hline : (fn, x) ∈ valuLines c w) : FitsLine x := by
  have ha := c.fitsLine_vreg (bits w 20 16)
  have hb := c.fitsLine_vreg (bits w 15 11)
  simp only [valuLines, List.mem_cons, List.not_mem_nil, or_false, Prod.mk.injEq] at hline
  rcases hline with ⟨-, hx⟩ | ⟨-, hx⟩ | ⟨-, hx⟩ | ⟨-, hx⟩ | ⟨-, hx⟩ <;> rw [hx]
  · exact ha.and hb
  · exact ha.or hb
  · exact ha.xor hb
  · exact fitsLine_broadcastLine _ _
  · exact ha

theorem sigPast_valuLines (s : State) (g : SigId) (w : Nat) : valuLines ((sigPast s g).sig g) w = valuLines (s.sig g) w := by
  simp only [valuLines, sigPast_vreg]

/-! ### Its elements, flags and frame -/

theorem sigPast_valuElems (s : State) (g : SigId) (w : Nat) : valuElems ((sigPast s g).sig g) w = valuElems (s.sig g) w := by
  simp only [valuElems, sigPast_vreg]

theorem length_valuElems (c : Sig) (w : Nat) : (valuElems c w).length = 32 := by simp [valuElems]

theorem getElem?_valuElems (c : Sig) (w : Nat) {e : Nat} (he : e < 32) : (valuElems c w)[e]? =
    some (valuElem (bits w 10 6) (bits w 3 0) (c.vreg (bits w 20 16)) (c.vreg (bits w 15 11)) e) := by
  simp [valuElems, he]

theorem exists_mem_valuElems_fl (c : Sig) (w : Nat) (P : Flags → Prop) : (∃ f ∈ (valuElems c w).map (·.fl), P f) ↔
    ∃ e < 32, P (valuElem (bits w 10 6) (bits w 3 0) (c.vreg (bits w 20 16)) (c.vreg (bits w 15 11)) e).fl := by
  simp [valuElems]

theorem elemOf_packElems_code {l : List Stored} {e : Nat} {x : Stored} (hx : l[e]? = some x) {r : Int} {drops : Prop}
    (h : x.Limits r drops) : elemOf (packElems (l.map (·.code))) e = max (-(2 ^ 15)) (min r (2 ^ 15 - 1)) := by
  have hcode : (l.map (·.code)).getD e 0 = x.code := by simp [List.getD_eq_getElem?_getD, hx]
  rw [elemOf_packElems, hcode, h.code, sext_enc (by omega) (by omega)]

theorem exec_valuRow (hrow : row ∈ valuRows g) (s : State) :
    exec row.1 s = .next (s.issue g (ofValu row.2.1) (sigValu g)) ∧ row.2.1 < 0x0C := by
  simp only [valuRows, List.mem_cons, List.not_mem_nil, or_false] at hrow
  rcases hrow with rfl | rfl | rfl | rfl | rfl | rfl | rfl | rfl | rfl | rfl | rfl | rfl <;>
    exact ⟨rfl, of_decide_eq_true rfl⟩

/-- A VALU instruction that makes VD the line x and the flags f leaves everything else as it was. -/
theorem exec_valu_of_ok (hat : sigAt s g w) (hop : sigOp w = 0x10) {c : Instr} {fn : Nat} (hfn : bits w 10 6 = fn)
    (hexec : exec c s = .next (s.issue g (ofValu fn) (sigValu g))) {x : Nat} (hx : FitsLine x) {f : Flags}
    (hvalu : sigValu g (sigPast s g) w =
      .ok ((sigPast s g).setSig g { ((sigPast s g).sig g).setV (bits w 25 21) x with flags := f })) :
    ∃ t, exec c s = .next t ∧ sigFrame s t g ∧ (t.sig g).vreg (bits w 25 21) = x ∧
      (∀ k, k < 32 → k ≠ bits w 25 21 → (t.sig g).vreg k = (s.sig g).vreg k) ∧ (t.sig g).a = (s.sig g).a ∧
      (t.sig g).flags = f ∧ (t.sig g).accs = (s.sig g).accs := by
  have hd : bits w 25 21 < 32 := Nat.mod_lt _ (by decide)
  have hissue := issue_of_ok hat (mine := ofValu fn) (by simp [ofValu, hop, hfn]) hvalu
  refine ⟨_, hexec.trans (congrArg _ hissue), sigFrame_setSig hat rfl, ?_⟩
  rw [State.sig_setSig_same]
  refine ⟨Sig.vreg_setV_same _ hd hx, fun k _ hk => ?_, sigPast_a s g, rfl, sigPast_accs s g⟩
  exact (Sig.vreg_setV_other _ hk x).trans (sigPast_vreg s g k)

/-- A function that moves bits makes VD its line and sets no flag. -/
theorem exec_valu_line (hat : sigAt s g w) (hop : sigOp w = 0x10) (hfields : valuFieldsZero w) {c : Instr} {fn x : Nat}
    (hline : (fn, x) ∈ valuLines (s.sig g) w) (hfn : bits w 10 6 = fn)
    (hexec : exec c s = .next (s.issue g (ofValu fn) (sigValu g))) :
    ∃ t, exec c s = .next t ∧ sigFrame s t g ∧ (t.sig g).vreg (bits w 25 21) = x ∧
      (∀ k, k < 32 → k ≠ bits w 25 21 → (t.sig g).vreg k = (s.sig g).vreg k) ∧ (t.sig g).a = (s.sig g).a ∧
      (t.sig g).flags = (s.sig g).flags ∧ (t.sig g).accs = (s.sig g).accs := by
  have hvalu := sigValu_line (s := sigPast s g) (g := g) hfields (by rwa [sigPast_valuLines]) hfn
  rw [← sigPast_flags]
  exact exec_valu_of_ok hat hop hfn hexec (fitsLine_of_mem_valuLines hline) hvalu

/-- An elementwise function: VD holds each result limited to 16 bits, with its flags. -/
theorem exec_valu_elementwise (hat : sigAt s g w) (hop : sigOp w = 0x10) (hfields : valuFieldsZero w) (hrow : row ∈ valuRows g)
    (hfn : bits w 10 6 = row.2.1) :
    let c := s.sig g
    let l := valuElems c w
    ∃ t, exec row.1 s = .next t ∧ sigFrame s t g ∧ (t.sig g).vreg (bits w 25 21) = packElems (l.map (·.code)) ∧
      (∀ k, k < 32 → k ≠ bits w 25 21 → (t.sig g).vreg k = c.vreg k) ∧ (t.sig g).a = c.a ∧
      (t.sig g).flags = c.flags.join (Flags.joinAll (l.map (·.fl))) ∧ (t.sig g).accs = c.accs := by
  intro c l
  obtain ⟨hexec, hlt⟩ := exec_valuRow hrow s
  have hok := sigValu_elementwise (s := sigPast s g) (g := g) hfields (hfn.trans_lt hlt)
  rw [sigPast_valuElems, sigPast_flags] at hok
  have hlength : (l.map (·.code)).length = 32 := (List.length_map _).trans (length_valuElems c w)
  exact exec_valu_of_ok hat hop hfn hexec (fitsLine_packElems hlength) hok

/-- Settles O23: an elementwise function (`exec_valu_elementwise`) stores what `valuElem_limits` says of each element; AND, OR,
XOR, BCAST and MOV write a line (`exec_valu_line`); a held function faults. -/
theorem vectorFunctions : Obligations.VectorFunctions := by
  intro g w s hat hop c a b fn d lo hi hbinary himm
  have hfields : valuFieldsZero w := ⟨hbinary, himm⟩
  refine ⟨fun row hrow hfn => ?elements, fun row hrow hfn => ?line, fun hfn => ?broadcast, fun hheld => ?held⟩
  case elements =>
    intro r
    have hlimits (e : Nat) : (valuElem fn (bits w 3 0) a b e).Limits (r e) (valuDrops fn (bits w 3 0) a b e) := by
      rw [hfn]
      exact valuElem_limits hrow ..
    obtain ⟨t, hexec, hframe, hvd, hother, hareg, hflags, haccs⟩ := exec_valu_elementwise hat hop hfields hrow hfn
    refine ⟨t, hexec, hframe, fun e he => ?_, hother, hareg, haccs, ?_, ?_⟩
    · rw [hvd]
      exact elemOf_packElems_code (getElem?_valuElems _ _ he) (hlimits e)
    · rw [hflags, Flags.sat_join_joinAll, exists_mem_valuElems_fl]
      exact or_congr_right (exists_congr fun e => and_congr_right fun _ => (hlimits e).sat)
    · rw [hflags, Flags.inx_join_joinAll, exists_mem_valuElems_fl]
      exact or_congr_right (exists_congr fun e => and_congr_right fun _ => (hlimits e).inx)
  case line =>
    simp only [List.mem_cons, List.not_mem_nil, or_false] at hrow
    rcases hrow with rfl | rfl | rfl | rfl <;>
      exact exec_valu_line hat hop hfields (by simp [valuLines, a, b, c]) hfn rfl
  case broadcast =>
    obtain ⟨t, hexec, hframe, hvd, hother, -, hflags, -⟩ := exec_valu_line (c := .valuBcast g) hat hop hfields
      (x := broadcastLine a (bits w 3 0)) (by simp [valuLines, a, c]) hfn rfl
    refine ⟨t, hexec, hframe, fun i hi => ?_, hother, hflags⟩
    rw [hvd, laneOf_broadcastLine _ _ hi]
  case held =>
    exact exec_sigOpcode_of_heldFunction hat (by simp [sigKnown, hop, hheld, fn]) (.inl hop)

end Sys2Proof.Claims
end

section
/-! SUPPORT. A step takes the command at the front of the queue; without one it idles. -/

namespace Sys2Proof.Claims
open Machine

/-- Settles O1: `step` matches on the queue, whose front command it runs. -/
theorem frontCommandRunsOrIdle : Obligations.FrontCommandRunsOrIdle := by
  refine ⟨fun c rest s => rfl, fun s hempty => ?_⟩
  rw [step, hempty]

end Sys2Proof.Claims
end

section
/-! SUPPORT. Messages on the wire: a message cut into 16-byte slices and joined (R427, R432), the fields of a header (R427), and
the link word of a flit (R432, R434). -/

namespace Sys2Proof.Machine

/-! ### Slices (R432) -/

/-- The payload cut into n slices of 128 bits and joined again is its low 128 n bits. -/
theorem foldr_slices (n p : Nat) :
    ((List.range n).map (fun i => BitVec.ofNat 128 (p / 2 ^ (128 * i)))).foldr (fun s n => s.toNat + 2 ^ 128 * n) 0 =
      p % 2 ^ (128 * n) := by
  induction n generalizing p with
  | zero => simp [Nat.mod_one]
  | succ n ih =>
    have hshift (i : Nat) : p / 2 ^ (128 * (i + 1)) = p / 2 ^ 128 / 2 ^ (128 * i) := by
      rw [Nat.div_div_eq_div_mul, ← pow_add, Nat.mul_succ, Nat.add_comm]
    simp only [List.range_succ_eq_map, List.map_cons, List.map_map, Function.comp_def, hshift, List.foldr_cons, ih,
      Nat.mul_zero, pow_zero, Nat.div_one, BitVec.toNat_ofNat]
    rw [Nat.mul_succ, Nat.add_comm (128 * n), pow_add, Nat.mod_mul]

/-- Enough slices for n bytes hold n bytes. -/
theorem bytes_le_slices (n : Nat) : 256 ^ n ≤ 2 ^ (128 * ((n + 15) / 16)) := by
  rw [show 256 = 2 ^ 8 from rfl, ← pow_mul]
  exact Nat.pow_le_pow_right (by decide) (by omega)

/-- Joining the slices of a message gives the message, its payload cut to the bytes that its header counts. -/
theorem msgOf_msgSlices (m : Msg) : msgOf (msgSlices m) = ⟨m.hdr,
    m.payload % 2 ^ (128 * ((payloadBytes m.hdr + 15) / 16)) % 256 ^ payloadBytes m.hdr⟩ := by
  rw [msgSlices, msgOf, foldr_slices]

end Sys2Proof.Machine

namespace Sys2Proof.Claims
open Machine

/-- Settles O31: the slices hold every byte that the header counts (`foldr_slices`, `bytes_le_slices`). -/
theorem messageSlicesRoundTrip : Obligations.MessageSlicesRoundTrip := by
  intro m hm
  rw [msgOf_msgSlices, Nat.mod_eq_of_lt (hm.trans_le (bytes_le_slices _)), Nat.mod_eq_of_lt hm]

end Sys2Proof.Claims

namespace Sys2Proof.Machine

/-! ### Headers (R427) -/

/-- A bit field by division. -/
theorem bits_eq_div (w hi lo : Nat) : bits w hi lo = w / 2 ^ lo % 2 ^ (hi + 1 - lo) := by
  rw [bits, Nat.shiftRight_eq_div_pow]

/-- A header as a number: every field at its place, below 2^128. -/
theorem toNat_mkHdr (vc ty dst src role tag len addr : Nat) :
    (mkHdr vc ty dst src role tag len addr).toNat = 2 ^ 124 + vc % 4 * 2 ^ 122 + ty % 64 * 2 ^ 116 + dst % 4096 * 2 ^ 100 +
      src % 4096 * 2 ^ 88 + role % 65536 * 2 ^ 72 + tag % 1024 * 2 ^ 62 + len % 256 * 2 ^ 54 + addr % 2 ^ 52 := by
  rw [mkHdr, BitVec.toNat_ofNat, Nat.one_mul]
  exact Nat.mod_eq_of_lt (by omega)

/-! ### Flits (R432, R434) -/

theorem crcBit_lt {c : Nat} (h : c < 2 ^ 32) : crcBit c < 2 ^ 32 := by
  unfold crcBit
  split
  · exact Nat.xor_lt_two_pow (by omega) (by decide)
  · omega

theorem crcByte_lt {c b : Nat} (hc : c < 2 ^ 32) (hb : b < 2 ^ 32) : crcByte c b < 2 ^ 32 := by
  repeat' apply crcBit_lt
  exact Nat.xor_lt_two_pow hc hb

theorem crcRun_lt (n : Nat) : ∀ {c : Nat} (w : Nat), c < 2 ^ 32 → crcRun c w n < 2 ^ 32 := by
  induction n with
  | zero => exact fun _ h => h
  | succ n ih => exact fun w h => ih _ (crcByte_lt h (by omega))

/-- A CRC has 32 bits. -/
theorem crc32_lt (w n : Nat) : crc32 w n < 2 ^ 32 := Nat.xor_lt_two_pow (crcRun_lt n w (by decide)) (by decide)

/-- A link word as a number: CRC, sequence number and header mask, each at its place. -/
theorem toNat_linkWord (data seq hmask : Nat) : (linkWord data seq hmask).toNat =
    crc32 (data + seq % 4096 * 2 ^ 512) 66 * 2 ^ 32 + seq % 4096 * 2 ^ 20 + hmask % 16 * 2 ^ 16 := by
  rw [linkWord, BitVec.toNat_ofNat]
  generalize hc : crc32 _ _ = c
  have := hc ▸ crc32_lt _ _
  exact Nat.mod_eq_of_lt (by omega)

theorem linkWord_crc (data seq hmask : Nat) :
    bits (linkWord data seq hmask).toNat 63 32 = crc32 (data + seq % 4096 * 2 ^ 512) 66 := by
  rw [bits_eq_div, toNat_linkWord]
  generalize hc : crc32 _ _ = c
  have := hc ▸ crc32_lt _ _
  omega

theorem linkWord_seq (data seq hmask : Nat) : bits (linkWord data seq hmask).toNat 31 20 = seq % 4096 := by
  rw [bits_eq_div, toNat_linkWord]
  generalize crc32 _ _ = c
  omega

theorem linkWord_hmask (data seq hmask : Nat) : bits (linkWord data seq hmask).toNat 19 16 = hmask % 16 := by
  rw [bits_eq_div, toNat_linkWord]
  generalize crc32 _ _ = c
  omega

/-- A flit made by the sender passes the receiver's check. -/
theorem flitOk_mkFlit (data seq hmask : Nat) : flitOk (mkFlit data seq hmask) = true := by
  simp only [flitOk, mkFlit, linkWord_crc, linkWord_seq, BitVec.toNat_ofNat, beq_self_eq_true]

end Sys2Proof.Machine

namespace Sys2Proof.Claims
open Machine

/-- R427: every field of a header reads back, by its place in the header's number. -/
theorem claimHeaderFieldsRoundTrip_holds : claimHeaderFieldsRoundTrip := by
  intro vc ty dst src role tag len addr hvc hty hdst hsrc hrole htag hlen haddr h
  have hnum : h.toNat = _ := toNat_mkHdr vc ty dst src role tag len addr
  rw [Nat.mod_eq_of_lt hvc, Nat.mod_eq_of_lt hty, Nat.mod_eq_of_lt hdst, Nat.mod_eq_of_lt hsrc, Nat.mod_eq_of_lt hrole,
    Nat.mod_eq_of_lt htag, Nat.mod_eq_of_lt hlen, Nat.mod_eq_of_lt haddr] at hnum
  simp only [hVer, hVc, hType, hHops, hDst, hSrc, hRole, hTag, hLen, hAddr, bits_eq_div, hnum]
  refine ⟨?_, ?_, ?_, ?_, ?_, ?_, ?_, ?_, ?_, ?_⟩ <;> omega

/-- R432, R434: the check recomputes the CRC that the link word carries. -/
theorem claimFlitSentPassesCheck_holds : claimFlitSentPassesCheck := fun data seq hmask hseq hmask_lt =>
  ⟨flitOk_mkFlit data seq hmask, (linkWord_seq _ _ _).trans (Nat.mod_eq_of_lt hseq),
    (linkWord_hmask _ _ _).trans (Nat.mod_eq_of_lt hmask_lt)⟩

/-- Settles O32: the fields of a header and of a link word are read at their places. -/
theorem headersAndFlitsRoundTrip : Obligations.HeadersAndFlitsRoundTrip :=
  ⟨claimHeaderFieldsRoundTrip_holds, claimFlitSentPassesCheck_holds⟩

end Sys2Proof.Claims
end

section
/-! SUPPORT. Messages taken in their turn: what a request and a response meet before they are served, case by case (R426, R428,
R442). -/

namespace Sys2Proof.Machine

variable {s : State} {m : Msg} {ty : Nat} {k : State → State}

/-! ### Messages in their turn (R426, R428) -/

theorem State.take_waiting (hturn : s.inTurn m = false) : s.take m k = s.await m := by simp [State.take, hturn]

theorem State.take_bad (hturn : s.inTurn m = true) (hbad : msgBad m.hdr = true) : s.take m k = s.malformed m := by
  simp [State.take, hturn, hbad]

theorem State.take_due (hturn : s.inTurn m = true) (hbad : msgBad m.hdr = false) : s.take m k = k (s.consume m) := by
  simp [State.take, hturn, hbad]

/-- A malformed request is dropped, counted and answered DENIED. -/
theorem State.malformed_of_request (h : isRequest m.hdr = true) :
    s.malformed m = ((s.consume m).countDev 0x040).post (rspTo s.nodeId m.hdr 3) := if_pos h

/-! ### Requests served (R428, R442) -/

section
variable (hty : hType m.hdr = ty) (hdst : hDst m.hdr = s.nodeId)
include hty hdst

theorem State.serve_waiting (hturn : s.inTurn m = false) : s.serve m ty k = s.await m := by
  simp [State.serve, hty, hdst, hturn]

theorem State.serve_bad (hturn : s.inTurn m = true) (hbad : msgBad m.hdr = true) : s.serve m ty k = s.malformed m := by
  simp [State.serve, hty, hdst, hturn, hbad]

theorem State.serve_stale (hturn : s.inTurn m = true) (hbad : msgBad m.hdr = false) (hrole : s.roleOk m.hdr = false) :
    s.serve m ty k = ((s.consume m).countDev 0x045).post (staleTo s.nodeId m.hdr) := by
  simp [State.serve, hty, hdst, hturn, hbad, hrole]

theorem State.serve_due (hturn : s.inTurn m = true) (hbad : msgBad m.hdr = false) (hrole : s.roleOk m.hdr = true) :
    s.serve m ty k = k (s.consume m) := by
  simp [State.serve, hty, hdst, hturn, hbad, hrole]

end

/-- A message taken from the inbox leaves the runs as they are. -/
@[simp] theorem State.consume_runs (s : State) (m : Msg) : (s.consume m).fab.runs = s.fab.runs := by
  unfold State.consume
  split
  · rfl
  · simp only []
    split
    · rfl
    · split <;> rfl

end Sys2Proof.Machine

namespace Sys2Proof.Claims
open Machine

variable {s : State} {m : Msg} {c : Instr} {k : State → State}

theorem claimTakenInTurn_of_take (h : exec c s = .next (s.take m k)) : claimTakenInTurn c m s :=
  ⟨fun hturn => h.trans (congrArg _ (State.take_waiting hturn)), fun hturn hbad => h.trans (congrArg _ (State.take_bad hturn hbad))⟩

theorem claimTakenInTurn_of_serve {ty : Nat} (h : exec c s = .next (s.serve m ty k)) (hty : hType m.hdr = ty)
    (hdst : hDst m.hdr = s.nodeId) : claimTakenInTurn c m s :=
  ⟨fun hturn => h.trans (congrArg _ (State.serve_waiting hty hdst hturn)),
    fun hturn hbad => h.trans (congrArg _ (State.serve_bad hty hdst hturn hbad))⟩

/-- An access by a requester that is served is performed at once (R484, R535, R554). -/
theorem access_of_serves {a : OdAccess} (h : serves s (accessBy a)) : s.access a = s.perform a := by
  obtain ⟨hanswers, hup, hcrown⟩ := h
  simp [State.access, hanswers, hup, hcrown]

/-- Settles O33: a request is served in its turn by what `State.serve` gives its row. -/
theorem requestsServed : Obligations.RequestsServed := by
  intro m s hdst
  refine ⟨fun h => claimTakenInTurn_of_serve rfl h hdst, fun h => claimTakenInTurn_of_serve rfl h hdst,
    fun h => claimTakenInTurn_of_serve rfl h hdst, fun h => claimTakenInTurn_of_serve rfl h hdst,
    fun h => claimTakenInTurn_of_serve rfl h hdst, fun hturn => ?_⟩
  intro s1 n who
  refine ⟨fun hbad => ?malformed, fun hbad hrole => ?stale, fun hbad hrole => ?served⟩
  case malformed =>
    have hdenied {c : Instr} {ty : Nat} {k : State → State} (hexec : exec c s = .next (s.serve m ty k)) (hty : hType m.hdr = ty)
        (hreq : 1 ≤ ty ∧ ty ≤ 5) : exec c s = .next ((s1.countDev 0x040).post (rspTo s.nodeId m.hdr 3)) := by
      rw [hexec, State.serve_bad hty hdst hturn hbad, State.malformed_of_request (by simpa [isRequest, hty] using hreq)]
    exact ⟨fun h => hdenied rfl h (by decide), fun h => hdenied rfl h (by decide)⟩
  case stale =>
    have hstale {c : Instr} {ty : Nat} {k : State → State} (hexec : exec c s = .next (s.serve m ty k)) (hty : hType m.hdr = ty) :
        exec c s = .next ((s1.countDev 0x045).post (staleTo s.nodeId m.hdr)) := by
      rw [hexec, State.serve_stale hty hdst hturn hbad hrole]
    exact ⟨hstale rfl, hstale rfl, hstale rfl, hstale rfl, hstale rfl⟩
  case served =>
    have hdue {c : Instr} {ty : Nat} {k : State → State} (hexec : exec c s = .next (s.serve m ty k)) (hty : hType m.hdr = ty) :
        exec c s = .next (k s1) := by rw [hexec, State.serve_due hty hdst hturn hbad hrole]
    refine ⟨fun h => hdue (c := .fabricWrite m) rfl h, fun h => ?read, fun h hown hwho => ?lite, fun h hwho => ?nobody, fun h hrun => ?gadd,
      fun t h ht => ?claim⟩
    case read =>
      have hexec := hdue (c := .fabricRead m) rfl h
      exact ⟨fun hr => hexec.trans (congrArg _ (if_pos hr)), fun hr => hexec.trans (congrArg _ (if_neg hr))⟩
    case lite =>
      intro len r
      have hexec : exec (.fabricLite m) s =
          .next ((if r.1 = 0 then r.2.semAdd (m.payload % 65536) 1 else r.2).post (rspTo s.nodeId m.hdr r.1)) := by
        refine (hdue (c := .fabricLite m) rfl h).trans (congrArg _ (if_neg ?_))
        cases hw : s1.reqOf m.hdr with
        | crown => simp
        | part k => simp [hown k hw]
        | nobody => exact absurd hw hwho
      exact ⟨fun hr => by rw [hexec, if_pos hr, hr], fun hr => by rw [hexec, if_neg hr]⟩
    case nobody =>
      refine (hdue (c := .fabricLite m) rfl h).trans (congrArg _ (if_pos ?_))
      rw [show s1.reqOf m.hdr = .nobody from hwho]
    case gadd => exact (hdue (c := .gadd m) rfl h).trans (congrArg _ (if_neg (not_not.2 hrun)))
    case claim =>
      have hclaim {r : ClaimRes × State} (hr : s1.claimAt t (hSrc m.hdr, hAddr m.hdr - spBase t) (hTag m.hdr) = r) := by
        have := hdue (c := .claim m) rfl h
        simp only [ht, hr] at this
        exact this
      exact ⟨fun s2 hr => hclaim hr, fun s2 hr => hclaim hr, fun s2 hr => hclaim hr⟩

/-! ### Messages that are no requests -/

/-- A STEP_DONE from another node is taken in its turn, whatever the run (R446). -/
theorem exec_stepDone_of_other (hty : hType m.hdr = 0x24) (hsrc : hSrc m.hdr ≠ s.nodeId) :
    ∃ k, exec (.stepDone m) s = .next (s.take m k) := by
  change ∃ k, execStepDone m s = _
  simp only [execStepDone, hty, ne_eq, not_true_eq_false, if_false]
  cases s.runOf (payJob m.payload) (payGen m.payload) with
  | none => exact ⟨_, rfl⟩
  | some r =>
    simp only [hsrc, not_false_eq_true, if_true]
    split
    · exact ⟨_, rfl⟩
    · exact ⟨_, rfl⟩

/-- R426, R578: every row but a request's takes its message by `State.take`. -/
theorem claimMessagesTakenInTurn_holds : claimMessagesTakenInTurn := by
  intro m f r s hdst
  refine ⟨fun hty ha => ?rsp, fun hty ha => ?stale, fun hty => ?data, fun hty => ?free, fun hty => ?heartbeat, fun hty => ?mgmt,
    fun hty hsrc => ?lease, fun hty hsrc => ?step, fun hty => ?commit, fun hty => ?fence⟩
  case lease =>
    exact claimTakenInTurn_of_take (congrArg _ ((if_neg (by simp [hty])).trans ((if_neg hsrc).trans (if_neg (by simp [hdst])))))
  case step =>
    obtain ⟨k, hk⟩ := exec_stepDone_of_other hty hsrc
    exact claimTakenInTurn_of_take hk
  case rsp | stale => exact claimTakenInTurn_of_take (congrArg _ (if_neg (by simp [hty, hdst, ha])))
  all_goals exact claimTakenInTurn_of_take (congrArg _ (if_neg (by simp [hty, hdst])))

/-- A header with HOPS below 15 counts one more hop. -/
theorem hHops_add_one {h : Word128} (hne : hHops h ≠ 15) : hHops (h + BitVec.ofNat 128 (2 ^ 112)) = hHops h + 1 := by
  simp only [hHops, bits_eq_div] at hne ⊢
  rw [BitVec.toNat_add, BitVec.toNat_ofNat]
  have := h.isLt
  omega

/-- R423, R424, R426, R428: a message for another node, and a MGMT request for this one. -/
theorem claimMessagesForwarded_holds : claimMessagesForwarded := by
  intro m s
  have hforward (hdst : hDst m.hdr ≠ s.nodeId) (h0 : hType m.hdr ≠ 0) (hfill : hType m.hdr ≠ 0x3F) :
      exec (.messageForward m) s = .next (if ¬ s.inTurn m then s.await m else if headBad m.hdr then s.malformed m
        else if hHops m.hdr = 15 then (s.consume m).unreachable m
        else (s.consume m).post { m with hdr := m.hdr + BitVec.ofNat 128 (2 ^ 112) }) :=
    congrArg _ (if_neg (by simp [hdst, h0, hfill]))
  refine ⟨fun hdst h0 hfill hturn => ?waits, fun hturn => ⟨fun hdst h0 hfill hbad => ?bad, fun hdst h0 hfill hbad hhops => ?goes,
    fun hdst h0 hfill hbad hhops => ?unreachable, fun f hty hdst hbad hserves => ?mgmt⟩⟩
  case waits => simp [hforward hdst h0 hfill, hturn]
  case bad => simp [hforward hdst h0 hfill, hturn, hbad]
  case goes => exact ⟨by simp [hforward hdst h0 hfill, hturn, hbad, hhops], hHops_add_one hhops⟩
  case unreachable => simp [hforward hdst h0 hfill, hturn, hbad, hhops]
  case mgmt =>
    have hexec : exec (.mgmt m f) s = .next (s.take m fun s1 => s1.access (.mgmt m.hdr (hSrc m.hdr) f)) :=
      congrArg _ (if_neg (by simp [hty, hdst]))
    rw [hexec, State.take_due hturn hbad, access_of_serves hserves]
    rfl

/-- R428 to R430, R443, R444, R451: what each response does to the request it answers. -/
theorem claimResponsesAnswerRequests_holds : claimResponsesAnswerRequests := by
  intro m s hdst hturn hbad s1 code
  have hdue {c : Instr} {k : State → State} (hexec : exec c s = .next (s.take m k)) : exec c s = .next (k s1) :=
    hexec.trans (congrArg _ (State.take_due hturn hbad))
  refine ⟨fun hty hcode => ?rsp, fun hty hcode r o ho => ?stale, fun hty o e dst skip n x ho horigin hx => ?data,
    fun hty o e dst n data t ho horigin => ?merge, fun hty p far hp hown hwait hfar => ?free, fun p far hown hwait => ?retry,
    fun o c p ord horigin => ?lite⟩
  case rsp =>
    have hexec := hdue (c := .rsp m) (congrArg _ (if_neg (by simp [hty, hdst, show hAddr m.hdr % 16 ≠ 8 from hcode])))
    exact ⟨fun o ho => by simpa only [ho] using hexec, fun ho => by simpa only [ho] using hexec⟩
  case stale =>
    have hexec := hdue (c := .staleRole m r) (congrArg _ (if_neg (by simp [hty, hdst, show hAddr m.hdr % 16 = 8 from hcode])))
    simp only [ho] at hexec
    refine ⟨fun hmany => hexec.trans (congrArg _ (if_pos hmany)), fun hfew hr => ?_, fun node unit gen hfew hr => ?_⟩
    all_goals subst hr; exact hexec.trans (congrArg _ (if_neg (not_le.2 hfew)))
  case data =>
    have hexec := hdue (c := .readData m) (congrArg _ (if_neg (by simp [hty, hdst])))
    simp only [ho, horigin, hx, State.brimStore] at hexec
    exact ⟨fun hop => by simpa only [hop, if_false] using hexec, fun hop => by simpa only [hop, if_true] using hexec⟩
  case merge =>
    intro w j hreq
    have hexec := hdue (c := .readData m) (congrArg _ (if_neg (by simp [hty, hdst])))
    simp only [ho, horigin] at hexec
    rw [hreq] at hexec
    exact hexec
  case free =>
    have hexec := hdue (c := .freeMsg m) (congrArg _ (if_neg (by simp [hty, hdst])))
    simpa only [hp, hown, hwait, hfar, and_self, if_true] using hexec
  case retry =>
    change Host.Outcome.next _ = _
    simp only [hown, hwait, if_true]
  case lite => simp only [State.finishReq, horigin]

/-- Settles O34: messages are taken by `State.take`, and each row answers the request found by `State.answered`. -/
theorem messagesForwardedAndAnswered : Obligations.MessagesForwardedAndAnswered :=
  ⟨claimMessagesTakenInTurn_holds, claimMessagesForwarded_holds, claimResponsesAnswerRequests_holds⟩

end Sys2Proof.Claims
end

section
/-! SUPPORT. Partners, leases, staged commit and the recovery of a fenced job (R445 to R450, R454). -/

namespace Sys2Proof.Machine

theorem State.await_runs (s : State) (m : Msg) : (s.await m).fab.runs = s.fab.runs := by
  unfold State.await
  split <;> rfl

theorem State.malformed_of_other (s : State) {m : Msg} (h : isRequest m.hdr = false) :
    s.malformed m = (s.consume m).countDev 0x040 := if_neg (by simp [h])

/-- A message that is no request leaves the runs as they are where what takes it does. -/
theorem State.take_runs (s : State) {m : Msg} {k : State → State} (hother : isRequest m.hdr = false)
    (hk : (k (s.consume m)).fab.runs = s.fab.runs) : (s.take m k).fab.runs = s.fab.runs := by
  unfold State.take
  split
  · exact s.await_runs m
  · split
    · rw [s.malformed_of_other hother, State.countDev, State.visorCount_fab, s.consume_runs]
    · exact hk

/-- The cores of a job are those below 72 that run it. -/
theorem State.mem_coresOf (s : State) (h p : Nat) : p ∈ s.coresOf h ↔ p < 72 ∧ (s.coreAt p).job = some h := by
  simp [State.coresOf]

end Sys2Proof.Machine

namespace Sys2Proof.Claims
open Machine

variable {s : State} {m : Msg}

/-- LEASE: this node's own goes out, a partner's is taken in its turn (R445). -/
theorem exec_lease (hty : hType m.hdr = 0x23) : exec (.lease m) s = .next (if hSrc m.hdr = s.nodeId then
      if hDst m.hdr = s.nodeId then s else (s.setLease (hDst m.hdr) m.payload).post m
    else if hDst m.hdr ≠ s.nodeId then s
    else s.take m fun s0 => if bit (payX m.payload) 1 then s0.setLease (hSrc m.hdr) m.payload
      else (s0.setLease (hSrc m.hdr) m.payload).tell 0x23 (hSrc m.hdr) (payJob m.payload) (payGen m.payload)
        (payX m.payload % 2 + 2) (payStep m.payload)) := congrArg _ (if_neg (not_not.2 hty))

/-- STEP_DONE of a run that this node knows (R446). -/
theorem exec_stepDone_of_run {r : Run} (hty : hType m.hdr = 0x24) (hrun : s.runOf (payJob m.payload) (payGen m.payload) = some r) :
    exec (.stepDone m) s = .next (if r.nodes.foldl min s.nodeId ≠ s.nodeId then
        if hSrc m.hdr ≠ s.nodeId then s.take m id else if r.fenced then s
        else s.tell 0x24 (r.nodes.foldl min s.nodeId) (payJob m.payload) (payGen m.payload) 0 (payStep m.payload)
      else s.take m fun s1 =>
        if r.fenced ∨ payStep m.payload ≠ r.step then s1
        else
          let done := if r.doneBy.contains (hSrc m.hdr) then r.doneBy else r.doneBy ++ [hSrc m.hdr]
          if r.nodes.all (fun n => done.contains n) then
            (r.nodes.filter (fun n => n != s.nodeId)).foldl
              (fun st n => st.tell 0x25 n (payJob m.payload) (payGen m.payload) 0 (payStep m.payload))
              (s1.commitStep (payJob m.payload) (payStep m.payload))
          else s1.modRun (payJob m.payload) (fun r => { r with doneBy := done })) := by
  refine congrArg _ ((if_neg (not_not.2 hty)).trans ?_)
  rw [hrun]

/-- COMMIT of a run that this node knows, taken in its turn (R446). -/
theorem exec_commit_due {r : Run} (hturn : s.inTurn m = true) (hbad : msgBad m.hdr = false) (hty : hType m.hdr = 0x25)
    (hdst : hDst m.hdr = s.nodeId) (hrun : (s.consume m).runOf (payJob m.payload) (payGen m.payload) = some r) :
    exec (.commit m) s = .next (if r.fenced then s.consume m
      else (s.consume m).commitStep (payJob m.payload) (payStep m.payload)) := by
  refine congrArg _ ((if_neg (by simp [hty, hdst])).trans ((State.take_due hturn hbad).trans ?_))
  simp only [hrun]

/-- R445 to R447, R454: heartbeats, leases and staged commit, message by message. -/
theorem claimLeasesAndStagedCommit_holds : claimLeasesAndStagedCommit := by
  intro m s s1 job gen k due
  have hdue {c : Instr} {f : State → State} (hd : due) (hexec : exec c s = .next (s.take m f)) : exec c s = .next (f s1) :=
    hexec.trans (congrArg _ (State.take_due hd.1 hd.2))
  have hleased (node : Nat) : s.fab.leases.any (fun l => l.node == node) = true ↔ ∃ l ∈ s.fab.leases, l.node = node := by simp
  refine ⟨fun hd hty hdst => ?heartbeat, fun node hl => ?leased, fun node hl => ?none, fun hty hsrc hdst => ?mine,
    fun hd hty hsrc hdst hans => ?asked, fun hd hty hsrc hdst hans => ?answered, fun r hd hty hrun hhead hf hk => ?done,
    fun r hty hrun hhead hf hsrc => ?report, fun r hd hty hdst hrun hf => ?commit⟩
  case heartbeat => exact hdue (c := .heartbeat m) hd (congrArg _ (if_neg (by simp [hty, hdst])))
  case leased => exact ⟨congrArg _ (if_pos ((hleased node).2 hl)), congrArg _ (if_pos ((hleased node).2 hl))⟩
  case none =>
    have hno : ¬ s.fab.leases.any (fun l => l.node == node) = true := fun h =>
      ((hleased node).1 h).elim fun l ⟨hmem, hn⟩ => hl l hmem hn
    exact ⟨congrArg _ (if_neg hno), congrArg _ (if_neg hno)⟩
  case mine => rw [exec_lease hty, if_pos hsrc, if_neg hdst]
  case asked | answered =>
    have hexec := exec_lease (s := s) hty
    rw [if_neg hsrc, if_neg (not_not.2 hdst)] at hexec
    simpa only [hans, if_true, Bool.false_eq_true, if_false] using hdue hd hexec
  case done =>
    intro done
    have hexec := hdue (c := .stepDone m) hd ((exec_stepDone_of_run hty hrun).trans (congrArg _ (if_neg (not_not.2 hhead))))
    have hall : r.nodes.all (fun n => done.contains n) = true ↔ ∀ n ∈ r.nodes, n ∈ done := by simp
    have hlive : ¬ (r.fenced = true ∨ payStep m.payload ≠ r.step) := by simp [hf, show payStep m.payload = r.step from hk]
    refine ⟨fun h => hexec.trans (congrArg _ ((if_neg hlive).trans (if_pos (hall.2 h)))), fun ⟨n, hn, hnot⟩ =>
      hexec.trans (congrArg _ ((if_neg hlive).trans (if_neg fun h => hnot (hall.1 h n hn))))⟩
  case report =>
    rw [exec_stepDone_of_run hty hrun, if_pos hhead, if_neg (not_not.2 hsrc), hf]
    rfl
  case commit =>
    rw [exec_commit_due hd.1 hd.2 hty hdst hrun, hf]
    rfl

/-- R447 to R450: fencing, a fenced generation's COMMIT, and recovery once every task has stopped. -/
theorem claimFencedGenerationsNeverCommit_holds : claimFencedGenerationsNeverCommit := by
  intro m s s1
  refine ⟨fun r hturn hbad hty hdst hrun => ?fence, fun x r n hf => if_pos hf, fun r t hty hrun hf hexec => ?commit,
    fun run held inputs r j hr hj => ?recovery⟩
  case fence =>
    refine congrArg _ ((if_neg (by simp [hty, hdst])).trans ((State.take_due hturn hbad).trans ?_))
    simp only [show (s.consume m).runOf _ _ = some r from hrun, s1]
  case commit =>
    have hother : isRequest m.hdr = false := by simp [isRequest, hty]
    rw [← show _ = t from Host.Outcome.next.inj hexec]
    split
    · exact (s.consume_runs m).symm
    · refine (s.take_runs hother ?_).trans (s.consume_runs m).symm
      simp only [show (s.consume m).runOf _ _ = some r from hrun, hf, if_true, s.consume_runs]
  case recovery =>
    have hbusy : (s.coresOf run).any (fun p => (s.coreAt p).mode == .running || (s.coreAt p).mode == .halting) = true ↔
        ∃ p, p < 72 ∧ (s.coreAt p).job = some run ∧ ((s.coreAt p).mode = .running ∨ (s.coreAt p).mode = .halting) := by
      simp [s.mem_coresOf, and_assoc]
    have hexec : exec (.fenceRecovery run held inputs) s = execFenceRecovery run held inputs s := rfl
    simp only [execFenceRecovery, hr, hj] at hexec
    refine ⟨fun hrunning => hexec.trans (congrArg _ (if_pos (hbusy.2 hrunning))), fun hstopped => ?_⟩
    have hidle := fun h => (hbusy.1 h).elim fun p ⟨hp, hjob, hmode⟩ => hmode.elim (hstopped p hp hjob).1 (hstopped p hp hjob).2
    rw [if_neg hidle] at hexec
    exact ⟨fun hlost => hexec.trans (congrArg _ (if_pos (by simp [hlost]))), fun hkept =>
      ⟨_, hexec.trans (congrArg _ (if_neg (by simp [hkept]))), rfl⟩⟩

/-- Settles O35: each message by its row, and the recovery by what stands in its job's cores. -/
theorem leasesFencesAndCommit : Obligations.LeasesFencesAndCommit :=
  ⟨claimLeasesAndStagedCommit_holds, claimFencedGenerationsNeverCommit_holds⟩

end Sys2Proof.Claims
end

section
/-! SUPPORT. Flits, links and tunnels, row by row (R432 to R440, R454, R457). -/

namespace Sys2Proof.Claims
open Machine

/-! ### Flits and link control (R432 to R434) -/

/-- LINK_CTL at a link that is up (R432 to R434). -/
theorem exec_linkCtl {l : LinkId} {s : State} (hup : (s.link l).up = true) (ack : BitVec 12) (nak : Bool) (credits : BitVec 64) :
    let x := s.link l
    let left := x.replay.filter (fun e => decide ((e.1 + 4096 - ack.toNat) % 4096 < 2048))
    let s1 := s.setLink l { x with
      replay := left
      credits := (List.range 4).map (fun i => nth x.credits i + bits credits.toNat (16 * i + 15) (16 * i)) }
    exec (.linkCtl l ack nak credits) s = .next (if nak ∧ left.any (fun e => decide (8 ≤ e.2.2)) then
        s1.setLink l { s1.link l with training := true }
      else (if nak then s1.replayLink l else s1).linkPump l (x.txq.length + 1)) :=
  congrArg _ (if_neg (not_not.2 hup))

/-- FLIT_RECEIVE at a link that takes flits (R433, R434). -/
theorem exec_flitReceive {l : LinkId} {s : State} (hup : (s.link l).up = true) (htrain : (s.link l).training = false) (f : Flit) :
    let x := s.link l
    exec (.flitReceive l f) s = .next (if ¬ flitOk f ∨ bits f.word.toNat 31 20 ≠ x.expSeq then s.setLink l { x with nak := true }
      else
        let r := takeFlit f.data (some (bits f.word.toNat 19 16)) x.rxLeft x.slices
        r.2.2.foldl (fun st m => st.arrive l.val m)
          (s.setLink l { x with expSeq := (x.expSeq + 1) % 4096, nak := false, rxLeft := r.1, slices := r.2.1 })) :=
  congrArg _ (if_neg (by simp [hup, htrain]))

/-- R432 to R434: flits received, and link control received and sent. -/
theorem claimFlitsTakenInOrder_holds : claimFlitsTakenInOrder := by
  intro l f s hup x seq
  refine ⟨fun htrain hwrong => ?wrong, fun htrain hok hseq => ?expected, congrArg _ (if_pos hup), fun ack credits => ?control⟩
  case wrong => exact (exec_flitReceive hup htrain f).trans (congrArg _ (if_pos (hwrong.imp_left (by simp [·]))))
  case expected => exact (exec_flitReceive hup htrain f).trans (congrArg _ (if_neg (by simp [hok, ← hseq, seq, x])))
  case control =>
    intro left cr s1
    have hany : left.any (fun e => decide (8 ≤ e.2.2)) = true ↔ ∃ e ∈ left, 8 ≤ e.2.2 := by simp
    refine ⟨?_, fun hfew => ?_, fun hmany => ?_⟩
    · exact (exec_linkCtl hup ack false credits).trans (congrArg _ (if_neg (by simp)))
    · exact (exec_linkCtl hup ack true credits).trans (congrArg _ (if_neg fun h =>
        (hany.1 h.2).elim fun e ⟨hmem, he⟩ => (hfew e hmem).not_ge he))
    · exact (exec_linkCtl hup ack true credits).trans (congrArg _ (if_pos ⟨rfl, hany.2 hmany⟩))

/-! ### Lanes and training (R422, R435, R436, R454, R457) -/

/-- LANE_TEST of a lane that has dropped, at a link that may widen (R436). -/
theorem exec_laneTest {l : LinkId} {lane : Fin 4} {s : State} (hup : (s.link l).up = true) (hcfg : bit (s.linkCfg l) 1 = true)
    (hlane : (s.link l).good.getLsbD lane.val = false) (pass : Bool) :
    let x := s.link l
    let n := if pass then nth x.passes lane.val + 1 else 0
    exec (.laneTest l lane pass) s = .next (if n < 3 then s.setLink l { x with passes := x.passes.set lane.val n }
      else (s.setLink l { x with
        passes := x.passes.set lane.val 0, good := x.good ||| BitVec.ofNat 4 (2 ^ lane.val) }).relane l) :=
  congrArg _ (if_neg (by simp only [hup, hcfg, hlane]; decide))

/-- LINK_TRAINING at a link that is enabled, with a partner that has another ID, a common level and enough lanes
(R436, R454, R457). -/
theorem exec_linkTraining_trained {l : LinkId} {t : TrainInfo} {s : State} {v : Nat} (hcfg : bit (s.linkCfg l) 0 = true)
    (hnode : t.node ≠ s.nodeId) (hver : s.pairVersion t.high t.low t.minors = some v)
    (hwidth : widthOk (s.linkCfg l) (widthOf (usable t.lanes (s.linkCfg l)).length) v = true) :
    let x := s.link l
    let w := widthOf (usable t.lanes (s.linkCfg l)).length
    exec (.linkTraining l t) s = .next (if x.up then
        ((s.setLink l { x with good := t.lanes, width := w, partner := t.node, peer := some t }).repair l).resumeLink l
      else ((s.setLink l { LinkSt.reset with
        up := true, good := t.lanes, width := w, partner := t.node, pairVer := v, peer := some t, txq := x.txq }).setPairVer
          t.node v).linkPump l (x.txq.length + 1)) := by
  refine congrArg _ ((if_neg (not_not.2 hcfg)).trans ((if_neg hnode).trans ?_))
  simp only [hver]
  exact if_neg (not_not.2 hwidth)

/-- R422, R435, R436, R454, R457: lanes dropped and tested, and links trained. -/
theorem claimLinkWidthAndTraining_holds : claimLinkWidthAndTraining := by
  intro l lane s x
  refine ⟨rfl, fun hup htrain => congrArg _ (if_pos ⟨hup, htrain⟩), fun t ht => ?repair, fun hup hcfg hlane => ?test,
    fun t hcfg => ?training⟩
  case repair => simp only [State.repair, show (s.link l).peer = some t from ht, x]
  case test =>
    refine ⟨exec_laneTest hup hcfg hlane false, fun hfew => ?_, fun hmany => ?_⟩
    · exact (exec_laneTest hup hcfg hlane true).trans (congrArg _ (if_pos (Nat.succ_lt_succ hfew)))
    · exact (exec_laneTest hup hcfg hlane true).trans (congrArg _ (if_neg (not_lt.2 (Nat.succ_le_succ hmany))))
  case training =>
    intro w
    refine ⟨fun hnode => ?_, fun hnode hver => ?_, fun v hnode hver hwidth => ⟨fun hdown => ?_, fun hup => ?_⟩⟩
    · exact congrArg _ ((if_neg (not_not.2 hcfg)).trans (if_pos hnode))
    · have hexec : exec (.linkTraining l t) s = execLinkTraining l t s := rfl
      simp only [execLinkTraining, hcfg, hnode, hver, not_true_eq_false, if_false] at hexec
      exact ⟨_, hexec⟩
    · exact (exec_linkTraining_trained hcfg hnode hver hwidth).trans (congrArg _ (if_neg (Bool.eq_false_iff.1 hdown)))
    · exact (exec_linkTraining_trained hcfg hnode hver hwidth).trans (congrArg _ (if_pos hup))

/-- Settles O36: flits by the link's state, lanes and training by the link's configuration and its partner. -/
theorem flitsAndLinks : Obligations.FlitsAndLinks := ⟨claimFlitsTakenInOrder_holds, claimLinkWidthAndTraining_holds⟩

/-! ### Tunnels (R437 to R440) -/

/-- Settles O37: a frame that passes is acknowledged and its flits are taken by `State.tunTake`. -/
theorem tunnelFramesTakenInOrder : Obligations.TunnelFramesTakenInOrder := by
  intro tu f s hopen h x
  have hcfg : bit (s.tunCfg tu) 0 = true := by
    simp only [State.tunOpen, Bool.and_eq_true] at hopen
    exact hopen.1
  refine ⟨fun hbad => ?bad, fun hok => ?good, congrArg _ (if_pos hopen), fun hup => congrArg _ (if_pos ⟨hcfg, hup⟩),
    fun d seq hne hold => ?seen⟩
  case bad => exact congrArg _ ((if_neg (not_not.2 hopen)).trans (if_pos (by simp [hbad])))
  case good =>
    intro left cr s1
    have hexec : exec (.tunnelFrame tu f) s = .next (((if bit h 216 then s1.tunResend tu else s1).tunTake tu (bits h 127 96)
        f.flits).tunPump tu (x.txq.length + 1)) := congrArg _ ((if_neg (not_not.2 hopen)).trans (if_neg (not_not.2 hok)))
    exact ⟨fun hack => by rw [hexec, hack]; rfl, fun hnak => by rw [hexec, hnak]; rfl⟩
  case seen => simp [State.tunTake, show seq ≠ (s.tun tu).expSeq from hne, show serialNewer 32 seq (s.tun tu).expSeq = false from hold]

end Sys2Proof.Claims
end

section
/-! SUPPORT. Fields put into a word: bit by bit, and read back (R5). -/

namespace Sys2Proof.Machine

theorem testBit_bits (w hi lo i : Nat) : (bits w hi lo).testBit i = (decide (i < hi + 1 - lo) && w.testBit (lo + i)) := by
  rw [bits, Nat.testBit_mod_two_pow, Nat.testBit_shiftRight]

/-- A bit of a word with a field replaced: the field's inside it, the word's outside. -/
theorem testBit_setBits {w hi lo v i : Nat} (h : lo ≤ hi) :
    (setBits w hi lo v).testBit i = if lo ≤ i ∧ i ≤ hi then v.testBit (i - lo) else w.testBit i := by
  have hin : 2 ^ lo * (v % 2 ^ (hi + 1 - lo)) + w % 2 ^ lo < 2 ^ (hi + 1) := by
    have h1 : w % 2 ^ lo < 2 ^ lo := Nat.mod_lt _ (Nat.two_pow_pos _)
    have h2 : v % 2 ^ (hi + 1 - lo) + 1 ≤ 2 ^ (hi + 1 - lo) := Nat.mod_lt _ (Nat.two_pow_pos _)
    calc 2 ^ lo * (v % 2 ^ (hi + 1 - lo)) + w % 2 ^ lo
        < 2 ^ lo * (v % 2 ^ (hi + 1 - lo) + 1) := by rw [Nat.mul_succ]; omega
      _ ≤ 2 ^ lo * 2 ^ (hi + 1 - lo) := Nat.mul_le_mul_left _ h2
      _ = 2 ^ (hi + 1) := by rw [← pow_add]; congr 1; omega
  have hw : setBits w hi lo v = 2 ^ (hi + 1) * (w / 2 ^ (hi + 1)) + (2 ^ lo * (v % 2 ^ (hi + 1 - lo)) + w % 2 ^ lo) := by
    rw [setBits]
    omega
  rw [hw, Nat.testBit_two_pow_mul_add _ hin, Nat.testBit_two_pow_mul_add _ (Nat.mod_lt _ (Nat.two_pow_pos _))]
  by_cases hhi : i ≤ hi
  · rw [if_pos (by omega)]
    by_cases hlo : lo ≤ i
    · rw [if_neg (by omega), if_pos ⟨hlo, hhi⟩, Nat.testBit_mod_two_pow, decide_eq_true (by omega), Bool.true_and]
    · rw [if_pos (by omega), if_neg (by omega), Nat.testBit_mod_two_pow, decide_eq_true (by omega), Bool.true_and]
  · rw [if_neg (by omega), if_neg (by omega), ← Nat.shiftRight_eq_div_pow, Nat.testBit_shiftRight]
    congr 1
    omega

/-- The field replaced reads back. -/
theorem bits_setBits_same {w hi lo v : Nat} (h : lo ≤ hi) : bits (setBits w hi lo v) hi lo = v % 2 ^ (hi + 1 - lo) := by
  refine Nat.eq_of_testBit_eq fun i => ?_
  rw [testBit_bits, testBit_setBits h, Nat.testBit_mod_two_pow]
  by_cases hi' : i < hi + 1 - lo
  · rw [if_pos (by omega), Nat.add_sub_cancel_left]
  · simp [hi']

/-- A field apart from the one replaced reads as before. -/
theorem bits_setBits_apart {w hi lo v hi' lo' : Nat} (h : lo ≤ hi) (hapart : hi' < lo ∨ hi < lo') :
    bits (setBits w hi lo v) hi' lo' = bits w hi' lo' := by
  refine Nat.eq_of_testBit_eq fun i => ?_
  rw [testBit_bits, testBit_bits, testBit_setBits h]
  by_cases hi' : i < hi' + 1 - lo'
  · rw [if_neg (by omega)]
  · simp [hi']

end Sys2Proof.Machine
end

section
/-! SUPPORT. The timebase taken to a value, instants, and time over Brim links (R459 to R464, R475, R476). -/

namespace Sys2Proof.Machine

/-! ### The timebase (R459, R462, R464) -/

/-- PPS_OUT's edge changes its level, the seconds that have fired and Visor's counters alone. -/
theorem State.ppsEdge_frame (s : State) (old : Nat) : ∃ p l v, s.ppsEdge old =
    { s with time := { s.time with ppsHigh := p, ppsFired := l }, visor := v } := by
  unfold State.ppsEdge
  simp only []
  split
  · exact ⟨_, _, _, rfl⟩
  · split
    · exact ⟨_, _, _, State.visorCount_eq _ _ _ _ _ _⟩
    · exact ⟨_, _, _, rfl⟩

/-- The timebase taken to a value in its range: the value stands, and PPS_OUT and Visor's counters alone may change beside it. -/
theorem State.setNow_frame (s : State) {n : Nat} (h : n < 2 ^ 48 * secUnits) : ∃ p l v, s.setNow n =
    { s with time := { s.time with now := n, ppsHigh := p, ppsFired := l }, visor := v } := by
  unfold State.setNow
  rw [Nat.mod_eq_of_lt h]
  exact State.ppsEdge_frame _ _

/-- TB_ADJUST_APPLY while the clocks run: the oldest adjustment alone (R462). -/
theorem exec_tbAdjustApply {s : State} (hrun : s.power.stopped = false) {a : TbAdj} {rest : List TbAdj}
    (hpend : s.time.pend = a :: rest) :
    let s1 := { s with time := { s.time with pend := rest } }
    exec .tbAdjustApply s = .next (match a with
      | .inc v => ({ s1 with time := { s1.time with inc := v } }).setNow (s.time.now + v)
      | .step d => s1.setNow ((s.time.now : Int) + s.time.inc + d * 2 ^ 16).toNat
      | .set t => s1.setNow (ofTime96 t)) := by
  refine congrArg _ ((if_neg (by simp [hrun])).trans ?_)
  simp only [hpend]
  cases a <;> rfl

/-- A TIME96 value has no fraction below SUBNS. -/
theorem ofTime96_mod (t : Nat) : ofTime96 t % 2 ^ 16 = 0 := by
  simp only [ofTime96, secUnits]
  omega

end Sys2Proof.Machine

namespace Sys2Proof.Claims
open Machine

/-- R459, R462: a tick, and a tick that applies a step, a set or an increment. -/
theorem claimTimebaseTicksAndAdjustments_holds : claimTimebaseTicksAndAdjustments := by
  intro s hrun _
  refine ⟨fun hlt => ?tick, fun d rest hpend hpos hlt => ?step, fun v rest hpend hlt => ?set, fun v rest hpend hlt => ?inc⟩
  case tick =>
    obtain ⟨p, l, v, h⟩ := s.setNow_frame hlt
    have hexec : exec .timebaseTick s = .next (s.setNow (s.time.now + s.time.inc)) :=
      congrArg Host.Outcome.next (if_neg (by simp [hrun]))
    rw [h] at hexec
    exact ⟨_, hexec, rfl, rfl, rfl, rfl, rfl, rfl, rfl⟩
  case step =>
    have hnow := Int.toNat_of_nonneg hpos
    obtain ⟨p, l, v, h⟩ := State.setNow_frame { s with time := { s.time with pend := rest } }
      (n := ((s.time.now : Int) + s.time.inc + d * 2 ^ 16).toNat) (by omega)
    exact ⟨_, (exec_tbAdjustApply hrun hpend).trans (congrArg _ h), hnow, rfl, rfl⟩
  case set =>
    obtain ⟨p, l, v, h⟩ := State.setNow_frame { s with time := { s.time with pend := rest } } hlt
    exact ⟨_, (exec_tbAdjustApply hrun hpend).trans (congrArg _ h), rfl, ofTime96_mod _, rfl, rfl⟩
  case inc =>
    obtain ⟨p, l, v, h⟩ := State.setNow_frame { s with time := { s.time with pend := rest, inc := v } } hlt
    exact ⟨_, (exec_tbAdjustApply hrun hpend).trans (congrArg _ h), rfl, rfl, rfl⟩

/-- R464: an instant fires or is skipped once; its record makes every later step of it idle. -/
theorem claimNoInstantFiresTwice_holds : claimNoInstantFiresTwice := by
  intro i s hnow hfired
  have hexec : exec (.scheduledInstant i) s = .next (if i + 1000 * 2 ^ 32 < s.time.now then
      ({ s with time := { s.time with fired := i :: s.time.fired } }).countDev 0x003
      else { s with time := { s.time with fired := i :: s.time.fired } }) :=
    congrArg _ (if_neg (by simpa [hfired] using hnow))
  have hagain (u : State) (hu : u.time.fired = i :: s.time.fired) : exec (.scheduledInstant i) u = .next u :=
    congrArg _ (if_pos (.inr (by simp [hu])))
  by_cases hlate : i + 1000 * 2 ^ 32 < s.time.now
  · rw [if_pos hlate] at hexec
    have htime (t : State) : (t.countDev 0x003).time = t.time := State.visorCount_time ..
    refine ⟨_, hexec, ?_, ?_, fun h => absurd hlate (not_lt.2 h), fun _ => rfl, fun u hu => hagain u ?_⟩
    · simp [htime]
    · simp [htime]
    · simpa [htime] using hu
  · rw [if_neg hlate] at hexec
    exact ⟨_, hexec, List.mem_cons_self .., rfl, fun _ => rfl, fun h => absurd h hlate, hagain⟩

/-- Settles O38: ticks and adjustments by `State.setNow_frame`, instants by the record of those that fired. -/
theorem timebaseAndInstants : Obligations.TimebaseAndInstants :=
  ⟨claimTimebaseTicksAndAdjustments_holds, claimNoInstantFiresTwice_holds⟩

/-! ### References, pins and port links (R465, R470, R474) -/

/-- Both latencies preloaded into an entry whose override bits are clear read back (R470). -/
theorem bits_preloaded (w : Nat) {i e : Nat} (hi : i < 2 ^ 28) (he : e < 2 ^ 28) :
    bits (setBits (setBits w 27 0 i) 55 28 e) 27 0 = i ∧ bits (setBits (setBits w 27 0 i) 55 28 e) 55 28 = e := by
  rw [bits_setBits_apart (by decide) (.inl (by decide)), bits_setBits_same (by decide), bits_setBits_same (by decide)]
  exact ⟨Nat.mod_eq_of_lt hi, Nat.mod_eq_of_lt he⟩

/-- PORT_LINK_UP at a listed speed, no latency overridden: both are preloaded (R470). -/
theorem exec_portLinkUp_preloads {q : PortId} {speed i e : Nat} {by_ : Bool} {s : State} (hlat : portLatency speed by_ = some (i, e))
    (h56 : bit (s.od 0x6110 (q.val + 1)) 56 = false) (h57 : bit (s.od 0x6110 (q.val + 1)) 57 = false) :
    exec (.portLinkUp q speed by_) s = .next (({ s with time := { s.time with portUp := s.time.portUp.set q.val true } }).setOd
      0x6110 (q.val + 1) (setBits (setBits (s.od 0x6110 (q.val + 1)) 27 0 (latencyUnits i)) 55 28 (latencyUnits e))) := by
  have hexec : exec (.portLinkUp q speed by_) s = execPortLinkUp q speed by_ s := rfl
  simp only [hexec, execPortLinkUp, hlat, h56, h57, Bool.false_eq_true, if_false]

/-- The latency entry of a port that has come up reads what was stored in it (R470). -/
theorem latEntry_portUp_setOd {s : State} (hwf : swf s.dict odDef) {q v : Nat} (hq : q < s.time.portUp.length) :
    (({ s with time := { s.time with portUp := s.time.portUp.set q true } }).setOd 0x6110 (q + 1) v).latEntry q = v := by
  rw [State.latEntry, if_pos (by simp [List.getD, hq])]
  exact State.od_setOd_same (s := { s with time := { s.time with portUp := s.time.portUp.set q true } }) hwf _ _ _

/-- Settles O39: each row by its condition; the latency entry by the port's link and the fields preloaded. -/
theorem referencesPinsAndPorts : Obligations.ReferencesPinsAndPorts := by
  intro s
  refine ⟨fun h => congrArg _ (if_neg (by simp [h])), fun h => congrArg Host.Outcome.next (if_pos h),
    fun h => congrArg _ (if_pos h), fun h => congrArg Host.Outcome.next (if_neg (by simp [h])),
    fun ms h => congrArg _ (if_neg (not_lt.2 h)), fun ms h => congrArg _ (if_pos h), rfl, fun q hlen => ?down,
    fun q i e hwf hlen hlat h56 h57 => ?up, fun q speed by_ hnone => ?unknown⟩
  case down =>
    refine ⟨_, rfl, ?_, rfl⟩
    simp [State.latEntry, List.getD, hlen, q.isLt]
  case up =>
    have hfit : latencyUnits i < 2 ^ 28 ∧ latencyUnits e < 2 ^ 28 := by
      obtain ⟨rfl, rfl⟩ : 744 = i ∧ 329 = e := by simpa [portLatency] using hlat
      decide
    have hexec := exec_portLinkUp_preloads hlat h56 h57
    have hread (v : Nat) := latEntry_portUp_setOd hwf (v := v) (hlen.symm ▸ q.isLt : q.val < _)
    refine ⟨_, hexec, ?_, ?_, rfl, rfl⟩ <;> rw [hread]
    · exact (bits_preloaded _ hfit.1 hfit.2).1
    · exact (bits_preloaded _ hfit.1 hfit.2).2
  case unknown =>
    have hexec : exec (.portLinkUp q speed by_) s = execPortLinkUp q speed by_ s := rfl
    rw [hexec, execPortLinkUp, hnone]

/-! ### Time over Brim links (R475, R476) -/

/-- Settles O41: each message by its kind and its sequence number; half of a number is rounded up where it is odd. -/
theorem brimTimeExchange : Obligations.BrimTimeExchange := by
  intro l payload s hup w up down
  have hhalf (n : Int) : 2 * roundDiv n 2 = n ∨ 2 * roundDiv n 2 = n + 1 := by
    simp only [roundDiv]
    omega
  refine ⟨fun hkind => ?request, fun hkind hrep hseq => ?response, fun hkind hrep => ?discarded, fun hkind hindex => ?start⟩
  case request =>
    exact ⟨s.takeFree.1 % (1000 * 2 ^ 32 + 1), _, Nat.le_of_lt_succ (Nat.mod_lt _ (Nat.succ_pos _)),
      congrArg Host.Outcome.next (if_neg (by simp [hup, show bits payload.toNat 79 76 = 0 from hkind])), rfl⟩
  case response =>
    have hexec : exec (.timeResponse l payload) s = execTimeResponse l payload s := rfl
    simp only [execTimeResponse] at hexec
    rw [if_neg (by simp [hup, show bits payload.toNat 79 76 = 1 from hkind, show bit payload.toNat 75 = false from hrep,
      show bits payload.toNat 95 80 = s.fab.timeSeq from hseq])] at hexec
    refine ⟨_, hexec, ?_⟩
    split <;> exact ⟨hhalf _, hhalf _, rfl, rfl, rfl, rfl⟩
  case discarded => exact congrArg _ (if_pos (.inr (.inr (.inl hrep))))
  case start =>
    have hlink : (s.fab.links.toList.getD s.srcIndex LinkSt.reset).up = true := by
      rw [hindex]
      simpa [State.link] using hup
    rw [← hindex]
    exact congrArg Host.Outcome.next (if_neg (not_or.2 ⟨not_not.2 hkind, not_not.2 hlink⟩))

end Sys2Proof.Claims
end

section
/-! SUPPORT. The dictionary's stored values, notices and their channels, and persisted copies (R479, R485, R495 to R498, R537). -/

namespace Sys2Proof.Machine

/-- Emissions one after another append to the outputs and change nothing else. -/
theorem foldl_emit {ι : Type} (f : ι → Emission) (l : List ι) (s : State) :
    l.foldl (fun st x => st.emit (f x)) s = { s with out := s.out ++ l.map f } := by
  induction l generalizing s with
  | nil => simp
  | cons x l ih =>
    rw [List.foldl_cons, ih, List.map_cons]
    simp [State.emit]

/-- The journal appended: every record not yet in flash stands behind those in it (R537). -/
theorem State.appendJournal_eq (s : State) : s.appendJournal = { s with
    host := { s.host with journal := s.host.journal ++ s.host.journalNew, journalNew := [] }
    out := s.out ++ s.host.journalNew.map (fun r => .flash 0x10000000 r) } := by
  rw [State.appendJournal, foldl_emit]

/-- A write to a cell's entry acknowledged: an enabled cell that does not run begins to count (R363). -/
theorem State.cellAcked_cell (s : State) (c : CellId) : s.cellAcked 0x5000 (c.val + 1) =
    if bit (s.cellCfg c) 0 ∧ (s.cell c).running = false then s.setCell c { s.cell c with enabledAt := some s.time.now } else s := by
  rw [State.cellAcked, dif_pos ⟨rfl, by omega⟩]
  simp

end Sys2Proof.Machine

namespace Sys2Proof.Claims
open Machine

/-- Settles O44: an entry's value is stored under its key, which no other index and sub-index share. -/
theorem entryReadsBackWrite : Obligations.EntryReadsBackWrite := by
  intro s index sub v i j hwf hsub hj
  refine ⟨State.od_setOd_same hwf index sub v, fun hne => State.od_setOd_other s (fun hkey => hne ?_) v, rfl⟩
  obtain ⟨rfl, rfl⟩ := odKey_inj hj hsub hkey
  rfl

/-! ### Notices (R495, R497, R498, R569) -/

/-- Settles O47: each channel by `Channel.offer`, the rest by the frame of a notice. -/
theorem noticeReachesItsChannels : Obligations.NoticeReachesItsChannels := by
  intro n s t
  have hchan (ch : Fin 19) := s.raiseAt_chan s.stamp n ch
  have hmeant {ch : Fin 19} (h : s.meantFor n ch.val = true) : t.host.chans[ch.val] = s.host.chans[ch.val].offer s.stamp n :=
    (hchan ch).trans (if_pos h)
  refine ⟨fun ch h hroom => ?room, fun ch h => ?seq, fun ch h hfull => ?full, fun ch h => ?other, rfl,
    ⟨_, s.raiseAt_host_journalNew s.stamp n⟩, ?alert, ?frame⟩
  case room => rw [hmeant h, Channel.offer, if_neg (not_le.2 hroom)]
  case seq =>
    rw [hmeant h, Channel.offer]
    split <;> rfl
  case full =>
    rw [hmeant h, Channel.offer, if_pos hfull]
    exact ⟨rfl, rfl⟩
  case other => exact (hchan ch).trans (if_neg (by simp [h]))
  case alert =>
    rw [show t.power.alertLow = _ from s.raiseAt_power_alertLow s.stamp n]
    simp
  case frame =>
    have h : t = _ := s.raiseAt_eq s.stamp n
    rw [h]

/-! ### Persisted copies, notices sent and the journal (R363, R485, R496, R537) -/

/-- Settles O46: the oldest persisted write, the oldest notice of a channel and the journal's new records move on. -/
theorem persistNoticeJournal : Obligations.PersistNoticeJournal := by
  intro s
  refine ⟨fun x rest hp => ⟨_, rfl, ?persist⟩, fun c u => u.cellAcked_cell c, fun ch n rest s1 hq hsent => ?send,
    ⟨_, rfl, ?journal⟩⟩
  case persist =>
    have hexec : exec .persistComplete s = execPersistComplete s := rfl
    rw [hexec, execPersistComplete, hp]
  case send =>
    have hexec : exec (.noticeSend ch) s = execNoticeSend ch s := rfl
    rw [hexec]
    simp only [execNoticeSend, hq, hsent]
  case journal =>
    rw [s.appendJournal_eq]
    exact ⟨rfl, rfl, rfl, rfl, rfl, rfl⟩

end Sys2Proof.Claims
end

section
/-! SUPPORT. Writes of the dictionary and the rows that name one entry (R483 to R485). -/

namespace Sys2Proof.Claims
open Machine

variable {s : State} {by_ : Requester} {to_ : ReplyTo} {index sub len v : Nat} {e : EntryInfo}

/-! ### A write served (R485) -/

theorem odWrite_refused (h : s.odWriteErr by_ index sub len v ≠ odOk) :
    s.odWrite by_ to_ index sub len v = s.reply to_ index sub (s.odWriteErr by_ index sub len v) 0 0 := if_pos h

theorem odWrite_persisted (h : s.odWriteErr by_ index sub len v = odOk) (he : entryOf index sub = some e) (hacc : e.acc = .rwp) :
    let t := s.odApply index sub v
    s.odWrite by_ to_ index sub len v = { t with
      host := { t.host with persists := t.host.persists ++ [⟨to_, index, sub, s.od index sub, v⟩] } } :=
  (if_neg (not_not.2 h)).trans (if_pos (by simp [he, hacc]))

theorem odWrite_unpersisted (h : s.odWriteErr by_ index sub len v = odOk) (he : entryOf index sub = some e)
    (hacc : e.acc ≠ .rwp) : s.odWrite by_ to_ index sub len v = (s.odApply index sub v).reply to_ index sub odOk 0 0 :=
  (if_neg (not_not.2 h)).trans (if_neg (by simp [he, hacc]))

/-- R483 to R485: a write that is refused, one that waits for its persisted copy, and one that is acknowledged at once. -/
theorem claimDictionaryWriteServed_holds : claimDictionaryWriteServed := by
  intro by_ index sub len v s hserves t err
  have hexec : exec (.dictionaryWrite by_ index sub len v) s = .next (s.odWrite by_ (.direct by_) index sub len v) :=
    congrArg Host.Outcome.next (access_of_serves (a := .write by_ (.direct by_) index sub len v) hserves)
  exact ⟨fun h => hexec.trans (congrArg _ (odWrite_refused h)),
    fun e h he hacc => hexec.trans (congrArg _ (odWrite_persisted h he hacc)),
    fun e h he hacc => hexec.trans (congrArg _ (odWrite_unpersisted h he hacc))⟩

/-- A row that is a write of one entry, at the entry's length. -/
theorem writesEntry_of_write {c : Instr} (h : ∀ s, exec c s = .next (s.write by_ index sub v)) :
    writesEntry c by_ index sub v := by
  intro s e he hserves w t err
  have hexec : exec c s = exec (.dictionaryWrite by_ index sub e.ty.bytes w) s := by
    rw [h]
    simp only [State.write, he]
    rfl
  obtain ⟨hrefused, hpersisted, hplain⟩ := claimDictionaryWriteServed_holds by_ index sub e.ty.bytes w s hserves
  exact ⟨fun herr => hexec.trans (hrefused herr), fun herr hacc => hexec.trans (hpersisted e herr he hacc),
    fun herr hacc => hexec.trans (hplain e herr he hacc)⟩

/-- R484: each row that names an entry is the write of that entry. -/
theorem claimNamedWritesAreEntryWrites_holds : claimNamedWritesAreEntryWrites := by
  intro by_ v k g c l tu q entry pb index sub
  refine ⟨fun i unit => ?_, ?_, ?_, ?_, ?_, ?_, ?_, fun hindex => ?farReach, ?_, ?_, ?_, ?_, ?_, ?_, ?_, ?_, ?_, ?_,
    fun hvisor hcounter => ?count, fun hvisor hselect => ?select, ?_, ?_, ?_, ?_, ?_, ?_, ?_⟩
  case farReach => exact writesEntry_of_write fun s => congrArg Host.Outcome.next (if_pos hindex)
  case count => exact writesEntry_of_write fun s => congrArg Host.Outcome.next (if_pos ⟨hvisor, hcounter⟩)
  case select => exact writesEntry_of_write fun s => congrArg Host.Outcome.next (if_pos ⟨hvisor, by simp [hselect]⟩)
  all_goals exact writesEntry_of_write fun s => rfl

/-- Settles O42: DICTIONARY_WRITE by its error code and its entry's access, and the rows that are such a write. -/
theorem dictionaryWrites : Obligations.DictionaryWrites :=
  ⟨claimDictionaryWriteServed_holds, claimNamedWritesAreEntryWrites_holds⟩

end Sys2Proof.Claims
end

section
/-! SUPPORT. Mailboxes and access frames (R487 to R492). -/

namespace Sys2Proof.Machine

/-- A value that is not the default reads back, whatever the order of the map's keys. -/
theorem sget_sput_of_ne {α : Type} [DecidableEq α] {m : SMap α} {d : Nat → α} {k : Nat} {v : α} (hv : v ≠ d k) :
    sget (sput m d k v) d k = v := by
  induction m with
  | nil => simp [sput, hv, sget]
  | cons x t ih =>
    obtain ⟨k', v'⟩ := x
    simp only [sput, if_neg hv]
    split
    · simp [sget]
    · split
      · simp [sget]
      · next hne => simp [sget, Ne.symm hne, ih]

/-- A mailbox that is done reads back. -/
theorem State.mailbox_setMailbox (s : State) (f : FuncId) {m : Mailbox} (h : m.done = true) :
    (s.setMailbox (some f) m).mailbox (some f) = m :=
  sget_sput_of_ne fun hm => by simp [hm, Mailbox.reset] at h

/-- An answer to a frame of command `cmd`. -/
theorem State.answer_eq (s : State) (p : Path) (req : Nat) (f : AccFrame) (err : Nat) : s.answer p req f err =
    s.emit (.accFrame (outPath p) req ⟨f.cmd % 128 + 128, err, f.index, f.sub, 0, 0, 0⟩) := rfl

section
variable {s : State} {p : Path} {req : Nat} {f : AccFrame} {x : Xfer}

/-- With a transfer open, a request that is none of its frames is answered BUSY (R489). -/
theorem State.frameAccess_busy (hx : s.xferOf p = some x) (habort : f.cmd ≠ 6) (hseg : f.cmd ≠ 4) (hnext : f.cmd ≠ 5) :
    s.frameAccess p req f = s.answer p req f odBusy := by
  simp [State.frameAccess, hx, habort, hseg, hnext]

theorem State.frameAccess_none (hx : s.xferOf p = none) : s.frameAccess p req f = s.openFrame p req f := by
  simp only [State.frameAccess, hx]

/-- A read without an open transfer (R488, R489). -/
theorem State.openFrame_read (h : f.cmd = 1) : s.openFrame p req f =
    let r := s.odRead (pathRequester p) f.index f.sub
    if r.1 ≠ odOk then s.answer p req f r.1
    else if r.2.1 ≤ maxValue p then s.reply (.frame p 1 req) f.index f.sub odOk r.2.1 r.2.2
    else (s.setXfer p (some ⟨p, req, false, f.index, f.sub, r.2.1, 0, r.2.2⟩)).emit
      (.accFrame (outPath p) req ⟨0x81, odOk, f.index, f.sub, r.2.1, 0, 0⟩) := by
  simp only [State.openFrame, h]

/-- A write of one frame without an open transfer (R488). -/
theorem State.openFrame_write (h : f.cmd = 2) : s.openFrame p req f =
    if maxValue p < f.len then s.answer p req f odLength
    else if f.dlen < f.len then s.answer p req f odProtocol
    else s.odWrite (pathRequester p) (.frame p 2 req) f.index f.sub f.len (f.data % 256 ^ f.len) := by
  simp only [State.openFrame, h]

/-- WRITE_START without an open transfer (R489). -/
theorem State.openFrame_start (h : f.cmd = 3) : s.openFrame p req f =
    if f.len = 0 ∨ 4096 < f.len then s.answer p req f odLength
    else (s.setXfer p (some ⟨p, req, true, f.index, f.sub, f.len, 0, 0⟩)).answer p req f odOk := by
  simp only [State.openFrame, h]

end

end Sys2Proof.Machine

namespace Sys2Proof.Claims
open Machine

/-! ### Mailboxes (R492) -/

/-- R492: a mailbox command with GO, ignored while BUSY, else performed; its answer frees the mailbox. -/
theorem claimMailboxAccess_holds : claimMailboxAccess := by
  intro f cmd data s hpcie hgo by_ m i j
  refine ⟨fun hbusy => ⟨?_, ?_⟩, fun hidle hserves hread => ?read, fun hidle hserves hwrite => ?write, fun x err len v hbusy => ?done⟩
  · exact congrArg Host.Outcome.next (if_pos (.inl hbusy))
  · exact congrArg Host.Outcome.next (if_pos (.inl hbusy))
  case read =>
    intro s1
    have hgo : exec (.odRead (some f) cmd) s = .next (s1.access (.mail (some f) cmd m.data)) :=
      congrArg Host.Outcome.next (if_neg (by simp [show (s.mailbox (some f)).busy = false from hidle, hpcie, hgo, hread]))
    rw [hgo, access_of_serves (s := s1) (a := .mail (some f) cmd m.data) hserves, State.perform, State.mailAccess, if_neg (by simp [hread])]
  case write =>
    intro s1
    have hgo : exec (.odWrite (some f) cmd data) s = .next (s1.access (.mail (some f) cmd (data % 256 ^ 4096))) :=
      congrArg Host.Outcome.next (if_neg (by simp [show (s.mailbox (some f)).busy = false from hidle, hpcie, hgo, hwrite]))
    rw [hgo, access_of_serves (s := s1) (a := .mail (some f) cmd (data % 256 ^ 4096)) hserves, State.perform, State.mailAccess, if_pos hwrite]
  case done =>
    intro r
    have hr : r = { x.mailbox (some f) with
        busy := false, done := true, err := err, rlen := len
        data := if len = 0 then (x.mailbox (some f)).data else setBits (x.mailbox (some f)).data (8 * len - 1) 0 v } := by
      simp only [r, State.reply, hbusy, if_true]
      exact State.mailbox_setMailbox _ _ rfl
    rw [hr]
    exact ⟨rfl, rfl, rfl, rfl⟩

/-! ### Access frames (R487 to R491) -/

/-- A frame heard from a requester that is served is performed, in the row of its command. -/
theorem frameRow_of_serves {s : State} {p : Path} {f : AccFrame} {cmd : Nat} (hcmd : f.cmd = cmd) (hears : s.hears p = true)
    (hserves : serves s (pathRequester p)) : s.frameRow cmd p f = s.frameAccess p 0 f :=
  (if_pos ⟨hcmd, hears⟩).trans (access_of_serves (a := .frame p 0 f) hserves)

/-- R488, R489, R491: frames without an open transfer. -/
theorem claimAccessFramesWithoutTransfer_holds : claimAccessFramesWithoutTransfer := by
  intro p f s
  refine ⟨fun hdeaf => ?deaf, ?head, fun hears hserves hx => ?heard⟩
  case deaf =>
    have hrow (cmd : Nat) : s.frameRow cmd p f = s := if_neg (by simp [hdeaf])
    refine ⟨?_, ?_, ?_, ?_, ?_, ?_⟩ <;> exact congrArg Host.Outcome.next (hrow _)
  case head => cases p <;> simp [State.hears]
  case heard =>
    intro r
    have hopen {cmd : Nat} (hcmd : f.cmd = cmd) : s.frameRow cmd p f = s.openFrame p 0 f :=
      (frameRow_of_serves hcmd hears hserves).trans (State.frameAccess_none hx)
    refine ⟨fun hcmd hok hlen => ?expedited, fun hcmd hok hlen => ?segmented, fun hcmd herr => ?readError,
      fun hcmd hlen hdlen => ?write, fun hcmd hpos hlen => ?start, fun hcmd => ?segment, fun hcmd => ?next, fun hcmd => ?abort⟩
    all_goals refine congrArg Host.Outcome.next ((hopen hcmd).trans ?_)
    case expedited => rw [State.openFrame_read hcmd, if_neg (not_not.2 hok), if_pos hlen]; rfl
    case segmented => rw [State.openFrame_read hcmd, if_neg (not_not.2 hok), if_neg (not_le.2 hlen)]
    case readError => rw [State.openFrame_read hcmd, if_pos herr, State.answer_eq, hcmd]
    case write => rw [State.openFrame_write hcmd, if_neg (not_lt.2 hlen), if_neg (not_lt.2 hdlen)]
    case start =>
      rw [State.openFrame_start hcmd, if_neg (not_or.2 ⟨Nat.pos_iff_ne_zero.1 hpos, not_lt.2 hlen⟩), State.answer_eq, hcmd]
    all_goals simp only [State.openFrame, hcmd, State.answer_eq]

/-- R489 to R491: frames with an open transfer, and in-band datagrams. -/
theorem claimAccessFramesInTransfer_holds : claimAccessFramesInTransfer := by
  refine ⟨fun p f x s hx => ⟨?timeout, fun hears hserves => ?transfer⟩, fun d s => ⟨fun hok hver hkind hserves => ?datagram,
    fun hbad => ?dropped⟩⟩
  case timeout =>
    have hexec : exec (.transferTimeout p) s = execTransferTimeout p s := rfl
    rw [hexec, execTransferTimeout, hx]
  case transfer =>
    have hbusy {cmd : Nat} (hcmd : f.cmd = cmd) (hother : cmd ≠ 6 ∧ cmd ≠ 4 ∧ cmd ≠ 5) : s.frameRow cmd p f =
        s.emit (.accFrame (outPath p) 0 ⟨cmd % 128 + 128, odBusy, f.index, f.sub, 0, 0, 0⟩) := by
      subst hcmd
      rw [frameRow_of_serves rfl hears hserves, State.frameAccess_busy hx hother.1 hother.2.1 hother.2.2, State.answer_eq]
    refine ⟨fun hcmd => ?abort, fun hcmd hwrite => ?segment, fun hcmd hread => ?next, fun hcmd => ?_, fun hcmd => ?_, fun hcmd => ?_⟩
    case abort | segment | next =>
      refine congrArg Host.Outcome.next ((frameRow_of_serves hcmd hears hserves).trans ?_)
      simp [State.frameAccess, *]
    all_goals exact congrArg Host.Outcome.next (hbusy hcmd (by decide))
  case datagram =>
    refine congrArg Host.Outcome.next ((if_neg (by simp [hok, hver, hkind])).trans ?_)
    exact access_of_serves (a := .frame (.inband d.srcIp) d.reqId d.frame) hserves
  case dropped => exact congrArg Host.Outcome.next (if_pos (hbad.imp_left (by simp [·])))

/-- Settles O45: mailboxes and frames by the access that each of them is. -/
theorem mailboxAndAccessFrames : Obligations.MailboxAndAccessFrames :=
  ⟨claimMailboxAccess_holds, claimAccessFramesWithoutTransfer_holds, claimAccessFramesInTransfer_holds⟩

end Sys2Proof.Claims
end

section
/-! SUPPORT. JOB_CTL, descriptors and resets of functions (R500 to R508). -/

namespace Sys2Proof.Machine

theorem State.jobCtl_of_takes {s : State} {f v op : Nat} {ok : Job → Bool} {k : Job → State} {j : Job}
    (hop : bits v 3 0 = op) (hj : s.jobOf (bits v 63 32) = some j) (hf : qsetFunc j.qset = f) (hok : ok j = true) :
    s.jobCtl f v op ok k = k j := by
  simp [State.jobCtl, hop, hj, hf, hok]

theorem State.jobCtl_of_unfit {s : State} {f v op : Nat} {ok : Job → Bool} {k : Job → State} {j : Job}
    (hop : bits v 3 0 = op) (hj : s.jobOf (bits v 63 32) = some j) (hok : ok j = false) :
    s.jobCtl f v op ok k = s.refuseCtl f (bits v 63 32) := by
  simp [State.jobCtl, hop, hj, hok]

theorem State.jobCtl_of_none {s : State} {f v op : Nat} {ok : Job → Bool} {k : Job → State}
    (hop : bits v 3 0 = op) (hj : s.jobOf (bits v 63 32) = none) :
    s.jobCtl f v op ok k = s.refuseCtl f (bits v 63 32) := by
  simp [State.jobCtl, hop, hj]

end Sys2Proof.Machine

namespace Sys2Proof.Claims
open Machine

theorem claimDescriptorsBecomeJobs_holds : claimDescriptorsBecomeJobs := by
  refine ⟨fun f set prod descs s hring henable hup => ?_, fun s q h d hok => ?_, fun s q h d hbad => if_pos hbad⟩
  · have htaken : ¬ (¬ hasRing f.val (0x2100 + 0x40 * set.val) = true ∨
        ¬ (s.ring f.val (0x2100 + 0x40 * set.val)).enable = true ∨ ¬ s.host.pcieUp = true) := by
      simp [hring, henable, hup]
    refine ⟨fun hindex => congrArg Host.Outcome.next ((if_neg htaken).trans (if_neg (not_not_intro hindex))),
      fun hindex => congrArg Host.Outcome.next ((if_neg htaken).trans (if_pos ?_))⟩
    simp [hindex]
  · have hsub : s.submit q h d = { s with jobs := s.jobs ++ [_] } := if_neg (not_not_intro hok)
    rw [hsub]
    exact ⟨rfl, rfl, rfl⟩

theorem claimJobControl_holds : claimJobControl := by
  intro f v s h
  refine ⟨fun j hj hf => ⟨fun hop hst => ?_, fun hop hst => ?_, fun hop hst => ?_, fun hop => ?_, fun hop hst => ?_,
    fun hop hst => ?_, fun hop hst => ?_⟩, fun hnone => ⟨fun hop => ?_, fun hop => ?_, fun hop => ?_, fun hop => ?_⟩⟩
  · exact congrArg Host.Outcome.next (State.jobCtl_of_takes hop hj hf (by simp [hst]))
  · exact congrArg Host.Outcome.next (State.jobCtl_of_takes hop hj hf (by simp [hst]))
  · exact congrArg Host.Outcome.next (State.jobCtl_of_takes hop hj hf (by simp [hst]))
  · exact congrArg Host.Outcome.next (State.jobCtl_of_takes hop hj hf rfl)
  · exact congrArg Host.Outcome.next (State.jobCtl_of_unfit hop hj (by simp [hst]))
  · exact congrArg Host.Outcome.next (State.jobCtl_of_unfit hop hj (by simp [hst]))
  · exact congrArg Host.Outcome.next (State.jobCtl_of_unfit hop hj (by simp [hst]))
  all_goals exact congrArg Host.Outcome.next (State.jobCtl_of_none hop hnone)

/-- A device whose suspended job of function 0 is a frame stream with one frame left to compare, the one that freezes it. -/
def beforeLastFrame : State :=
  { State.reset with
    jobs := [⟨0, 0, 0, 2 ^ 124, .suspended, 0, 1, [], [], 0, 0xFF, false, false, 0⟩]
    radio := { State.reset.radio with frames := [⟨0, [(0, 9, true)], some 9, 3, false⟩] } }

/-- PERST# drops the job, and the job's end compares its last frame: 0x5020.02 counts it frozen (R382). -/
theorem perst_counts_frozen :
    ∃ t, exec .perst beforeLastFrame = .next t ∧ t.od 0x5020 2 ≠ beforeLastFrame.od 0x5020 2 :=
  ⟨_, rfl, by decide +kernel⟩

end Sys2Proof.Claims

open Sys2Proof.Claims Sys2Proof.Machine

/-- Settles O48: a descriptor that nothing speaks against is a job appended, and each JOB_CTL operation is one use of `jobCtl`. -/
theorem jobsFromDescriptors : Obligations.JobsFromDescriptors :=
  ⟨claimDescriptorsBecomeJobs_holds, claimJobControl_holds⟩

/-- Refutes O49: PERST# does not leave the entries as they are. It ends the functions' jobs, and the end of a frame stream's job
compares its last frame, which may freeze the stream and count in 0x5020.02. -/
theorem not_ringsAndFunctions : ¬ Obligations.RingsAndFunctions := by
  rintro ⟨-, hresets⟩
  obtain ⟨-, -, ⟨t, hperst, -, -, -, -, -, -, hdict, -⟩, -⟩ := hresets beforeLastFrame
  obtain ⟨u, hperst', hcount⟩ := perst_counts_frozen
  obtain rfl : t = u := Host.Outcome.next.inj (hperst.symm.trans hperst')
  exact hcount (congrArg (fun m => sget m odDef (odKey 0x5020 2)) hdict)

end

section
/-! SUPPORT. The radio's slots, frames and stage windows (R361 to R379), branch by branch. -/

namespace Sys2Proof.Claims
open Machine

theorem cellStart_enabled (c : CellId) (s : State) (hon : bit (s.cellCfg c) 0 = true) (hidle : (s.cell c).running = false)
    (hmay : s.cellMayStart c = true) :
    (s.cellDue c = true → exec (.cellStart c) s = .next (s.setCell c { CellSt.reset with running := true })) ∧
    (s.cellDue c = false → exec (.cellStart c) s = .next s) :=
  ⟨fun hdue => congrArg Host.Outcome.next (if_pos ⟨hon, by simp [hidle], hmay, hdue⟩),
    fun hdue => congrArg Host.Outcome.next (if_neg (by simp [hdue]))⟩

theorem slot_fires_once (s : State) (hon : s.radioOn = true) :
    let b := s.slotNow s.muNow
    ((∀ l, s.radio.lastSlot = some l → l < b) → exec .slot s = .next ((([0, 1, 2] : List CellId).foldl
      (fun (st : State) c => st.openSlot b c) { s with radio := { s.radio with lastSlot := some b } }).raiseAll 0)) ∧
    (∀ l, s.radio.lastSlot = some l → b ≤ l → exec .slot s = .next s) ∧
    exec .symbol s = .next (s.raiseAll 1) := by
  refine ⟨fun hnew => congrArg Host.Outcome.next (if_pos ?_), fun l hl hle => congrArg Host.Outcome.next (if_neg ?_),
    congrArg Host.Outcome.next (if_pos hon)⟩
  · cases hlast : s.radio.lastSlot with
    | none => simp [hon]
    | some l => simpa [hon] using hnew l hlast
  · simpa [hon, hl] using hle

theorem uPlaneFrame_cases (f : UFrame) (s : State) :
    ((f.rev ≠ 1 ∨ f.msgType ≠ 0) → exec (.uPlaneFrame f) s = .next (s.countDev 0x020 (some 0))) ∧
    (f.rev = 1 → f.msgType = 0 →
      (s.mapEntry f.eaxc = none → exec (.uPlaneFrame f) s = .next (s.countDev 0x021 (some 0))) ∧
      (∀ d g, s.mapEntry f.eaxc = some (d, g) →
        (s.s1Over d f.frame f.slot = true → exec (.uPlaneFrame f) s = .next (s.countDev 0x024 (some 0))) ∧
        (s.s1Over d f.frame f.slot = false →
          let t := f.sections.foldl (fun (st : State) u => st.section g f u) s
          (f.last = false → exec (.uPlaneFrame f) s = .next t) ∧
          (∀ h : g < 32, f.last = true → exec (.uPlaneFrame f) s =
            .next ((t.compareDigest d f.eaxc f.symbol).sigRaise ⟨g, h⟩ 2))))) := by
  have hexec : exec (.uPlaneFrame f) s = execUPlaneFrame f s := rfl
  refine ⟨fun hbad => congrArg Host.Outcome.next (if_pos hbad), fun hrev htype => ?_⟩
  have hok : ¬ (f.rev ≠ 1 ∨ f.msgType ≠ 0) := by simp [hrev, htype]
  refine ⟨fun hmap => ?_, fun d g hmap => ⟨fun hover => ?_, fun hopen => ⟨fun hmore => ?_, fun hcore hlast => ?_⟩⟩⟩ <;>
    simp only [execUPlaneFrame, if_neg hok, hmap] at hexec
  · exact hexec
  · rwa [if_pos hover] at hexec
  · simpa [hopen, hmore] using hexec
  · simpa [hopen, hlast, hcore] using hexec

theorem cPlaneFrame_cases (f : CFrame) (s : State) :
    (f.rev = 1 → f.msgType = 2 → (f.sectionType = 1 ∨ f.sectionType = 3) → exec (.cPlaneFrame f) s =
      .next (s.emit (.cPlane f.eaxc (f.sectionType == 3 && decide (1 ≤ f.filterIndex ∧ f.filterIndex ≤ 6))))) ∧
    ((f.rev ≠ 1 ∨ f.msgType ≠ 2 ∨ (f.sectionType ≠ 1 ∧ f.sectionType ≠ 3)) →
      exec (.cPlaneFrame f) s = .next (s.countDev 0x020 (some 0))) :=
  ⟨fun hrev htype hsec => congrArg Host.Outcome.next (if_pos ⟨hrev, htype, hsec⟩),
    fun hbad => congrArg Host.Outcome.next (if_neg (by tauto))⟩

theorem windowTake_cases (c : CellId) (s : State) (k : Fin 6) (r : SlotRec) (hnext : s.nextTake c k.val = some r) :
    let n := doneSem c k.val
    let t := s.sinceT0 c r
    let lo := ((s.windowOf c k.val).1 : Int) * usUnits
    let hi := ((s.windowOf c k.val).2 : Int) * usUnits
    let s0 := if k.val = 0 then s.closeS1 c r.frame r.slot else s
    let s1 := (s0.setSem n (s.semCount n - 1)).modSlot c r (fun q => { q with took := q.took ++ [k.val] })
    let r1 := { r with took := r.took ++ [k.val] }
    (s.semCount n ≠ 0 → (s.cell c).owed.contains k.val = false →
      (lo ≤ t → t ≤ hi → exec (.windowTake c k) s = .next (s1.prune c)) ∧
      (t < lo → exec (.windowTake c k) s = .next (s1.declare c r1 k.val true)) ∧
      (lo ≤ t → hi < t →
        let u := ((s0.setSem n (s.semCount n - 1)).declare c r k.val false).countDev 0x025 (some 0)
        exec (.windowTake c k) s = .next (u.setCell c { u.cell c with owed := (u.cell c).owed.erase k.val }))) ∧
    (s.semCount n ≠ 0 → (s.cell c).owed.contains k.val = true →
      let u := (s.setSem n (s.semCount n - 1)).countDev 0x025 (some 0)
      exec (.windowTake c k) s = .next (u.setCell c { u.cell c with owed := (u.cell c).owed.erase k.val })) ∧
    (s.semCount n = 0 → exec (.windowTake c k) s = .next s) := by
  have hexec : exec (.windowTake c k) s = execWindowTake c k s := rfl
  refine ⟨fun hsem howed => ?_, fun hsem howed => ?_, fun hsem => congrArg Host.Outcome.next (if_pos hsem)⟩
  · have howed' : ¬ (s.cell c).owed.contains k.val = true := by rw [howed]; exact Bool.false_ne_true
    simp only [execWindowTake, if_neg hsem, if_neg howed', hnext] at hexec
    refine ⟨fun hlo hhi => ?_, fun hearly => ?_, fun hlo hlate => ?_⟩
    · exact hexec.trans (congrArg Host.Outcome.next ((if_neg hlo.not_gt).trans (if_pos hhi)))
    · exact hexec.trans (congrArg Host.Outcome.next (if_pos hearly))
    · exact hexec.trans (congrArg Host.Outcome.next ((if_neg hlo.not_gt).trans (if_neg hlate.not_ge)))
  · exact congrArg Host.Outcome.next ((if_neg hsem).trans (if_pos howed))

theorem window_warns (c : CellId) (s : State) (k : Fin 6) (r : SlotRec) (hnext : s.nextTake c k.val = some r)
    (hnew : r.warned.contains k.val = false)
    (hdue : (((s.windowOf c k.val).2 : Int) - s.od 0x5011 1) * usUnits ≤ s.sinceT0 c r) :
    exec (.window c k) s = .next ((s.modSlot c r (fun q => { q with warned := q.warned ++ [k.val] })).raiseAll 6) := by
  have hexec : exec (.window c k) s = execWindow c k s := rfl
  simp only [execWindow, hnext] at hexec
  exact hexec.trans (congrArg Host.Outcome.next (if_pos ⟨by simp only [hnew, Bool.false_eq_true, not_false_eq_true], hdue⟩))

theorem stageLate_cases (c : CellId) (s : State) (k : Fin 6) (r : SlotRec) (hnext : s.nextTake c k.val = some r) :
    (((s.windowOf c k.val).2 : Int) * usUnits ≤ s.sinceT0 c r →
      exec (.stageLate c k) s = .next (s.declare c r k.val false)) ∧
    (s.sinceT0 c r < ((s.windowOf c k.val).2 : Int) * usUnits → exec (.stageLate c k) s = .next s) := by
  have hexec : exec (.stageLate c k) s = execStageLate c k s := rfl
  simp only [execStageLate, hnext] at hexec
  exact ⟨fun hlate => hexec.trans (congrArg Host.Outcome.next (if_pos hlate)),
    fun hearly => hexec.trans (congrArg Host.Outcome.next (if_neg hearly.not_ge))⟩

theorem fbLatest_cases (c : CellId) (s : State) (f : Int) (j : Nat) (r : SlotRec)
    (hfall : (s.cell c).fallback = some (f, j))
    (hslot : (s.cell c).slots.find? (fun r => r.frame == f && r.slot == j && !r.reported) = some r) :
    (s.fbLatest c ≤ s.sinceT0 c r → exec (.fbLatest c) s = .next (s.failSlot c r 6)) ∧
    (s.sinceT0 c r < s.fbLatest c → exec (.fbLatest c) s = .next s) := by
  have hexec : exec (.fbLatest c) s = execFbLatest c s := rfl
  simp only [execFbLatest, hfall, hslot] at hexec
  exact ⟨fun hover => hexec.trans (congrArg Host.Outcome.next (if_pos hover)),
    fun hearly => hexec.trans (congrArg Host.Outcome.next (if_neg hearly.not_ge))⟩

end Sys2Proof.Claims

open Sys2Proof.Claims Sys2Proof.Machine

/-- Settles O27, one lemma for each command: each case of the statement is one branch of the command. -/
theorem radioSlotsAndWindows : Obligations.RadioSlotsAndWindows := by
  refine fun c s => ⟨cellStart_enabled c s, slot_fires_once s, fun f => uPlaneFrame_cases f s, fun f => cPlaneFrame_cases f s,
    fun k r hnext => ?_, fun f j r => fbLatest_cases c s f j r⟩
  obtain ⟨htake, howed, hnone⟩ := windowTake_cases c s k r hnext
  obtain ⟨hlate, hearly⟩ := stageLate_cases c s k r hnext
  exact ⟨htake, howed, hnone, window_warns c s k r hnext, hlate, hearly⟩

end

section
/-! SUPPORT. Writes of partitions, slot results, code blocks and the downlink (R371, R384 to R391). -/

namespace Sys2Proof.Machine

/-! ### What a partition's write changes -/

theorem State.placeCode_sem_part (s : State) (p addr len n : Nat) : s.placeCode (.part p) addr len .write (.sem n) ≠ 0 := by
  intro h
  have hcauses := leastCode_eq_zero (by simp) h
  simpa using hcauses (true, 3) (by simp)

theorem State.placeCode_window_part (s : State) (p addr len off : Nat) :
    s.placeCode (.part p) addr len .write (.window off) ≠ 0 := by
  intro h
  have hcauses := leastCode_eq_zero (by simp) h
  simpa using hcauses (true, 3) (by simp)

/-- A partition's access that is admitted stores bytes: semaphores and the window are not for it (R182, R259). -/
theorem State.store_of_part {s t : State} {p addr len n v : Nat} (h : s.accessCode (.part p) addr len .write = 0) :
    t.store addr n v = t.wr (addrBase addr) n v := by
  have hplace := State.placeCode_of_accessCode h
  unfold State.store
  split
  · next k hk => exact absurd (hk ▸ hplace) (s.placeCode_sem_part p addr len k)
  · next off hoff => exact absurd (hoff ▸ hplace) (s.placeCode_window_part p addr len off)
  · rfl

/-- From s to t memory was written, with its check bits, banks and counts; nothing else happened. -/
def State.WritesOnly (s t : State) : Prop :=
  ∃ m e w b v, t = { s with mem := m, ecc := e, writeBack := w, banks := b, visor := v }

theorem State.WritesOnly.refl (s : State) : s.WritesOnly s := ⟨_, _, _, _, _, rfl⟩

theorem State.WritesOnly.trans {s t u : State} (h : s.WritesOnly t) (g : t.WritesOnly u) : s.WritesOnly u := by
  obtain ⟨_, _, _, _, _, rfl⟩ := h
  obtain ⟨m, e, w, b, v, rfl⟩ := g
  exact ⟨m, e, w, b, v, rfl⟩

theorem State.WakesAndCounts.writesOnly {s t : State} (h : s.WakesAndCounts t) : s.WritesOnly t := by
  obtain ⟨b, w, v, rfl⟩ := h
  exact ⟨_, _, w, b, v, rfl⟩

theorem State.writesOnly_wr (s : State) (a n v : Nat) : s.WritesOnly (s.wr a n v) := ⟨_, _, _, _, _, s.wr_frame a n v⟩

theorem State.writesOnly_countDev (s : State) (event : Nat) (part : Option Nat) (k : Nat) :
    s.WritesOnly (s.countDev event part k) := ⟨_, _, _, _, _, s.visorCount_eq _ _ _ _ _⟩

theorem State.writesOnly_atomicAt (s : State) (mode a v : Nat) : s.WritesOnly (s.atomicAt mode a v).s := by
  have hread : s.WritesOnly (s.eccRead a 8) := (s.wakesAndCounts_eccRead a 8).writesOnly
  unfold State.atomicAt
  simp only []
  split
  · exact hread
  · exact hread.trans (State.writesOnly_wr _ _ _ _)

/-- A partition's write changes memory and what goes with it. -/
theorem State.writesOnly_writeAccess (s : State) (p addr n v : Nat) : s.WritesOnly (s.writeAccess (.part p) addr n v).2 := by
  have hwake : s.WritesOnly (s.wakeSpan addr n) := (s.wakesAndCounts_wakeSpan addr n).writesOnly
  unfold State.writeAccess
  simp only []
  split
  · exact .refl s
  · next hcode =>
    split
    · exact hwake.trans (State.writesOnly_atomicAt _ _ _ _)
    · exact hwake.trans (State.writesOnly_atomicAt _ _ _ _)
    · rw [State.store_of_part (not_not.1 hcode)]
      exact hwake.trans (State.writesOnly_wr _ _ _ _)

/-! ### Rounding and limiting -/

theorem clampI_eq_max_min {lo hi : Int} (h : lo ≤ hi) (x : Int) : clampI lo hi x = max lo (min x hi) := by
  unfold clampI
  split_ifs <;> omega

theorem combineLlrs_getD (old new : List Int) {i : Nat} (h : i < new.length) :
    (combineLlrs old new).1.getD i 0 = max (-127) (min (old.getD i 0 + new.getD i 0) 127) := by
  rw [← clampI_eq_max_min (by decide)]
  simp [combineLlrs, h]

/-! ### Compression of a PRB -/

/-- Every 16-bit sample rounds to 0 at exponent 16, where each mantissa fits. -/
theorem fitsExp_16 {w : Nat} {l : List Int} (h : ∀ v ∈ l, -32768 ≤ v ∧ v ≤ 32767) : fitsExp w 16 l = true := by
  have hpow : (1 : Int) ≤ 2 ^ (w - 1) := one_le_pow₀ (by decide)
  simp only [fitsExp, List.all_eq_true, decide_eq_true_eq]
  intro v hv
  have hzero : roundDiv v (2 ^ 16) = 0 := by
    have := h v hv
    unfold roundDiv
    omega
  rw [hzero]
  omega

/-- The exponent of a PRB of 16-bit samples is the least at which all its mantissas fit (R390). -/
theorem compressPrb_exponent {w : Nat} {l : List Int} (h : ∀ v ∈ l, -32768 ≤ v ∧ v ≤ 32767) :
    fitsExp w (compressPrb w l).1 l = true ∧ ∀ e < (compressPrb w l).1, fitsExp w e l = false := by
  obtain ⟨e, he⟩ : ∃ e, (List.range 17).find? (fun e => fitsExp w e l) = some e := by
    rw [← Option.isSome_iff_exists, List.find?_isSome]
    exact ⟨16, by simp, fitsExp_16 h⟩
  have hexp : (compressPrb w l).1 = e := by simp [compressPrb, he]
  rw [hexp]
  rw [List.find?_range_eq_some] at he
  obtain ⟨hfits, -, hleast⟩ := he
  exact ⟨hfits, fun k hk => by simpa using hleast k hk⟩

end Sys2Proof.Machine

namespace Sys2Proof.Claims
open Machine

theorem slotResultRecord_cases (c : CellId) (s : State) (r : SlotResult) (q : SlotRec)
    (hq : (s.cell c).slots.find? (fun q => !q.reported) = some q) :
    ((q.frozen = true ∧ bit (s.cellCfg c) 27 = true) ∨ s.radio.engLost = true ∨ s.radio.engRetired.all id = true →
      exec (.slotResultRecord c r) s = .next (s.failSlot c q 6)) ∧
    ((q.frozen = false ∨ bit (s.cellCfg c) 27 = false) → s.radio.engLost = false → s.radio.engRetired.all id = false →
      exec (.slotResultRecord c r) s = .next ((s.writeRecord c q r.crcOk (min r.ntb 64) r.tbBase).flushFailed c
        ((s.cell c).slots.length + 1))) := by
  have hexec : exec (.slotResultRecord c r) s = execSlotResultRecord c r s := rfl
  simp only [execSlotResultRecord, hq] at hexec
  refine ⟨fun hfail => hexec.trans (congrArg Host.Outcome.next (if_pos hfail)), fun hlive hlost hret =>
    hexec.trans (congrArg Host.Outcome.next (if_neg ?_))⟩
  rcases hlive with hlive | hlive <;> simp only [hlive, hlost, hret] <;> simp

/-- A block that nothing cancels, decoded. -/
theorem codeBlockDecode_fresh (b : CodeBlock) (s : State) (hlost : s.radio.engLost = false)
    (hret : s.radio.engRetired.all id = false)
    (hgone : (s.cell b.cell).slots.any (fun r => r.frame == b.frame && r.slot == b.slot && r.path == 2) = false)
    (hharq : b.harq = 0) (hcomb : b.combine = false) :
    let d := decodeBlock b (s.od 0x5018 1) b.llrs
    exec (.codeBlockDecode b) s = .next (s.emit (.decoded d.1 d.2)) := by
  have hexec : exec (.codeBlockDecode b) s = execCodeBlockDecode b s := rfl
  simp only [execCodeBlockDecode, hlost, hret, hgone, hharq, hcomb] at hexec
  simpa using hexec

/-- A retransmission, combined with its soft buffer and decoded (R387). -/
theorem codeBlockDecode_combined (b : CodeBlock) (s : State) (hlost : s.radio.engLost = false)
    (hret : s.radio.engRetired.all id = false)
    (hgone : (s.cell b.cell).slots.any (fun r => r.frame == b.frame && r.slot == b.slot && r.path == 2) = false)
    (hharq : b.harq ≠ 0) (hcomb : b.combine = true) (hhbm : s.hbmUp = true) :
    let n := b.llrs.length
    let x := combineLlrs (bytesLlr (s.rd b.harq n) n) b.llrs
    let d := decodeBlock b (s.od 0x5018 1) x.1
    ∃ t, exec (.codeBlockDecode b) s = .next t ∧
      t.mem = (s.writeAccess (.part 0) b.harq n (llrBytes x.1)).2.mem ∧ t.out = s.out ++ [.decoded d.1 d.2] ∧
      t.radio.harqUndo = s.radio.harqUndo ++ [(b.cell.val, b.frame, b.slot, b.harq, n, s.rd b.harq n)] ∧
      t.cores = s.cores ∧ t.sems = s.sems ∧ t.host = s.host ∧ t.dict = s.dict := by
  intro n x d
  obtain ⟨m, e, w, k, v, hwrite⟩ := s.writesOnly_writeAccess 0 b.harq n (llrBytes x.1)
  set kept : State := { (s.writeAccess (.part 0) b.harq n (llrBytes x.1)).2 with
    radio := { s.radio with harqUndo := s.radio.harqUndo ++ [(b.cell.val, b.frame, b.slot, b.harq, n, s.rd b.harq n)] } }
    with hkept
  have hcount : ∃ v', (if x.2 = 0 then kept else kept.countDev 0x026 (some 0) x.2) = { kept with visor := v' } := by
    split
    · exact ⟨_, rfl⟩
    · exact ⟨_, kept.visorCount_eq _ _ _ _ _⟩
  obtain ⟨v', hcount⟩ := hcount
  have hod : s.od 0x5018 1 = ({ kept with visor := v' } : State).od 0x5018 1 := by
    rw [hkept, hwrite]
    rfl
  refine ⟨({ kept with visor := v' } : State).emit (.decoded d.1 d.2), ?_, rfl, ?_, rfl, ?_, ?_, ?_, ?_⟩
  · have hexec : exec (.codeBlockDecode b) s = execCodeBlockDecode b s := rfl
    have hlive : ¬ (s.radio.engLost = true ∨ s.radio.engRetired.all id = true ∨
        (s.cell b.cell).slots.any (fun r => r.frame == b.frame && r.slot == b.slot && r.path == 2) = true) := by
      rw [hlost, hret, hgone]
      simp
    simp only [execCodeBlockDecode, if_neg hlive, if_pos (And.intro hcomb hhbm),
      if_neg (not_not_intro (And.intro hharq hhbm))] at hexec
    have hradio : (s.writeAccess (.part 0) b.harq n (llrBytes x.1)).2.radio = s.radio := by rw [hwrite]
    rw [← hcount, hkept, ← hradio]
    exact hexec
  all_goals rw [hkept, hwrite]; rfl

theorem codeEngineRetired_once (e : Fin 4) (s : State) :
    (s.radio.engRetired.getD e.val false = false → exec (.codeEngineRetired e) s =
      .next (({ s with radio := { s.radio with engRetired := s.radio.engRetired.set e.val true } }).faultNotice 0x0117
        (some 0) 9 e.val e.val)) ∧
    (s.radio.engRetired.getD e.val false = true → exec (.codeEngineRetired e) s = .next s) :=
  ⟨fun hin => congrArg Host.Outcome.next (if_neg (by rw [hin]; exact Bool.false_ne_true)),
    fun hgone => congrArg Host.Outcome.next (if_pos hgone)⟩

theorem dlSymbolSend_cases (c : CellId) (f : Int) (j sym : Nat) (blocks : List DlBlock) (samples : List Int) (w : Nat)
    (s : State) (hnew : s.radio.dlDone.contains (c.val, f, j, sym) = false) :
    (blocks ≠ [] → s.enginesLeft = false → exec (.dlSymbolSend c f j sym ⟨blocks, samples⟩ w) s = .next s) ∧
    ((blocks = [] ∨ s.enginesLeft = true) → exec (.dlSymbolSend c f j sym ⟨blocks, samples⟩ w) s = .next { s with
      out := s.out ++ blocks.map (fun b => .encoded (encodeBlock b)) ++
        (prbsOf samples).map (fun l => .uPlane c.val (compressPrb w l).1 (compressPrb w l).2)
      radio := { s.radio with dlDone := s.radio.dlDone ++ [(c.val, f, j, sym)] } }) := by
  have hnew' : ¬ s.radio.dlDone.contains (c.val, f, j, sym) = true := by rw [hnew]; exact Bool.false_ne_true
  refine ⟨fun hblocks hleft => congrArg Host.Outcome.next (if_pos (.inr (by simp [hblocks, hleft]))), fun hready => ?_⟩
  have hexec : exec (.dlSymbolSend c f j sym ⟨blocks, samples⟩ w) s = execDlSymbolSend c f j sym ⟨blocks, samples⟩ w s := rfl
  rw [hexec, execDlSymbolSend, if_neg (not_or.2 ⟨hnew', not_not_intro (by simpa using hready)⟩)]
  simp only [foldl_emit]

/-- A symbol given up: one notice for its slot (R391). -/
theorem dlLate_new (c : CellId) (f : Int) (j sym : Nat) (s : State)
    (hnew : s.radio.dlDone.contains (c.val, f, j, sym) = false) :
    ∃ t, exec (.dlLate c f j sym) s = .next t ∧ t.radio.dlDone = s.radio.dlDone ++ [(c.val, f, j, sym)] ∧ t.out = s.out ∧
      t.mem = s.mem ∧ t.host.journalNew.length = s.host.journalNew.length +
        (if s.radio.dlLateSlots.contains (c.val, f, j) then 0 else 1) := by
  have hexec : exec (.dlLate c f j sym) s = execDlLate c f j sym s := rfl
  have hnew' : ¬ s.radio.dlDone.contains (c.val, f, j, sym) = true := by rw [hnew]; exact Bool.false_ne_true
  simp only [execDlLate, if_neg hnew', State.countDev] at hexec
  rw [State.visorCount_eq] at hexec
  refine ⟨_, hexec, ?_⟩
  split
  · exact ⟨rfl, rfl, rfl, rfl⟩
  · simp [State.warn, State.raise]

theorem compressPrb_rounds (w : Nat) (l : List Int) (h : ∀ v ∈ l, -32768 ≤ v ∧ v ≤ 32767) :
    let e := (compressPrb w l).1
    (compressPrb w l).2 = l.map (fun v => ⌊(v : ℚ) / 2 ^ e + 1 / 2⌋) ∧
    (∀ m ∈ (compressPrb w l).2, -(2 ^ (w - 1)) ≤ m ∧ m ≤ 2 ^ (w - 1) - 1) ∧
    (∀ e', e' < e → ∃ v ∈ l, ⌊(v : ℚ) / 2 ^ e' + 1 / 2⌋ < -(2 ^ (w - 1)) ∨ 2 ^ (w - 1) - 1 < ⌊(v : ℚ) / 2 ^ e' + 1 / 2⌋) := by
  intro e
  have hround : ∀ (k : Nat) (v : Int), roundDiv v (2 ^ k) = ⌊(v : ℚ) / 2 ^ k + 1 / 2⌋ := fun k v => by
    rw [roundDiv_eq_floor v (by positivity)]
    push_cast
    rfl
  have hmant : (compressPrb w l).2 = l.map (fun v => roundDiv v (2 ^ e)) := rfl
  obtain ⟨hfits, hleast⟩ := compressPrb_exponent (w := w) h
  refine ⟨?_, fun m hm => ?_, fun k hk => ?_⟩
  · rw [hmant]
    simp [hround, ← List.map_eq_flatMap]
  · rw [hmant] at hm
    obtain ⟨v, hv, rfl⟩ := List.mem_map.1 hm
    simpa [fitsExp, and_comm] using List.all_eq_true.1 hfits v hv
  · have hbad := hleast k hk
    simp only [fitsExp, List.all_eq_false] at hbad
    obtain ⟨v, hv, hno⟩ := hbad
    refine ⟨v, hv, ?_⟩
    rw [← hround]
    simp only [decide_eq_true_eq, not_and_or, not_le] at hno
    exact hno

end Sys2Proof.Claims

open Sys2Proof.Claims Sys2Proof.Machine

/-- Settles O28, one lemma for each command and two for the arithmetic: limited addition, and the least exponent found. -/
theorem radioResultsAndCoding : Obligations.RadioResultsAndCoding := by
  refine fun c s => ⟨slotResultRecord_cases c s, fun b => codeBlockDecode_fresh b s, fun b => codeBlockDecode_combined b s,
    fun old new i => combineLlrs_getD old new, fun e => codeEngineRetired_once e s, fun f j sym blocks samples w => ⟨fun hdone =>
      ⟨congrArg Host.Outcome.next (if_pos (.inl hdone)), congrArg Host.Outcome.next (if_pos hdone)⟩, fun hnew => ?_⟩,
    fun w l _ => compressPrb_rounds w l⟩
  obtain ⟨hwait, hsend⟩ := dlSymbolSend_cases c f j sym blocks samples w s hnew
  exact ⟨hwait, hsend, dlLate_new c f j sym s hnew⟩

end

section
/-! SUPPORT. S1's blocks and outputs, and the records of frame streams (R369, R370, R381 to R383). -/

namespace Sys2Proof.Machine

/-! ### Blocks of S1's output -/

/-- The power-of-two code 8 (e + 1) divides by 2^(e - 6) (R103, R369). -/
theorem roundDiv_powerCode {e : Nat} (he : e < 15) (x : Int) :
    roundDiv (x * (s8Val (8 * (e + 1))).2) (s8Val (8 * (e + 1))).1.toNat = Claims.s1Rounded e x := by
  interval_cases e <;> simp [roundDiv, s8Val, s8Mu, s8Eps, pow2, bits, Claims.s1Rounded] <;> omega

theorem powerCode_pos {e : Nat} (he : e < 15) : 0 < (s8Val (8 * (e + 1))).1.toNat := by
  interval_cases e <;> simp [s8Val, s8Mu, s8Eps, pow2, bits]

/-- An element saturates at a power of two exactly where its rounded quotient does not fit I8. -/
theorem s1Elem_sat {e : Nat} (he : e < 15) (x : Int) :
    (s1Elem (8 * (e + 1)) x).fl.sat = false ↔ Claims.s1Fits e x := by
  rw [s1Elem, storeInt_num 8 (powerCode_pos he), roundDiv_powerCode he]
  simp only [Claims.s1Fits]
  split
  · simp only [Flags.saturated, Bool.true_eq_false, false_iff]
    omega
  · simp only [Flags.ofInx, true_iff]
    omega

theorem s1Elem_code {e : Nat} (he : e < 15) {x : Int} (hfit : Claims.s1Fits e x) :
    (s1Elem (8 * (e + 1)) x).code = enc 8 (Claims.s1Rounded e x) := by
  obtain ⟨hlo, hhi⟩ := hfit
  rw [s1Elem, storeInt_num 8 (powerCode_pos he), roundDiv_powerCode he]
  simp only []
  rw [min_eq_left (by omega), max_eq_right (by omega)]

/-- The code found is the first of the ascending powers at which nothing saturates. -/
theorem powerCodes_find {e : Nat} (he : e < 15) (l : List Int) (hfits : ∀ x ∈ l, Claims.s1Fits e x)
    (hleast : ∀ d < e, ∃ x ∈ l, ¬ Claims.s1Fits d x) :
    powerCodes.find? (fun c => l.all (fun x => !(s1Elem c x).fl.sat)) = some (8 * (e + 1)) := by
  have hall : ∀ d < 15, (l.all fun x => !(s1Elem (8 * (d + 1)) x).fl.sat) = true ↔ ∀ x ∈ l, Claims.s1Fits d x :=
    fun d hd => by simp [s1Elem_sat hd]
  rw [powerCodes, List.find?_map, List.find?_range_eq_some.2, Option.map_some]
  refine ⟨(hall e he).2 hfits, List.mem_range.2 he, fun d hd => ?_⟩
  obtain ⟨x, hx, hbad⟩ := hleast d hd
  rw [Bool.not_eq_true', ← Bool.not_eq_true]
  exact fun hok => hbad ((hall d (hd.trans he)).1 hok x hx)

/-! ### S1's outputs -/

theorem State.foldl_radio {ι : Type} {f : State → ι → State} (hf : ∀ t x, (f t x).radio = t.radio) (l : List ι) (s : State) :
    (l.foldl f s).radio = s.radio := by
  induction l generalizing s with
  | nil => rfl
  | cons x l ih => rw [List.foldl_cons, ih, hf]

/-- S1's outputs formed: one for each symbol, behind those kept. -/
theorem State.closeS1_new (s : State) (c : CellId) (f : Int) (j : Nat)
    (hnone : s.radio.s1out.any (fun e => e.cell == c.val && e.frame == f && e.slot == j) = false) :
    (s.closeS1 c f j).radio.s1out = s.radio.s1out ++ (List.range 14).map
      (fun sym => s.takeFree.2.s1Symbol c f j sym s.takeFree.1) := by
  unfold State.closeS1
  rw [hnone]
  simp only [Bool.false_eq_true, if_false]
  rw [State.foldl_radio]
  · rfl
  · intro t x
    split
    · split <;> rfl
    · rfl

/-! ### Records of frame streams -/

@[simp] theorem State.frameStream_job (s : State) (h : Nat) : (s.frameStream h).job = h := by
  unfold State.frameStream
  cases hf : s.radio.frames.find? (fun x => x.job == h) with
  | none => rfl
  | some x => simpa using List.find?_some hf

theorem State.frameStream_setFrames_same (s : State) (x : FrameStream) : (s.setFrames x).frameStream x.job = x := by
  have hgone : (s.radio.frames.filter (fun y => y.job != x.job)).find? (fun y => y.job == x.job) = none := by
    simp
  simp [State.frameStream, State.setFrames, List.find?_append, hgone]

theorem State.frameStream_setFrames_other (s : State) (x : FrameStream) {k : Nat} (hk : k ≠ x.job) :
    (s.setFrames x).frameStream k = s.frameStream k := by
  have hfilter : (s.radio.frames.filter (fun y => y.job != x.job)).find? (fun y => y.job == k) =
      s.radio.frames.find? (fun y => y.job == k) := by
    rw [List.find?_filter]
    congr
    funext y
    by_cases hy : y.job = k
    · simp [hy, hk]
    · simp [hy]
  simp [State.frameStream, State.setFrames, List.find?_append, hfilter, Ne.symm hk]

theorem State.frameStream_congr {s t : State} (h : t.radio = s.radio) (k : Nat) : t.frameStream k = s.frameStream k := by
  rw [State.frameStream, h, State.frameStream]

/-- The record of a stream whose frame has the last digest, in a device whose frozen limit is `limit`. -/
def FrameStream.again (x : FrameStream) (limit : Nat) : FrameStream :=
  { x with run := x.run + 1, frozen := x.frozen || decide (x.run + 1 = limit) }

/-- The record of a stream whose frame has another digest. -/
def FrameStream.anew (x : FrameStream) (d : Nat) : FrameStream := { x with prev := some d, run := 1, frozen := false }

section
variable (s : State) (h d : Nat)

/-- The FR_N-th frame in a row with one digest freezes the stream. -/
theorem State.compareFrame_freezes (hprev : (s.frameStream h).prev = some d) (hfr : (s.frameStream h).frozen = false)
    (hrun : (s.frameStream h).run + 1 = s.od 0x5020 1) :
    s.compareFrame h d true = ((s.setFrames ((s.frameStream h).again (s.od 0x5020 1))).setOd 0x5020 2
      ((s.od 0x5020 2 + 1) % 2 ^ 32)).warn 0x0114 ((s.jobOf h).map (·.part)) 4 (((s.jobOf h).map (·.part)).getD 0) h := by
  have hcond : (s.frameStream h).run + 1 = s.od 0x5020 1 ∧ ¬ (s.frameStream h).frozen = true := ⟨hrun, by simp [hfr]⟩
  simp only [State.compareFrame, not_true_eq_false, if_false, if_pos hprev, if_pos hcond]
  rfl

theorem State.compareFrame_lengthens (hprev : (s.frameStream h).prev = some d)
    (hno : (s.frameStream h).frozen = true ∨ (s.frameStream h).run + 1 ≠ s.od 0x5020 1) :
    s.compareFrame h d true = s.setFrames ((s.frameStream h).again (s.od 0x5020 1)) := by
  have hcond : ¬ ((s.frameStream h).run + 1 = s.od 0x5020 1 ∧ ¬ (s.frameStream h).frozen = true) := by tauto
  simp only [State.compareFrame, not_true_eq_false, if_false, if_pos hprev, if_neg hcond]
  rfl

theorem State.compareFrame_thaws (hprev : (s.frameStream h).prev ≠ some d) (hfr : (s.frameStream h).frozen = true) :
    s.compareFrame h d true = (s.setFrames ((s.frameStream h).anew d)).info 0x0115 ((s.jobOf h).map (·.part)) 4
      (((s.jobOf h).map (·.part)).getD 0) h := by
  simp only [State.compareFrame, not_true_eq_false, if_false, if_neg hprev, if_pos hfr]
  rfl

theorem State.compareFrame_begins (hprev : (s.frameStream h).prev ≠ some d) (hfr : (s.frameStream h).frozen = false) :
    s.compareFrame h d true = s.setFrames ((s.frameStream h).anew d) := by
  simp only [State.compareFrame, not_true_eq_false, if_false, if_neg hprev, hfr, Bool.false_eq_true]
  rfl

/-- What a frame that is not empty does to the streams' records: its own is replaced. -/
theorem State.compareFrame_radio : (s.compareFrame h d true).radio = (s.setFrames
    (if (s.frameStream h).prev = some d then (s.frameStream h).again (s.od 0x5020 1) else (s.frameStream h).anew d)).radio := by
  by_cases hprev : (s.frameStream h).prev = some d
  · rw [if_pos hprev]
    by_cases hno : (s.frameStream h).frozen = true ∨ (s.frameStream h).run + 1 ≠ s.od 0x5020 1
    · rw [s.compareFrame_lengthens h d hprev hno]
    · obtain ⟨hfr, hrun⟩ := not_or.1 hno
      rw [s.compareFrame_freezes h d hprev (by simpa using hfr) (not_not.1 hrun), State.warn, State.raise, State.raiseAt_radio]
      rfl
  · rw [if_neg hprev]
    by_cases hfr : (s.frameStream h).frozen = true
    · rw [s.compareFrame_thaws h d hprev hfr, State.info, State.raise, State.raiseAt_radio]
    · rw [s.compareFrame_begins h d hprev (by simpa using hfr)]

/-- The record that a frame leaves to its stream. -/
theorem State.frameStream_compareFrame_same : (s.compareFrame h d true).frameStream h =
    if (s.frameStream h).prev = some d then (s.frameStream h).again (s.od 0x5020 1) else (s.frameStream h).anew d := by
  rw [State.frameStream_congr (s.compareFrame_radio h d)]
  split <;> exact (congrArg _ (s.frameStream_job h).symm).trans (s.frameStream_setFrames_same _)

theorem State.frameStream_compareFrame_other {k : Nat} (hk : k ≠ h) :
    (s.compareFrame h d true).frameStream k = s.frameStream k := by
  rw [State.frameStream_congr (s.compareFrame_radio h d)]
  split <;> exact s.frameStream_setFrames_other _ (fun hjob => hk (hjob.trans (s.frameStream_job h)))

end

end Sys2Proof.Machine

namespace Sys2Proof.Claims
open Machine

theorem claimStageOneBlocks_holds : claimStageOneBlocks := by
  intro f l
  refine ⟨fun hzero => if_pos (by simpa using hzero), fun e he hsome hfits hleast => ?_⟩
  have hne : ¬ l.all (fun x => x == 0) = true := by simpa using hsome
  unfold s1Block
  rw [if_neg hne, powerCodes_find he l hfits hleast]
  exact congrArg _ (List.map_congr_left fun x hx => s1Elem_code he (hfits x hx))

theorem claimStageOneKept_holds : claimStageOneKept := by
  intro s c f j own
  have hown : (s.radio.s1out.any fun e => e.cell == c.val && e.frame == f && e.slot == j) = true ↔
      ∃ e ∈ s.radio.s1out, own e := by
    simp [own, and_assoc]
  refine ⟨fun hnone => ⟨_, s.closeS1_new c f j ?_, ?_, ?_⟩, fun hsome => if_pos (hown.2 hsome), fun e => ?_⟩
  · rw [← Bool.not_eq_true, hown]
    rintro ⟨e, he, hmine⟩
    exact hnone e he hmine
  · rw [List.map_map]
    exact List.map_id _
  · intro e he
    obtain ⟨sym, -, rfl⟩ := List.mem_map.1 he
    exact ⟨rfl, rfl, rfl⟩
  · simp [State.dropSlotData, own]
    tauto

theorem claimFrameStreamsFreeze_holds : claimFrameStreamsFreeze := by
  intro s h d x part t
  have hsame : t.frameStream h = if x.prev = some d then x.again (s.od 0x5020 1) else x.anew d :=
    s.frameStream_compareFrame_same h d
  refine ⟨by simp [State.compareFrame], fun hprev => ?_, fun hprev => ?_, fun hprev hfr hrun hwf =>
      ⟨_, s.compareFrame_freezes h d hprev hfr hrun, ?_, rfl⟩,
    fun hprev hfr => ⟨_, s.compareFrame_thaws h d hprev hfr, rfl, rfl⟩, fun hprev hno => ?_,
    fun k hk => s.frameStream_compareFrame_other h d hk⟩
  · rw [hsame, if_pos hprev]
    exact ⟨rfl, hprev, by simp [FrameStream.again]⟩
  · rw [hsame, if_neg hprev]
    exact ⟨rfl, rfl, rfl⟩
  · exact State.od_setOd_same (s := s.setFrames (x.again (s.od 0x5020 1))) hwf _ _ _
  · have ht : t = s.setFrames (x.again (s.od 0x5020 1)) := s.compareFrame_lengthens h d hprev hno
    rw [ht]
    exact ⟨rfl, rfl⟩

end Sys2Proof.Claims

open Sys2Proof.Claims Sys2Proof.Machine

/-- Settles O59: the code found is the least power of two at which nothing saturates, S1's outputs of a slot are appended once,
and a frame replaces its own stream's record. -/
theorem stageOutputsAndFrameStreams : Obligations.StageOutputsAndFrameStreams :=
  ⟨claimStageOneBlocks_holds, claimStageOneKept_holds, claimFrameStreamsFreeze_holds⟩

end

section
/-! SUPPORT. The far-reach link's waveform and soft symbol records (R394, R395, R403, R404). -/

namespace Sys2Proof.Machine

/-! ### Shifts and chirps -/

theorem gray_lt {w b : Nat} (h : b < 2 ^ w) : gray b < 2 ^ w :=
  Nat.xor_lt_two_pow h ((Nat.div_le_self b 2).trans_lt h)

/-- The shifted codes telescope: each cancels the shifted value before it. -/
theorem foldl_xor_gray (b w : Nat) :
    (List.range w).foldl (fun a i => Nat.xor a (gray b / 2 ^ i)) 0 = b ^^^ (b / 2 ^ w) := by
  induction w with
  | zero => simp
  | succ w ih =>
    have hcode : gray b / 2 ^ w = (b / 2 ^ w) ^^^ (b / 2 ^ (w + 1)) := by
      rw [pow_succ, ← Nat.div_div_eq_div_mul, Nat.div_right_comm]
      exact Nat.xor_div_two_pow
    rw [List.range_succ, List.foldl_append, ih, List.foldl_cons, List.foldl_nil, hcode]
    change b ^^^ b / 2 ^ w ^^^ (b / 2 ^ w ^^^ b / 2 ^ (w + 1)) = _
    rw [Nat.xor_assoc, ← Nat.xor_assoc (b / 2 ^ w), Nat.xor_self, Nat.zero_xor]

theorem ungray_gray {w b : Nat} (h : b < 2 ^ w) : ungray w (gray b) = b := by
  rw [ungray, foldl_xor_gray, Nat.div_eq_of_lt h, Nat.xor_zero, Nat.mod_eq_of_lt h]

/-- The lengths of the groups cut from L elements. -/
theorem sum_group_lengths (n L k : Nat) :
    ((List.range k).map (fun i => min n (L - n * i))).sum = min (n * k) L := by
  induction k with
  | zero => simp
  | succ k ih =>
    rw [List.range_succ, List.map_append, List.sum_append, ih, Nat.mul_succ]
    simp only [List.map_cons, List.map_nil, List.sum_cons, List.sum_nil]
    omega

theorem length_groupsOf {α : Type} (n : Nat) (l : List α) : (groupsOf n l).length = (l.length + n - 1) / n := by
  simp [groupsOf]

theorem length_getD_groupsOf {α : Type} {n i : Nat} (l : List α) (hi : i < (groupsOf n l).length) :
    ((groupsOf n l).getD i []).length = min n (l.length - n * i) := by
  rw [List.getD_eq_getElem _ _ hi]
  simp [groupsOf]

/-- A pilot follows every group but the last. -/
theorem sum_pilots (k : Nat) : ((List.range k).map (fun i => if i + 1 < k then 1 else 0)).sum = k - 1 := by
  rcases k with _ | k
  · rfl
  · rw [List.range_succ, List.map_append, List.sum_append]
    have hall : (List.range k).map (fun i => if i + 1 < k + 1 then 1 else 0) = (List.range k).map (fun _ => 1) :=
      List.map_congr_left fun i hi => if_pos (by simpa using hi)
    rw [hall]
    simp

/-- A frame has 10 chirps, its data symbols and a pilot after every complete group of 8 but the last (R395). -/
theorem length_chirpsOf {m : Nat} (coded : List Bool) :
    let d := (coded.length + m - 1) / m
    (chirpsOf m coded).length = 10 + d + (d - 1) / 8 := by
  intro d
  set data := (groupsOf m coded).map (fun g => gray (bitsVal g)) with hdata
  have hd : data.length = d := by rw [hdata, List.length_map, length_groupsOf]
  have hgroups : (groupsOf 8 data).length = (d + 7) / 8 := by rw [length_groupsOf, hd]; rfl
  have hsum : (((List.range (groupsOf 8 data).length).map (fun i =>
      (groupsOf 8 data).getD i [] ++ (if i + 1 < (groupsOf 8 data).length then [2 ^ m] else []))).flatten).length =
      d + ((d + 7) / 8 - 1) := by
    rw [List.length_flatten, List.map_map]
    have hlen : (List.range (groupsOf 8 data).length).map (List.length ∘ fun i =>
        (groupsOf 8 data).getD i [] ++ (if i + 1 < (groupsOf 8 data).length then [2 ^ m] else [])) =
        (List.range ((d + 7) / 8)).map (fun i => min 8 (d - 8 * i) + if i + 1 < (d + 7) / 8 then 1 else 0) := by
      rw [hgroups]
      refine List.map_congr_left fun i hi => ?_
      rw [Function.comp_apply, List.length_append, length_getD_groupsOf data (hgroups ▸ List.mem_range.1 hi), hd]
      split <;> rfl
    rw [hlen, List.sum_map_add, sum_group_lengths, sum_pilots]
    omega
  simp only [chirpsOf, List.length_append]
  rw [hsum]
  simp only [List.length_cons, List.length_nil]
  omega

/-! ### The best bins -/

/-- Bin x stands before bin y: the larger metric, at equal metrics the lower bin (R403). -/
def Before (x y : Nat × Int) : Prop := y.2 < x.2 ∨ (y.2 = x.2 ∧ x.1 < y.1)

theorem Before.trans {x y z : Nat × Int} (h : Before x y) (g : Before y z) : Before x z := by
  unfold Before at *
  omega

theorem Before.total {x y : Nat × Int} (hne : y.1 ≠ x.1) (h : ¬ Before x y) : Before y x := by
  unfold Before at *
  omega

theorem putBest_perm (x : Nat × Int) (l : List (Nat × Int)) : (putBest x l).Perm (x :: l) := by
  induction l with
  | nil => exact .refl _
  | cons y t ih =>
    rw [putBest]
    split
    · exact .refl _
    · exact (ih.cons y).trans (.swap x y t)

theorem putBest_pairwise {x : Nat × Int} {l : List (Nat × Int)} (hl : l.Pairwise Before) (hx : ∀ y ∈ l, y.1 ≠ x.1) :
    (putBest x l).Pairwise Before := by
  induction l with
  | nil => exact List.pairwise_singleton _ _
  | cons y t ih =>
    obtain ⟨hy, ht⟩ := List.pairwise_cons.1 hl
    rw [putBest]
    split
    · next hxy =>
      refine List.pairwise_cons.2 ⟨fun z hz => ?_, hl⟩
      rcases List.mem_cons.1 hz with rfl | hz
      · exact hxy
      · exact Before.trans hxy (hy z hz)
    · next hxy =>
      refine List.pairwise_cons.2 ⟨fun z hz => ?_, ih ht fun z hz => hx z (List.mem_cons_of_mem _ hz)⟩
      rcases List.mem_cons.1 ((putBest_perm x t).subset hz) with rfl | hz
      · exact Before.total (hx y List.mem_cons_self) hxy
      · exact hy z hz

/-- What is put in behind the n best does not come among them. -/
theorem take_putBest (n : Nat) (x : Nat × Int) (l : List (Nat × Int)) :
    (putBest x (l.take n)).take n = (putBest x l).take n := by
  induction l generalizing n with
  | nil => simp
  | cons y t ih =>
    rcases n with _ | n
    · simp
    · rw [List.take_succ_cons, putBest, putBest]
      split
      · rw [List.take_succ_cons, List.take_succ_cons]
        rcases n with _ | n
        · rfl
        · rw [List.take_succ_cons, List.take_succ_cons, List.take_take, min_eq_left (Nat.le_succ n)]
      · rw [List.take_succ_cons, List.take_succ_cons, ih]

/-- The bins of a list of metrics, all in order. -/
def ranked (l : List Int) : List (Nat × Int) := ((List.range l.length).zip l).foldl (fun a x => putBest x a) []

theorem best_eq_take (n : Nat) (l : List Int) : best n l = (ranked l).take n := by
  suffices h : ∀ (p a : List (Nat × Int)), p.foldl (fun a x => (putBest x a).take n) (a.take n) =
      (p.foldl (fun a x => putBest x a) a).take n by
    simpa [best, ranked] using h ((List.range l.length).zip l) []
  intro p
  induction p with
  | nil => exact fun a => rfl
  | cons x p ih => exact fun a => by rw [List.foldl_cons, List.foldl_cons, take_putBest, ih]

theorem foldl_putBest_perm (p a : List (Nat × Int)) : (p.foldl (fun a x => putBest x a) a).Perm (p ++ a) := by
  induction p generalizing a with
  | nil => exact .refl _
  | cons x p ih => exact (ih _).trans (((putBest_perm x a).append_left p).trans List.perm_middle)

theorem foldl_putBest_pairwise {p a : List (Nat × Int)} (ha : a.Pairwise Before)
    (hp : (p ++ a).Pairwise (fun x y => x.1 ≠ y.1)) : (p.foldl (fun a x => putBest x a) a).Pairwise Before := by
  induction p generalizing a with
  | nil => exact ha
  | cons x p ih =>
    obtain ⟨hx, hrest⟩ := List.pairwise_cons.1 hp
    refine ih (putBest_pairwise ha fun y hy => (hx y (List.mem_append_right _ hy)).symm) ?_
    have hmid : (p ++ x :: a).Pairwise (fun x y => x.1 ≠ y.1) :=
      (List.perm_middle.pairwise_iff fun h => h.symm).2 hp
    exact (((putBest_perm x a).append_left p).pairwise_iff fun h => h.symm).2 hmid

theorem ranked_perm (l : List Int) : (ranked l).Perm ((List.range l.length).zip l) := by
  simpa [ranked] using foldl_putBest_perm ((List.range l.length).zip l) []

theorem ranked_pairwise (l : List Int) : (ranked l).Pairwise Before := by
  refine foldl_putBest_pairwise .nil ?_
  rw [List.append_nil, ← List.pairwise_map (f := Prod.fst) (R := (· ≠ ·))]
  rw [List.map_fst_zip (by simp)]
  exact List.nodup_range

theorem length_ranked (l : List Int) : (ranked l).length = l.length := by simp [(ranked_perm l).length_eq]

theorem mem_ranked {l : List Int} {x : Nat × Int} : x ∈ ranked l ↔ x.1 < l.length ∧ x.2 = l.getD x.1 0 := by
  rw [(ranked_perm l).mem_iff, List.mem_iff_getElem]
  constructor
  · rintro ⟨i, hi, rfl⟩
    simp only [List.length_zip, List.length_range, min_self] at hi
    simp [hi]
  · rintro ⟨hlt, hval⟩
    refine ⟨x.1, by simpa using hlt, ?_⟩
    simp [hlt, hval, Prod.ext_iff]

/-! ### The fields of a record -/

/-- A digit of a sum of digits. -/
theorem digit_of_sum {B : Nat} (c : Nat → Nat) (hc : ∀ q, c q < B) (top : Nat) {n k : Nat} (hk : k < n) :
    (top * B ^ n + ((List.range n).map (fun q => c q * B ^ q)).sum) / B ^ k % B = c k := by
  have hB : 0 < B := (Nat.zero_le _).trans_lt (hc 0)
  induction n generalizing top with
  | zero => omega
  | succ n ih =>
    have hstep : top * B ^ (n + 1) + ((List.range (n + 1)).map (fun q => c q * B ^ q)).sum =
        (top * B + c n) * B ^ n + ((List.range n).map (fun q => c q * B ^ q)).sum := by
      rw [List.range_succ, List.map_append, List.sum_append]
      simp only [List.map_cons, List.map_nil, List.sum_cons, List.sum_nil]
      ring
    rw [hstep]
    rcases Nat.lt_succ_iff_lt_or_eq.1 hk with hlt | rfl
    · exact ih (top * B + c n) hlt
    · have hlow : ((List.range k).map (fun q => c q * B ^ q)).sum < B ^ k := by
        clear hstep ih hk
        induction k with
        | zero => simp
        | succ k ihk =>
          rw [List.range_succ, List.map_append, List.sum_append, pow_succ]
          simp only [List.map_cons, List.map_nil, List.sum_cons, List.sum_nil]
          nlinarith [hc k, Nat.one_le_pow k B hB]
      rw [Nat.mul_comm, Nat.mul_add_div (by positivity), Nat.div_eq_of_lt hlow, add_zero, Nat.mul_add_mod_self_right,
        Nat.mod_eq_of_lt (hc k)]

/-- Candidate q of a record: its bin, and its metric in 8 bits above it. -/
def candidate (b : List (Nat × Int)) (q : Nat) : Nat := (b.getD q (0, 0)).1 % 65536 + enc 8 (b.getD q (0, 0)).2 * 65536

theorem enc_lt (w : Nat) (v : Int) : enc w v < 2 ^ w := by
  have h := Int.emod_lt_of_pos v (show (0 : Int) < 2 ^ w by positivity)
  have h0 := Int.emod_nonneg v (show (2 ^ w : Int) ≠ 0 by positivity)
  rw [enc]
  zify
  rwa [Int.toNat_of_nonneg h0]

theorem candidate_lt (b : List (Nat × Int)) (q : Nat) : candidate b q < 2 ^ 24 := by
  have := enc_lt 8 (b.getD q (0, 0)).2
  unfold candidate
  omega

theorem sext_enc_8 {v : Int} (hlo : -128 ≤ v) (hhi : v ≤ 127) : sext 8 (enc 8 v) = v := by
  simp only [sext, enc]
  omega

/-- A record is its low 32 bits, the candidates above them, FLOOR on top (R403). -/
theorem softRecord_eq (src site idx : Nat) (l : List Int) :
    softRecord src site idx l = 2 ^ 32 * (enc 8 ((best 9 l).getD 8 (0, 0)).2 * (2 ^ 24) ^ 8 +
      ((List.range 8).map (fun q => candidate (best 9 l) q * (2 ^ 24) ^ q)).sum) +
      (site % 256 * 2 ^ 24 + idx % 4096 * 2 ^ 12 + src % 4096) := by
  have hsum : ((List.range 8).map (fun q => candidate (best 9 l) q * 2 ^ (24 * q + 32))).sum =
      2 ^ 32 * ((List.range 8).map (fun q => candidate (best 9 l) q * (2 ^ 24) ^ q)).sum := by
    rw [← List.sum_map_mul_left]
    refine congrArg List.sum (List.map_congr_left fun q _ => ?_)
    rw [pow_add, pow_mul]
    ring
  have htop : (2 : Nat) ^ 224 = 2 ^ 32 * (2 ^ 24) ^ 8 := by rw [← pow_mul, ← pow_add]
  have hrec : softRecord src site idx l = enc 8 ((best 9 l).getD 8 (0, 0)).2 * 2 ^ 224 +
      ((List.range 8).map (fun q => candidate (best 9 l) q * 2 ^ (24 * q + 32))).sum +
      site % 256 * 2 ^ 24 + idx % 4096 * 2 ^ 12 + src % 4096 := rfl
  rw [hrec, hsum, htop, Nat.mul_add, Nat.mul_left_comm]
  simp only [Nat.add_assoc]

section
variable (src site idx : Nat) (l : List Int)

theorem softRecord_head : bits (softRecord src site idx l) 11 0 = src % 4096 ∧
    bits (softRecord src site idx l) 23 12 = idx % 4096 ∧ bits (softRecord src site idx l) 31 24 = site % 256 := by
  obtain ⟨x, hx⟩ : ∃ x, softRecord src site idx l = 2 ^ 32 * x + (site % 256 * 2 ^ 24 + idx % 4096 * 2 ^ 12 + src % 4096) :=
    ⟨_, softRecord_eq src site idx l⟩
  simp only [hx, bits_eq_div]
  omega

theorem softRecord_high (k n : Nat) : softRecord src site idx l / 2 ^ (32 + k) % 2 ^ n =
    (enc 8 ((best 9 l).getD 8 (0, 0)).2 * (2 ^ 24) ^ 8 +
      ((List.range 8).map (fun q => candidate (best 9 l) q * (2 ^ 24) ^ q)).sum) / 2 ^ k % 2 ^ n := by
  have hlow : site % 256 * 2 ^ 24 + idx % 4096 * 2 ^ 12 + src % 4096 < 2 ^ 32 := by omega
  rw [softRecord_eq, pow_add, ← Nat.div_div_eq_div_mul, Nat.mul_add_div (by positivity), Nat.div_eq_of_lt hlow, add_zero]

theorem softRecord_candidate {q : Nat} (hq : q < 8) :
    softRecord src site idx l / 2 ^ (24 * q + 32) % 2 ^ 24 = candidate (best 9 l) q := by
  rw [Nat.add_comm, softRecord_high, pow_mul]
  exact digit_of_sum _ (candidate_lt _) _ hq

theorem softRecord_bin {q : Nat} (hq : q < 8) :
    bits (softRecord src site idx l) (24 * q + 47) (24 * q + 32) = ((best 9 l).getD q (0, 0)).1 % 65536 := by
  have h := softRecord_candidate src site idx l hq
  have hsub : 24 * q + 47 + 1 - (24 * q + 32) = 16 := by omega
  rw [bits_eq_div, hsub, ← Nat.mod_mod_of_dvd _ (show 2 ^ 16 ∣ 2 ^ 24 by norm_num), h]
  unfold candidate
  omega

theorem softRecord_metric {q : Nat} (hq : q < 8) :
    bits (softRecord src site idx l) (24 * q + 55) (24 * q + 48) = enc 8 ((best 9 l).getD q (0, 0)).2 := by
  have h := softRecord_candidate src site idx l hq
  have hsub : 24 * q + 55 + 1 - (24 * q + 48) = 8 := by omega
  have hlt := enc_lt 8 ((best 9 l).getD q (0, 0)).2
  have hpow : (2 : Nat) ^ (24 * q + 48) = 2 ^ (24 * q + 32) * 2 ^ 16 := by rw [← pow_add]
  rw [bits_eq_div, hsub, hpow, ← Nat.div_div_eq_div_mul]
  unfold candidate at h
  omega

theorem softRecord_floor : bits (softRecord src site idx l) 231 224 = enc 8 ((best 9 l).getD 8 (0, 0)).2 := by
  have hlt := enc_lt 8 ((best 9 l).getD 8 (0, 0)).2
  have hlow : ((List.range 8).map (fun q => candidate (best 9 l) q * (2 ^ 24) ^ q)).sum < (2 ^ 24) ^ 8 := by
    have hc := candidate_lt (best 9 l)
    simp only [List.range_succ, List.range_zero, List.nil_append, List.map_append, List.map_cons, List.map_nil,
      List.sum_append, List.sum_cons, List.sum_nil]
    have h0 := hc 0; have h1 := hc 1; have h2 := hc 2; have h3 := hc 3
    have h4 := hc 4; have h5 := hc 5; have h6 := hc 6; have h7 := hc 7
    omega
  rw [bits_eq_div, show 224 = 32 + 192 from rfl, softRecord_high, show (2 : Nat) ^ 192 = (2 ^ 24) ^ 8 by norm_num,
    Nat.mul_comm, Nat.mul_add_div (by positivity), Nat.div_eq_of_lt hlow]
  omega

end

/-- The q-th of the best is the q-th of all in order. -/
theorem best_getD {l : List Int} {n q : Nat} (hq : q < n) (hl : n ≤ l.length) :
    ∃ h : q < (ranked l).length, (best n l).getD q (0, 0) = (ranked l)[q] := by
  have hlen : q < (ranked l).length := by rw [length_ranked]; omega
  refine ⟨hlen, ?_⟩
  rw [best_eq_take, List.getD_eq_getElem _ _ (by rw [List.length_take]; omega), List.getElem_take]

/-- A soft record lists the 8 best bins in order, and no other bin exceeds its FLOOR (R403). -/
theorem softRecord_lists (src site idx : Nat) (l : List Int) (hlo : 9 ≤ l.length) (hhi : l.length ≤ 2 ^ 14)
    (hv : ∀ v ∈ l, -128 ≤ v ∧ v ≤ 127) :
    let r := softRecord src site idx l
    let bin := fun q => bits r (24 * q + 47) (24 * q + 32)
    (∀ q, q < 8 → bin q < l.length ∧ sbits r (24 * q + 55) (24 * q + 48) = l.getD (bin q) 0) ∧
    (∀ q, q < 7 → l.getD (bin (q + 1)) 0 < l.getD (bin q) 0 ∨
      (l.getD (bin (q + 1)) 0 = l.getD (bin q) 0 ∧ bin q < bin (q + 1))) ∧
    (∀ k, k < l.length → (∀ q, q < 8 → bin q ≠ k) → l.getD k 0 ≤ sbits r 231 224) ∧
    sbits r 231 224 ≤ l.getD (bin 7) 0 := by
  intro r bin
  let b := fun q => (best 9 l).getD q (0, 0)
  have hrank : ∀ q, q < 9 → ∃ h : q < (ranked l).length, b q = (ranked l)[q] := fun q hq => best_getD hq hlo
  have hmem : ∀ q, q < 9 → (b q).1 < l.length ∧ (b q).2 = l.getD (b q).1 0 := fun q hq => by
    obtain ⟨h, hq'⟩ := hrank q hq
    rw [hq']
    exact mem_ranked.1 (List.getElem_mem h)
  have hrange : ∀ q, q < 9 → -128 ≤ (b q).2 ∧ (b q).2 ≤ 127 := fun q hq => by
    obtain ⟨hlt, hval⟩ := hmem q hq
    rw [hval, List.getD_eq_getElem _ _ hlt]
    exact hv _ (List.getElem_mem hlt)
  have hbefore : ∀ q p, q < p → p < 9 → Before (b q) (b p) := fun q p hqp hp => by
    obtain ⟨h, hq'⟩ := hrank q (hqp.trans hp)
    obtain ⟨g, hp'⟩ := hrank p hp
    rw [hq', hp']
    exact List.pairwise_iff_getElem.1 (ranked_pairwise l) _ _ h g hqp
  have hbin : ∀ q, q < 8 → bin q = (b q).1 := fun q hq =>
    (softRecord_bin src site idx l hq).trans (Nat.mod_eq_of_lt (by
      have hlt : (b q).1 < l.length := (hmem q (by omega)).1
      exact hlt.trans_le (hhi.trans (by decide))))
  have hval : ∀ q, q < 8 → l.getD (bin q) 0 = (b q).2 := fun q hq => by rw [hbin q hq, (hmem q (by omega)).2]
  have hfloor : sbits r 231 224 = (b 8).2 := by
    have hf : bits r 231 224 = enc 8 (b 8).2 := softRecord_floor src site idx l
    rw [sbits, hf]
    exact sext_enc_8 (hrange 8 (by omega)).1 (hrange 8 (by omega)).2
  refine ⟨fun q hq => ⟨?_, ?_⟩, fun q hq => ?_, fun k hk hother => ?_, ?_⟩
  · rw [hbin q hq]
    exact (hmem q (by omega)).1
  · have hm : bits r (24 * q + 55) (24 * q + 48) = enc 8 (b q).2 := softRecord_metric src site idx l hq
    rw [hval q hq, sbits, hm, show 24 * q + 55 + 1 - (24 * q + 48) = 8 by omega]
    exact sext_enc_8 (hrange q (by omega)).1 (hrange q (by omega)).2
  · rw [hval q (by omega), hval (q + 1) (by omega), hbin q (by omega), hbin (q + 1) (by omega)]
    exact hbefore q (q + 1) (by omega) (by omega)
  · obtain ⟨j, hj, hkj⟩ := List.mem_iff_getElem.1 ((mem_ranked (x := (k, l.getD k 0))).2 ⟨hk, rfl⟩)
    obtain ⟨h8, hb8⟩ := hrank 8 (by omega)
    have hge : 8 ≤ j := Nat.le_of_not_lt fun hlt => by
      obtain ⟨h, hj'⟩ := hrank j (by omega)
      refine hother j hlt ?_
      rw [hbin j hlt, hj', hkj]
    rw [hfloor, hb8]
    rcases hge.lt_or_eq with hlt | heq
    · have := List.pairwise_iff_getElem.1 (ranked_pairwise l) _ _ h8 hj hlt
      rw [hkj] at this
      unfold Before at this
      omega
    · simp only [heq, hkj, le_refl]
  · have := hbefore 7 8 (by omega) (by omega)
    rw [hfloor, hval 7 (by omega)]
    unfold Before at this
    omega

/-! ### The classical metric -/

/-- The classical metric is 4 (E / N0 - 1) rounded and limited (R404). -/
theorem classicMetrics_getD (free : Nat) (l : List Nat) {k : Nat} (hk : k < l.length) (hl : 9 ≤ l.length)
    (hrest : 0 < (l.sum : Int) - ((best 8 (l.map Int.ofNat)).map (·.2)).sum) :
    (classicMetrics free l).getD k 0 = max (-128) (min 127 ⌊4 * ((l.getD k 0 : ℚ) /
      ((((l.sum : Int) - ((best 8 (l.map Int.ofNat)).map (·.2)).sum : Int) : ℚ) / ((l.length : ℚ) - 8)) - 1) + 1 / 2⌋) := by
  unfold classicMetrics
  simp only []
  generalize (l.sum : Int) - ((best 8 (l.map Int.ofNat)).map (·.2)).sum = rest at hrest ⊢
  have hrest' : ((rest.toNat : Nat) : ℚ) = rest := by exact_mod_cast Int.toNat_of_nonneg hrest.le
  have hpos : (0 : ℚ) < rest := by exact_mod_cast hrest
  have hn : (0 : ℚ) < (l.length : ℚ) - 8 := by
    have : (9 : ℚ) ≤ l.length := by exact_mod_cast hl
    linarith
  rw [if_neg hrest.not_ge, List.getD_eq_getElem _ _ (by simpa using hk), List.getElem_map,
    clampI_eq_max_min (by decide), min_comm, roundDiv_eq_floor _ (by omega), hrest', List.getD_eq_getElem _ _ (by simpa [← List.map_eq_flatMap] using hk)]
  simp only [List.pure_def, List.bind_eq_flatMap, ← List.map_eq_flatMap, List.getElem_map]
  congr 4
  push_cast
  field_simp

end Sys2Proof.Machine
end

section
/-! SUPPORT. Reception on the far-reach link, command by command (R399 to R410). -/

namespace Sys2Proof.Claims
open Machine

section
variable (s : State) (m bw : Nat)

theorem frameDetect_cases (shifts : List Nat) (start : Nat) (hon : s.frOn = true) (htx : s.fr.txEn = false)
    (hport : s.fr.jesdUp = true) (hlen : shifts.length = 4) (halt : alternates (2 ^ m) shifts = true) (node : Option Nat)
    (hlisten : s.listens m bw = some node) :
    ((s.rxOf m bw).isSome = true → exec (.frameDetect m bw shifts start) s = .next (s.countDev 0x030 (some 0))) ∧
    (s.rxOf m bw = none → s.fr.rx.length < 4 → (∀ r ∈ s.fr.rx, r.m ≠ m) →
      exec (.frameDetect m bw shifts start) s = .next { s with
        fr := { s.fr with rx := s.fr.rx ++ [⟨m, bw, start, false, node, 0, 0, [], 0, true⟩] } }) := by
  have hexec : exec (.frameDetect m bw shifts start) s = execFrameDetect m bw shifts start s := rfl
  have hgood : ¬ (¬ s.frOn = true ∨ s.fr.txEn = true ∨ ¬ s.fr.jesdUp = true ∨ shifts.length ≠ 4 ∨
      ¬ alternates (2 ^ m) shifts = true) := by simp [hon, htx, hport, hlen, halt]
  simp only [execFrameDetect, hlisten, if_neg hgood] at hexec
  refine ⟨fun hsome => hexec.trans (congrArg Host.Outcome.next (if_pos hsome)), fun hnone hroom hother =>
    hexec.trans (congrArg Host.Outcome.next ((if_neg (by simp [hnone])).trans (if_neg ?_)))⟩
  rw [not_or, List.any_eq_true]
  refine ⟨hroom.not_ge, ?_⟩
  rintro ⟨r, hr, hm⟩
  exact hother r hr (by simpa using hm)

variable {m bw} (r : Rx) (hr : s.rxOf m bw = some r)
include hr

theorem frameConfirm_cases (shifts downs : List Nat) (hnew : r.confirmed = false) :
    let n := 2 ^ m
    let up := signedBin n (shifts.headD 0)
    let dn := signedBin n (downs.headD 0)
    let f := (up + dn + 1) / 2
    let ok := shifts.length = 4 ∧ alternates n (shifts.map (fun x => (x + 4) / 8 % n)) = true ∧ downs.length = 2 ∧
      -(n : Int) ≤ f ∧ f ≤ n
    (ok → exec (.frameConfirm m bw shifts downs) s = .next (s.modRx m bw (fun r => { r with
      confirmed := true, freq := f, time := (dn - up + 1) / 2 }))) ∧
    (¬ ok → exec (.frameConfirm m bw shifts downs) s = .next (s.dropRx m bw)) := by
  have hexec : exec (.frameConfirm m bw shifts downs) s = execFrameConfirm m bw shifts downs s := rfl
  simp only [execFrameConfirm, hr, hnew, Bool.false_eq_true, if_false] at hexec
  exact ⟨fun hok => hexec.trans (congrArg Host.Outcome.next (if_pos hok)),
    fun hbad => hexec.trans (congrArg Host.Outcome.next (if_neg hbad))⟩

theorem symbolDemod_classical (energies : List Nat) (clipped total : Nat) (hconf : r.confirmed = true)
    (hclassic : bit (s.od 0x5800 1) 24 = false) (hclip : 100 * clipped ≤ total) :
    let g := match r.node with | some i => lgGroup (s.ledger i) | none => 0
    let w := softRecord s.nodeId (s.siteIndex g) r.recs.length (classicMetrics s.free energies)
    exec (.symbolDemod m bw energies clipped total) s = .next
      (({ s with free := s.free + energies.length }).modRx m bw (fun r => { r with
        recs := r.recs ++ [w], classic := w, learnedAll := false })) := by
  have hexec : exec (.symbolDemod m bw energies clipped total) s = execSymbolDemod m bw energies clipped total s := rfl
  simp only [execSymbolDemod, hr, hconf, hclassic, not_true_eq_false, if_false, Bool.false_eq_true, Bool.and_false,
    if_neg hclip.not_gt] at hexec
  exact hexec

theorem frLearnedLate_replaces (hlearned : bit (s.od 0x5800 1) 24 = true) (hrecs : r.recs ≠ []) :
    exec (.frLearnedLate m bw) s = .next ((s.modRx m bw (fun r => { r with
      recs := r.recs.dropLast ++ [r.classic], learnedAll := false })).countDev 0x032 (some 0)) := by
  have hexec : exec (.frLearnedLate m bw) s = execFrLearnedLate m bw s := rfl
  simp only [execFrLearnedLate, hr] at hexec
  exact hexec.trans (congrArg Host.Outcome.next (if_pos ⟨hlearned, hrecs⟩))

theorem pilotTrack_cases (f t : Int) (hconf : r.confirmed = true) :
    ((f + t).natAbs ≤ 8 → exec (.pilotTrack m bw f t) s =
      .next (s.modRx m bw (fun r => { r with freq := r.freq + f, time := r.time + t }))) ∧
    (8 < (f + t).natAbs → exec (.pilotTrack m bw f t) s = .next ((s.dropRx m bw).countDev 0x031 (some 0))) := by
  have hexec : exec (.pilotTrack m bw f t) s = execPilotTrack m bw f t s := rfl
  simp only [execPilotTrack, hr, hconf, not_true_eq_false, if_false] at hexec
  exact ⟨fun hnear => hexec.trans (congrArg Host.Outcome.next (if_neg hnear.not_gt)),
    fun hfar => hexec.trans (congrArg Host.Outcome.next (if_pos hfar))⟩

theorem frameEnd_join (hconf : r.confirmed = true) (hnode : r.node = none) :
    exec (.frameEnd m bw) s = .next ((s.dropRx m bw).deliver r.recs m bw none r.start r.learnedAll) := by
  have hexec : exec (.frameEnd m bw) s = execFrameEnd m bw s := rfl
  simp only [execFrameEnd, hr, hconf, hnode, not_true_eq_false, if_false] at hexec
  exact hexec

theorem frameEnd_alone (i : Nat) (hconf : r.confirmed = true) (hnode : r.node = some i)
    (hgroup : lgGroup (s.ledger i) = 0) :
    exec (.frameEnd m bw) s = .next ((s.dropRx m bw).deliver r.recs m bw (some i) r.start r.learnedAll) := by
  have hexec : exec (.frameEnd m bw) s = execFrameEnd m bw s := rfl
  simp only [execFrameEnd, hr, hconf, hnode, not_true_eq_false, if_false] at hexec
  exact hexec.trans (congrArg Host.Outcome.next (if_pos (.inl hgroup)))

/-- The records of a frame go to the home site of the node's group (R418). -/
theorem frameEnd_elsewhere (i : Nat) (hconf : r.confirmed = true) (hnode : r.node = some i)
    (hlo : 0 < lgGroup (s.ledger i)) (hhi : lgGroup (s.ledger i) ≤ 64)
    (hhome : s.siteOf (lgGroup (s.ledger i)) 0 ≠ s.nodeId) : ∃ t, exec (.frameEnd m bw) s = .next t ∧
      t.out = (s.dropRx m bw).out ++ r.recs.map (fun w =>
        .frRecord (s.siteOf (lgGroup (s.ledger i)) 0) (lgAddr (s.ledger i)) (lgEpoch (s.ledger i)) w) ∧
      t.fr = (s.dropRx m bw).fr ∧ t.mem = (s.dropRx m bw).mem ∧ t.dict = (s.dropRx m bw).dict := by
  have hexec : exec (.frameEnd m bw) s = execFrameEnd m bw s := rfl
  have hgroup : ¬ (lgGroup (s.ledger i) = 0 ∨ 64 < lgGroup (s.ledger i)) := by omega
  simp only [execFrameEnd, hr, hconf, hnode, not_true_eq_false, if_false, if_neg hgroup, if_neg hhome, foldl_emit] at hexec
  exact ⟨_, hexec, rfl, rfl, rfl, rfl⟩

theorem frameTimeout_drops : exec (.frameTimeout m bw) s = .next ((s.dropRx m bw).countDev 0x035 (some 0)) :=
  congrArg Host.Outcome.next (if_pos (by rw [hr]; rfl))

end

/-- The gain follows the mean power of 500 ns, in 2^-16 dB above the target (R407 to R409). -/
theorem agcUpdate_cases (s : State) (p : Int) (hon : s.frOn = true) :
    let d : ℚ := (p : ℚ) / 2 ^ 16 - (sext 16 (s.od 0x5800 2) : ℚ) / 4
    let n := min 200 (s.fr.since + 1)
    (s.agcFrozen = true → exec (.agcUpdate p) s = .next { s with fr := { s.fr with since := n } }) ∧
    (s.agcFrozen = false → 3 < d → exec (.agcUpdate p) s = .next { s with
      fr := { s.fr with gain := s.fr.gain - min 6 ⌈d⌉.toNat, since := n } }) ∧
    (s.agcFrozen = false → d < -6 → n = 200 → exec (.agcUpdate p) s = .next { s with
      fr := { s.fr with gain := min 63 (s.fr.gain + 1), since := 0 } }) ∧
    (s.agcFrozen = false → d ≤ 3 → (-6 ≤ d ∨ n < 200) → exec (.agcUpdate p) s = .next { s with
      fr := { s.fr with since := n } }) := by
  intro d n
  set e : Int := p - sext 16 (s.od 0x5800 2) * 2 ^ 14 with he
  have hd : d = (e : ℚ) / 2 ^ 16 := by
    simp only [d, he]
    push_cast
    ring
  have hceil : ⌈d⌉ = (e + 65535) / 65536 := by
    rw [hd, Int.ceil_eq_iff]
    constructor
    · have h : ((((e + 65535) / 65536 : Int) : ℚ) - 1) * 65536 < e := by
        have : ((e + 65535) / 65536 - 1) * 65536 < e := by omega
        exact_mod_cast this
      linarith
    · have h : (e : ℚ) ≤ (((e + 65535) / 65536 : Int) : ℚ) * 65536 := by
        have : e ≤ (e + 65535) / 65536 * 65536 := by omega
        exact_mod_cast this
      linarith
  have hloud : 3 < d ↔ 3 * 2 ^ 16 < e := by
    rw [hd, lt_div_iff₀ (by norm_num)]
    exact_mod_cast Iff.rfl
  have hquiet : d < -6 ↔ e < -(6 * 2 ^ 16) := by
    rw [hd, div_lt_iff₀ (by norm_num), show (-6 : ℚ) * 2 ^ 16 = ((-(6 * 2 ^ 16) : Int) : ℚ) by norm_num]
    exact_mod_cast Iff.rfl
  have hexec : exec (.agcUpdate p) s = execAgcUpdate p s := rfl
  simp only [execAgcUpdate, hon, not_true_eq_false, if_false] at hexec
  refine ⟨fun hfrozen => ?_, fun hfree hl => ?_, fun hfree hq hn => ?_, fun hfree hl hq => ?_⟩
  · exact hexec.trans (congrArg Host.Outcome.next (if_pos hfrozen))
  all_goals simp only [hfree, Bool.false_eq_true, if_false] at hexec
  · rw [hceil]
    exact hexec.trans (congrArg Host.Outcome.next (if_pos (hloud.1 hl)))
  · have hq' := hquiet.1 hq
    exact hexec.trans (congrArg Host.Outcome.next ((if_neg (by rw [← he]; omega)).trans (if_pos ⟨hq', hn.ge⟩)))
  · refine hexec.trans (congrArg Host.Outcome.next ((if_neg fun h => hl.not_gt (hloud.2 h)).trans (if_neg ?_)))
    rintro ⟨hlow, hfull⟩
    exact hq.elim (fun h => h.not_gt (hquiet.2 hlow)) (fun h => h.not_ge hfull)

theorem noiseFloorUpdate_cases (s : State) (samples : Nat) (mean : Int) :
    (samples < 32000 → exec (.noiseFloorUpdate samples mean) s = .next (s.setOd 0x5801 2 1)) ∧
    (32000 ≤ samples → exec (.noiseFloorUpdate samples mean) s = .next
      ((s.setOd 0x5801 1 (enc 16 ⌊(mean : ℚ) / 2 ^ 14 + 1 / 2⌋)).setOd 0x5801 2 0)) := by
  have hround : roundDiv mean 16384 = ⌊(mean : ℚ) / 2 ^ 14 + 1 / 2⌋ := by
    rw [roundDiv_eq_floor mean (by decide)]
    norm_num
  rw [← hround]
  exact ⟨fun hfew => congrArg Host.Outcome.next (if_pos hfew), fun hmany => congrArg Host.Outcome.next (if_neg hmany.not_gt)⟩

end Sys2Proof.Claims

open Sys2Proof.Claims Sys2Proof.Machine

/-- Settles O29: the reflected-binary code telescopes, the record's bins are the head of the ranked list, and each case of a
command is one of its branches. -/
theorem farReachReception : Obligations.FarReachReception := by
  refine ⟨fun w b hb => ⟨gray_lt hb, ungray_gray hb⟩, fun m coded _ => length_chirpsOf coded,
    fun src site idx l hlo hhi hv => ?_, fun free l k hk hl hrest => classicMetrics_getD free l hk hl hrest,
    fun s m bw shifts start hon htx hport hlen halt node hlisten =>
      frameDetect_cases s m bw shifts start hon htx hport hlen halt node hlisten,
    fun s m bw r hr => ⟨frameConfirm_cases s r hr, symbolDemod_classical s r hr, frLearnedLate_replaces s r hr,
      pilotTrack_cases s r hr, frameEnd_join s r hr, frameEnd_alone s r hr, frameEnd_elsewhere s r hr,
      frameTimeout_drops s r hr⟩, agcUpdate_cases, noiseFloorUpdate_cases⟩
  obtain ⟨hcand, horder, hrest, hfloor⟩ := softRecord_lists src site idx l hlo hhi hv
  exact ⟨hcand, horder, hrest, hfloor, softRecord_head src site idx l⟩

end

section
/-! SUPPORT. Far-reach transmission, sleeping nodes, combining and the converter port (R411 to R420). -/

namespace Sys2Proof.Claims
open Machine

section
variable (s : State)

/-! ### Transmission -/

/-- An entry of good form leaves: the transmitter is enabled, the receiver is not (R411). -/
theorem sendEntry_sends {e : Nat} (addr : Nat) (hform : s.txForm e ≠ none) :
    (s.sendEntry addr e).fr = { s.fr with txBusy := true, txEn := true, rxEn := false } ∧
    (s.sendEntry addr e).mem = s.mem ∧ (s.sendEntry addr e).dict = s.dict ∧ (s.sendEntry addr e).dictP = s.dictP ∧
    (s.sendEntry addr e).cores = s.cores := by
  obtain ⟨f, hf⟩ := Option.ne_none_iff_exists'.1 hform
  simp only [State.sendEntry, hf]
  exact ⟨rfl, rfl, rfl, rfl, rfl⟩

theorem frTransmit_cases (e : FrTx) :
    let w := e.toNat
    let r := s.ring 0 0x2820
    let addr := r.base + r.cons % 2 ^ r.log2n * 128
    let s1 := s.setRing 0 0x2820 { r with cons := (r.cons + 1) % 2 ^ 32 }
    r.enable = true → r.count ≠ 0 →
    (s.frOn = false → exec (.frTransmit e) s = .next (s1.txStatus addr w 3 0)) ∧
    (s.frOn = true → s.txForm w = none → exec (.frTransmit e) s = .next (s1.txStatus addr w 2 0)) ∧
    (s.frOn = true → s.txForm w ≠ none → bits w 511 416 ≠ 0 → bits w 511 416 < s.stamp →
      exec (.frTransmit e) s = .next (s1.txStatus addr w 1 0)) ∧
    (s.frOn = true → s.txForm w ≠ none → bits w 511 416 = 0 ∨ bits w 511 416 = s.stamp →
      (s.fr.rx ≠ [] → exec (.frTransmit e) s = .next
        (({ s1 with fr := { s1.fr with deferred := s1.fr.deferred ++ [(addr, w)] } }).countDev 0x034 (some 0))) ∧
      (s.fr.rx = [] → s.fr.txBusy = false → ∃ t, exec (.frTransmit e) s = .next t ∧
        t.fr.txEn = true ∧ t.fr.rxEn = false ∧ t.mem = s.mem ∧ t.dict = s.dict ∧ t.dictP = s.dictP ∧ t.cores = s.cores)) := by
  intro w r addr s1 henable hcount
  have hexec : exec (.frTransmit e) s = execFrTransmit e s := rfl
  have htaken : ¬ (¬ (s.ring 0 0x2820).enable = true ∨ (s.ring 0 0x2820).count = 0) :=
    not_or.2 ⟨not_not_intro henable, hcount⟩
  simp only [execFrTransmit, if_neg htaken] at hexec
  refine ⟨fun hoff => ?_, fun hon hbad => ?_, fun hon hform hstart hpast => ?_, fun hon hform hnow => ?_⟩
  · exact hexec.trans (congrArg Host.Outcome.next (if_pos (by rw [hoff]; exact Bool.false_ne_true)))
  all_goals simp only [hon, not_true_eq_false, if_false] at hexec
  · exact hexec.trans (congrArg Host.Outcome.next (if_pos hbad))
  · have hform' : ¬ s.txForm e.toNat = none := hform
    simp only [if_neg hform'] at hexec
    exact hexec.trans (congrArg Host.Outcome.next ((if_neg hpast.not_gt).trans (if_pos ⟨hstart, hpast⟩)))
  · have hform' : ¬ s.txForm e.toNat = none := hform
    have hnow' : bits e.toNat 511 416 = 0 ∨ bits e.toNat 511 416 = s.stamp := hnow
    have hnotfuture : ¬ s.stamp < bits e.toNat 511 416 := by omega
    have hnotpast : ¬ (bits e.toNat 511 416 ≠ 0 ∧ bits e.toNat 511 416 < s.stamp) := by omega
    simp only [if_neg hform', if_neg hnotfuture, if_neg hnotpast] at hexec
    refine ⟨fun hrx => hexec.trans (congrArg Host.Outcome.next (if_pos (by simpa using hrx))), fun hrx hbusy => ?_⟩
    have hidle : ¬ ¬ s.fr.rx.isEmpty = true := by simp [hrx]
    simp only [if_neg hidle, hbusy, Bool.false_eq_true, if_false] at hexec
    obtain ⟨hfr, hmem, hdict, hdictP, hcores⟩ := sendEntry_sends s1 addr (e := w) hform
    exact ⟨_, hexec, by rw [hfr], by rw [hfr], hmem, hdict, hdictP, hcores⟩

theorem frTxTailEnd_ends (hbusy : s.fr.txBusy = true) (hnone : s.fr.deferred = []) :
    exec .frTxTailEnd s = .next { s with fr := { s.fr with txBusy := false, txEn := false, rxEn := s.frOn } } := by
  refine congrArg Host.Outcome.next ((if_pos hbusy).trans ?_)
  simp [State.sendDeferred, hnone]

/-! ### Sleeping nodes -/

/-- The half-width of a node's window, in 10^-9 timebase units as the model keeps it (R414). -/
theorem halfWidth_cast (w : Nat) :
    ((halfWidth w).1 : ℚ) = (lgGuard w : ℚ) * usUnits * 10 ^ 9 ∧
    ((halfWidth w).2 : ℚ) = ((lgGuard w : ℚ) * usUnits + |(lgDrift w : ℚ)| / 10 ^ 9 *
      ((ofTime96 (lgWake w) : ℚ) - ofTime96 (lgHeard w))) * 10 ^ 9 := by
  constructor
  · simp only [halfWidth]
    push_cast
    norm_num
  · simp only [halfWidth]
    push_cast
    ring

theorem nodeOccurrence_cases (i : Nat) :
    let w := s.ledger i
    let t : ℚ := ofTime96 (lgWake w)
    let g : ℚ := (lgGuard w : ℚ) * usUnits
    let h : ℚ := g + |(lgDrift w : ℚ)| / 10 ^ 9 * (t - ofTime96 (lgHeard w))
    s.frOn = true → i < s.od 0x5800 6 → lgState w = 1 → (∀ x ∈ s.fr.windows, x.node ≠ i) →
    (8 * g < h → t ≤ s.time.now → exec (.nodeOccurrence i) s = .next (s.loseNode i)) ∧
    (h ≤ 8 * g → t - h ≤ s.time.now → (∃ z : Int, h = z) → ∃ x : RxWindow,
      exec (.nodeOccurrence i) s = .next { s with fr := { s.fr with windows := s.fr.windows ++ [x] } } ∧
      x.node = i ∧ x.heard = false ∧ (x.opens : ℚ) = t - h ∧ (x.closes : ℚ) = t + h +
        frameTime (lgM w) (lgBw w) (symbolsOf (lgM w) (lgLen w + 1) (lgCr w))) := by
  intro w t g h hon hi hst hnone
  obtain ⟨hg, hh⟩ := halfWidth_cast w
  have hg : ((halfWidth w).1 : ℚ) = g * 10 ^ 9 := hg
  have hh : ((halfWidth w).2 : ℚ) = h * 10 ^ 9 := hh
  have hwide : 8 * (halfWidth w).1 < (halfWidth w).2 ↔ 8 * g < h := by
    rw [← @Int.cast_lt ℚ]
    push_cast
    rw [hg, hh]
    constructor <;> intro <;> linarith
  have ht : t = ((ofTime96 (lgWake (s.ledger i)) : Int) : ℚ) := rfl
  have hexec : exec (.nodeOccurrence i) s = execNodeOccurrence i s := rfl
  have hserved : ¬ (¬ s.frOn = true ∨ s.od 0x5800 6 ≤ i ∨ lgState (s.ledger i) ≠ 1 ∨
      s.fr.windows.any (fun x => x.node == i) = true) := by
    rw [not_or, not_or, not_or]
    exact ⟨not_not_intro hon, hi.not_ge, not_not_intro hst, by simpa using hnone⟩
  simp only [execNodeOccurrence, if_neg hserved] at hexec
  refine ⟨fun hlost hdue => ?_, fun hkept hdue hint => ?_⟩
  · have hdue' : (ofTime96 (lgWake (s.ledger i)) : Int) ≤ s.time.now := by
      rw [ht] at hdue
      exact_mod_cast hdue
    have hlost' : 8 * (halfWidth (s.ledger i)).1 < (halfWidth (s.ledger i)).2 := hwide.2 hlost
    simp only [if_pos hlost'] at hexec
    exact hexec.trans (congrArg Host.Outcome.next (if_pos hdue'))
  · obtain ⟨z, hz⟩ := hint
    have hhw : (halfWidth (s.ledger i)).2 / 1000000000 = z := by
      have hprod : (halfWidth (s.ledger i)).2 = z * 1000000000 := by
        rw [hz] at hh
        norm_num at hh
        exact_mod_cast hh
      rw [hprod]
      omega
    have hdue' : (ofTime96 (lgWake (s.ledger i)) : Int) - z ≤ s.time.now := by
      rw [hz, ht] at hdue
      exact_mod_cast hdue
    have hkept' : ¬ 8 * (halfWidth (s.ledger i)).1 < (halfWidth (s.ledger i)).2 := fun hlost => hkept.not_gt (hwide.1 hlost)
    simp only [if_neg hkept', hhw, if_pos hdue'] at hexec
    refine ⟨_, hexec, rfl, rfl, ?_, ?_⟩
    · rw [hz, ht]
      push_cast
      rfl
    · rw [hz, ht]
      push_cast
      rfl

theorem nodeHeard_updates (i arrival : Nat) (hopen : (s.fr.windows.any (fun x => x.node == i)) = true) :
    exec (.nodeHeard i arrival) s = .next { (s.takeFree).2.setLedger i
        (setBits (setBits (setBits (s.ledger i) 287 256 (newDrift s.takeFree.1 (s.ledger i) arrival)) 135 128 0)
          255 160 arrival) with
      fr := { s.fr with windows := s.fr.windows.map (fun x => if x.node = i then { x with heard := true } else x) } } := by
  refine congrArg Host.Outcome.next ((if_pos hopen).trans ?_)
  simp only [State.setLedger, State.wr_fr]
  rfl

/-- The new drift is the old one moved a quarter of the way to the one measured (R415). -/
theorem newDrift_eq (free w arrival : Nat) :
    let span : Int := (ofTime96 (lgWake w) : Int) - ofTime96 (lgHeard w)
    let dm : Int := ⌊((ofTime96 arrival : ℚ) - ofTime96 (lgWake w)) / span * 10 ^ 9 + 1 / 2⌋
    let d : Int := lgDrift w + ⌊((dm : ℚ) - lgDrift w) / 4 + 1 / 2⌋
    span ≠ 0 → -(2 ^ 31) ≤ d → d < 2 ^ 31 → newDrift free w arrival = enc 32 d := by
  intro span dm d hspan hlo hhi
  set delta : Int := (ofTime96 arrival : Int) - ofTime96 (lgWake w) with hdelta
  have hdm : (if span < 0 then roundDiv (-(delta * 1000000000)) (-span).toNat else roundDiv (delta * 1000000000) span.toNat) =
      dm := by
    have hquot : ((ofTime96 arrival : ℚ) - ofTime96 (lgWake w)) / span * 10 ^ 9 = (delta * 1000000000 : Int) / (span : ℚ) := by
      rw [hdelta]
      push_cast
      ring
    split
    · next hneg =>
      have hcast : (((-span).toNat : Nat) : ℚ) = -(span : ℚ) := by
        exact_mod_cast Int.toNat_of_nonneg (by omega : 0 ≤ -span)
      rw [roundDiv_eq_floor _ (by omega), hcast, Int.cast_neg, neg_div_neg_eq]
      simp only [dm, hquot]
    · next hpos =>
      have hcast : ((span.toNat : Nat) : ℚ) = (span : ℚ) := by
        exact_mod_cast Int.toNat_of_nonneg (by omega : 0 ≤ span)
      rw [roundDiv_eq_floor _ (by omega), hcast]
      simp only [dm, hquot]
  have hd : lgDrift w + roundDiv (dm - lgDrift w) 4 = d := by
    rw [roundDiv_eq_floor _ (by decide)]
    simp only [d]
    push_cast
    rfl
  have hin : ¬ (span = 0 ∨ d < -(2 ^ 31) ∨ 2 ^ 31 ≤ d) := by omega
  have hnew : newDrift free w arrival = if span = 0 ∨ d < -(2 ^ 31) ∨ 2 ^ 31 ≤ d then free % 2 ^ 32 else enc 32 d := by
    rw [← hd, ← hdm]
    rfl
  rw [hnew, if_neg hin]

theorem occurrenceEnd_cases (i : Nat) (x : RxWindow) (hx : s.fr.windows.find? (fun x => x.node == i) = some x)
    (hover : x.closes ≤ s.time.now) :
    let w := s.ledger i
    let w1 := setBits (setBits w 479 384 (addNs (lgWake w) (lgPeriod w))) 159 136 (lgEpoch w + 1)
    let s1 := { s with fr := { s.fr with windows := s.fr.windows.filter (fun y => y.node != i) } }
    (x.heard = true → exec (.occurrenceEnd i) s = .next (s1.setLedger i w1)) ∧
    (x.heard = false → lgMiss w + 1 < s.od 0x5800 3 → lgMiss w < 255 →
      exec (.occurrenceEnd i) s = .next (s1.setLedger i (setBits w1 135 128 (lgMiss w + 1)))) ∧
    (x.heard = false → s.od 0x5800 3 ≤ lgMiss w + 1 → lgMiss w < 255 →
      exec (.occurrenceEnd i) s = .next ((s1.setLedger i (setBits w1 135 128 (lgMiss w + 1))).loseNode i)) := by
  intro w w1 s1
  have hexec : exec (.occurrenceEnd i) s = execOccurrenceEnd i s := rfl
  simp only [execOccurrenceEnd, hx, if_neg hover.not_gt] at hexec
  refine ⟨fun hheard => ?_, fun hmissed hfew hsmall => ?_, fun hmissed hmany hsmall => ?_⟩
  · exact hexec.trans (congrArg Host.Outcome.next (if_pos hheard))
  all_goals
    have hmin : min 255 (lgMiss (s.ledger i) + 1) = lgMiss (s.ledger i) + 1 := min_eq_right hsmall
    simp only [hmissed, Bool.false_eq_true, if_false, hmin] at hexec
  · exact hexec.trans (congrArg Host.Outcome.next (if_neg hfew.not_ge))
  · exact hexec.trans (congrArg Host.Outcome.next (if_pos hmany))

/-! ### Beacons and JOIN -/

theorem beacon_sends (hon : s.frOn = true) (hrx : s.fr.rx = []) (hbusy : s.fr.txBusy = false) (hlost : s.anyLost = true) :
    ∃ t, exec .beacon s = .next t ∧
      t.fr.txEn = true ∧ t.fr.rxEn = false ∧ t.fr.txBusy = true ∧ t.mem = s.mem ∧ t.dict = s.dict ∧ t.cores = s.cores := by
  have hexec : exec .beacon s = execBeacon s := rfl
  have hsend : s.frOn = true ∧ s.anyLost = true ∧ s.fr.rx.isEmpty = true ∧ ¬ s.fr.txBusy = true := by simp [hon, hrx, hbusy, hlost]
  simp only [execBeacon, if_pos hsend] at hexec
  exact ⟨_, hexec, rfl, rfl, rfl, rfl, rfl, rfl⟩

theorem joinFrame_told (addr : BitVec 32) (arrival i : Nat) (hi : i < s.od 0x5800 6) (hst : lgState (s.ledger i) = 2)
    (haddr : lgAddr (s.ledger i) = addr.toNat) :
    exec (.joinFrame addr arrival) s = .next (s.raiseAt arrival ⟨0, 0x0121, some 0, 0, 0, 0, 0, addr.toNat⟩) :=
  congrArg Host.Outcome.next (if_pos (List.any_eq_true.2 ⟨i, List.mem_range.2 hi, by simp [hst, haddr]⟩))

/-! ### Combining -/

variable (addr : BitVec 32) (epoch : BitVec 24)

theorem combineRecord_unknown (r : BitVec 256) (hnone : s.nodeOf addr.toNat = none) :
    exec (.combineRecord addr epoch r) s = .next (s.countDev 0x036 (some 0)) := by
  have hexec : exec (.combineRecord addr epoch r) s = execCombineRecord addr epoch r s := rfl
  simp only [execCombineRecord, hnone] at hexec
  exact hexec

theorem combineRecord_home (r : BitVec 256) (i : Nat) (hnode : s.nodeOf addr.toNat = some i)
    (hlo : 0 < lgGroup (s.ledger i)) (hhi : lgGroup (s.ledger i) ≤ 64)
    (hhome : s.siteOf (lgGroup (s.ledger i)) 0 = s.nodeId) :
    (s.fr.combines.find? (fun c => c.addr == addr.toNat && c.epoch == epoch.toNat) = none →
      exec (.combineRecord addr epoch r) s = .next { s with fr := { s.fr with
        combines := s.fr.combines ++ [⟨addr.toNat, epoch.toNat, [r.toNat], none, false, false⟩] } }) ∧
    (∀ c, s.fr.combines.find? (fun c => c.addr == addr.toNat && c.epoch == epoch.toNat) = some c →
      (c.closed = true ∨ ∃ x ∈ c.recs, bits x 23 0 = bits r.toNat 23 0) →
      exec (.combineRecord addr epoch r) s = .next (s.countDev 0x036 (some 0))) := by
  have hexec : exec (.combineRecord addr epoch r) s = execCombineRecord addr epoch r s := rfl
  have hours : ¬ (lgGroup (s.ledger i) = 0 ∨ 64 < lgGroup (s.ledger i) ∨ s.siteOf (lgGroup (s.ledger i)) 0 ≠ s.nodeId) := by
    simp only [hhome, ne_eq, not_true_eq_false, or_false]
    omega
  simp only [execCombineRecord, hnode, if_neg hours, State.takeRecord] at hexec
  refine ⟨fun hnew => ?_, fun c hc hdup => ?_⟩
  · simp only [hnew] at hexec
    exact hexec
  · simp only [hc] at hexec
    exact hexec.trans (congrArg Host.Outcome.next (if_pos (by simpa using hdup)))

theorem combineWait_none (hnone : s.fr.combines = []) : exec (.combineWait addr epoch) s = .next s := by
  have hexec : exec (.combineWait addr epoch) s = execCombineWait addr epoch s := rfl
  simp only [execCombineWait, hnone, List.find?_nil] at hexec
  exact hexec

theorem combineWait_delivers (c : Combine) (i : Nat) (hc : s.fr.combines = [c]) (haddr : c.addr = addr.toNat)
    (hepoch : c.epoch = epoch.toNat) (hopen : c.closed = false) (hnode : s.nodeOf addr.toNat = some i) :
    ∃ arr lrn, exec (.combineWait addr epoch) s = .next
      (({ s.takeFree.2 with fr := { s.fr with combines := [{ c with closed := true }] } }).deliver c.recs
        (lgM (s.ledger i)) (lgBw (s.ledger i)) (some i) arr lrn) ∧ (∀ a, c.arrival = some a → arr = a) := by
  have hexec : exec (.combineWait addr epoch) s = execCombineWait addr epoch s := rfl
  have hfind : s.fr.combines.find? (fun c => c.addr == addr.toNat && c.epoch == epoch.toNat && !c.closed) = some c := by
    simp [hc, haddr, hepoch, hopen]
  have hmap : s.fr.combines.map (fun (d : Combine) =>
      if d.addr = addr.toNat ∧ d.epoch = epoch.toNat then { d with closed := true } else d) = [{ c with closed := true }] := by
    simp [hc, haddr, hepoch]
  simp only [execCombineWait, hfind, hnode, hmap] at hexec
  exact ⟨_, _, hexec, fun a ha => by rw [ha]; rfl⟩

/-! ### The converter port -/

/-- A half of a signal core's receive ring: the other half is next, and the source is raised (R420). -/
theorem converter_fills (g : SigId) (first : Nat) (samples : List (Int × Int)) (hon : s.frOn = true)
    (hport : s.fr.jesdUp = true) : ∃ t,
    exec (.converter g first samples) s = .next t ∧ t.fr.ringHalf = sput s.fr.ringHalf zeroD g.val
      (1 - sget s.fr.ringHalf zeroD g.val) ∧ (t.sig g).ipend.getLsbD 3 = true ∧ t.cores = s.cores ∧ t.dict = s.dict := by
  have hexec : exec (.converter g first samples) s = execConverter g first samples s := rfl
  have hup : ¬ (¬ s.frOn = true ∨ ¬ s.fr.jesdUp = true) := by simp [hon, hport]
  simp only [execConverter, if_neg hup] at hexec
  refine ⟨_, hexec, ?_, ?_, ?_, ?_⟩ <;> simp [State.sigRaise]

theorem frJesd_cases (lock : Bool) (n : Nat) (hon : s.frOn = true) :
    ((lock = true ∨ 16 < n) → exec (.frJesd lock n) s = .next
      (({ s with fr := { s.fr with txEn := false, rx := [], jesdUp := false } }).warn 0x0122 (some 0) 0 0 0)) ∧
    ((lock = false ∧ n ≤ 16) → exec (.frJesd lock n) s = .next s) :=
  ⟨fun hlost => congrArg Host.Outcome.next (if_pos ⟨hon, hlost⟩),
    fun hgood => congrArg Host.Outcome.next (if_neg (by simp [hgood.1, hgood.2]))⟩

end

end Sys2Proof.Claims

open Sys2Proof.Claims Sys2Proof.Machine

/-- Settles O30, one lemma for each command: each case is one branch, and the half-width and the drift are the rational ones. -/
theorem farReachNodesAndPort : Obligations.FarReachNodesAndPort := fun s =>
  ⟨frTransmit_cases s, frTxTailEnd_ends s, nodeOccurrence_cases s, nodeHeard_updates s, newDrift_eq, occurrenceEnd_cases s,
    beacon_sends s, fun hnone => congrArg Host.Outcome.next (if_neg (by simp [hnone])), joinFrame_told s,
    fun addr epoch r => ⟨combineRecord_unknown s addr epoch r, combineRecord_home s addr epoch r, combineWait_none s addr epoch,
      combineWait_delivers s addr epoch⟩,
    converter_fills s, frJesd_cases s, rfl⟩

end

section
/-! SUPPORT. Thermal limits, boot and the service levels (R552 to R558, R568). -/

namespace Sys2Proof.Claims
open Machine

theorem claimPowerCapWarns_holds : claimPowerCapWarns := by
  rintro k s ⟨p, hp, howner, hlow⟩
  exact congrArg Host.Outcome.next (if_pos (List.any_eq_true.2 ⟨p, List.mem_range.2 hp, by simp [howner, hlow]⟩))

theorem claimThermalThrottleAndRestore_holds : claimThermalThrottleAndRestore := by
  intro l s hrun r c s1
  have hexec : exec (.thermalRead l) s = execThermalRead l s := rfl
  simp only [execThermalRead, hrun, Bool.false_eq_true, if_false] at hexec
  refine ⟨fun hhot hcalm => ?_, fun hhot hthrottled => ?_, fun hcool hmid => ?_, fun hcool hthrottled => ?_,
    fun hthrottled hhot => congrArg Host.Outcome.next (if_pos ⟨hthrottled, hhot, by rw [hrun]; exact Bool.false_ne_true⟩)⟩
  · exact hexec.trans (congrArg Host.Outcome.next ((if_pos hhot).trans (if_neg (by rw [hcalm]; exact Bool.false_ne_true))))
  · exact hexec.trans (congrArg Host.Outcome.next ((if_pos hhot).trans (if_pos hthrottled)))
  · refine hexec.trans (congrArg Host.Outcome.next ((if_neg hcool.not_gt).trans (if_neg ?_)))
    rintro ⟨hthrottled, hlow⟩
    exact hmid.elim (fun h => Bool.false_ne_true (h.symm.trans hthrottled)) (fun h => hlow.not_gt h)
  · refine hexec.trans (congrArg Host.Outcome.next ((if_neg ?_).trans (if_pos ⟨hthrottled, hcool⟩)))
    have hcool' : hottest l ≤ s.threshold - 40 := hcool
    omega

theorem claimThermalTripStopsClocks_holds : claimThermalTripStopsClocks := by
  intro s hrun
  refine ⟨_, congrArg Host.Outcome.next (if_neg (by rw [hrun]; exact Bool.false_ne_true)), rfl, rfl, fun p => ?_, ?_,
    fun g mine k => ?_⟩
  · exact if_neg fun h => h.2.2 rfl
  · exact congrArg Host.Outcome.next (if_pos rfl)
  · exact if_pos (Bool.or_true _)

theorem claimFaultPinConditions_holds : claimFaultPinConditions := fun s => by
  simp [State.faultPin, or_assoc]

/-! ### Boot and the service levels -/

theorem setLevel_power_level (s : State) (v : Nat) : (s.setLevel v).power.level = v := by
  unfold State.setLevel
  split
  · assumption
  · rw [State.info, State.raise, State.raiseAt_eq]

/-- A change of level is told, and changes nothing beside the level but what a notice does. -/
theorem setLevel_frame (s : State) (v : Nat) : ∃ c j a w, s.setLevel v =
    { s with
      power := { s.power with level := v, alertLow := a }
      host := { s.host with chans := c, journalNew := j }
      visor := w } := by
  unfold State.setLevel
  split
  · next h => exact ⟨s.host.chans, s.host.journalNew, s.power.alertLow, s.visor, by rw [← h]⟩
  · exact ⟨_, _, _, _, State.raiseAt_eq _ _ _⟩

theorem warn_tripped (s : State) (code : Nat) (part : Option Nat) (kind unit payload : Nat) :
    (s.warn code part kind unit payload).power.tripped = s.power.tripped := by
  rw [State.warn, State.raise, State.raiseAt_eq]

theorem crownUp_tripped (s : State) : s.crownUp.power.tripped = false := by
  have hcleared : (if s.power.tripped then
      let t := toTime96 s.power.tripTime
      let s0 := s.faultNotice 0x0172 none 0 0 (bits t 79 48 * 2 ^ 32 + bits t 47 16)
      { s0 with power := { s0.power with tripped := false } }
    else s).power.tripped = false := by
    split
    · rfl
    · next h => exact Bool.eq_false_of_not_eq_true h
  unfold State.crownUp
  simp only []
  split
  · rw [warn_tripped]
    split
    · rw [warn_tripped]
      exact hcleared
    · exact hcleared
  · split
    · rw [warn_tripped]
      exact hcleared
    · exact hcleared

theorem bootVerify_slots (s : State) (hlevel : s.power.level = 0) (hnew : s.power.verified = false)
    (hrun : s.power.stopped = false) (hstrap : s.power.straps % 4 ≠ 2) : ∃ t, exec .bootVerify s = .next t ∧
      ((t.power.level = 0 ∧ t.power.verified = true ∧ t.power.otherSlot = s.power.otherSlot ∧
          t.safety.activeSlot = s.safety.activeSlot) ∨
       (t.power.level = 0 ∧ t.power.verified = true ∧ t.power.otherSlot = true ∧
          t.safety.activeSlot = 1 - s.safety.activeSlot) ∨
       (t.power.level = 6 ∧ t.power.verified = false)) := by
  have hexec : exec .bootVerify s = execBootVerify s := rfl
  have hfirst : ¬ (s.power.level ≠ 0 ∨ s.power.verified = true ∨ s.power.stopped = true) := by simp [hlevel, hnew, hrun]
  simp only [execBootVerify, if_neg hfirst, if_neg hstrap] at hexec
  refine ⟨_, hexec, ?_⟩
  split
  · exact .inl ⟨hlevel, rfl, rfl, rfl⟩
  · split
    · exact .inr (.inl ⟨hlevel, rfl, rfl, rfl⟩)
    · refine .inr (.inr ⟨setLevel_power_level _ _, ?_⟩)
      obtain ⟨c, j, a, w, hframe⟩ := setLevel_frame ({ s.takeFree.2.takeFree.2 with
        host := { s.takeFree.2.takeFree.2.host with pcieUp := true } }) 6
      rw [hframe]
      exact hnew

theorem claimBootVerifyOutcomes_holds : claimBootVerifyOutcomes := by
  intro s hlevel hnew hrun
  have hfirst : ¬ (s.power.level ≠ 0 ∨ s.power.verified = true ∨ s.power.stopped = true) := by simp [hlevel, hnew, hrun]
  exact ⟨fun hstrap => congrArg Host.Outcome.next ((if_neg hfirst).trans (if_pos hstrap)),
    bootVerify_slots s hlevel hnew hrun⟩

/-- A canton's first start makes position 8 its ready spare (log 151). -/
theorem cantonStart_first (x : State) (c : Nat) (hc : c < 8) (hspare : x.safety.spare.length = 8)
    (hrail : x.safety.railOk.length = 8) (hst : x.safety.spareSt.length = 8) (hoff : x.safety.railOk.getD c false = false)
    (hnone : x.safety.spare.getD c none = none) (hretired : ∀ p ∈ x.safety.retired, p / 9 ≠ c) :
    (x.cantonStart c).safety.railOk.getD c false = true ∧ (x.cantonStart c).safety.spareSt.getD c .none = .ready ∧
      (x.cantonStart c).safety.spare.getD c none = some 8 := by
  have hfirst : ¬ (x.safety.railOk.getD c false = true ∨ (x.safety.spare.getD c none).isSome = true ∨
      x.safety.retired.any (fun p => p / 9 == c) = true) := by
    rw [hoff, hnone]
    simpa using hretired
  unfold State.cantonStart
  rw [if_neg hfirst]
  simp [List.getD_eq_getElem?_getD, hc, hspare, hrail, hst]

theorem claimServiceLevelsInOrder_holds : claimServiceLevelsInOrder := by
  intro ok s hrun
  have hrun' : ¬ s.power.stopped = true := by rw [hrun]; exact Bool.false_ne_true
  intro s1
  refine ⟨fun hlevel hver => congrArg Host.Outcome.next ((if_neg hrun').trans ?_), fun hlevel hred => congrArg Host.Outcome.next ((if_neg hrun').trans ?_), fun hlevel hred => congrArg Host.Outcome.next ((if_neg hrun').trans ?_),
    fun hlevel => congrArg Host.Outcome.next ((if_neg hrun').trans ?_), fun hlevel hdom => congrArg Host.Outcome.next ((if_neg hrun').trans ?_), fun hlevel hdom => congrArg Host.Outcome.next ((if_neg hrun').trans ?_),
    fun hlevel hok => congrArg Host.Outcome.next ((if_neg hrun').trans ?_), cantonStart_first, crownUp_tripped, fun x v => ⟨setLevel_power_level x v, ?_⟩⟩
  · rw [hlevel]
    exact if_pos hver
  · rw [hlevel]
    exact congrArg (fun n => ((State.setLevel _ n).cantonStart 0).fitAll.startClocks) (if_pos hred)
  · rw [hlevel]
    exact congrArg (fun n => ((State.setLevel _ n).cantonStart 0).fitAll.startClocks)
      (if_neg (by rw [hred]; exact Bool.false_ne_true))
  · rw [hlevel]
    rfl
  · rw [hlevel]
    exact congrArg (fun n => (State.setLevel _ n).cantonsStart.fitAll.startClocks)
      (if_neg (by rw [hdom]; exact Bool.false_ne_true))
  · rw [hlevel]
    exact congrArg (fun n => (State.setLevel _ n).cantonsStart.fitAll.startClocks) (if_pos hdom)
  · rw [hlevel]
    exact if_pos hok
  · obtain ⟨c, j, a, w, hframe⟩ := setLevel_frame x v
    rw [hframe]
    exact ⟨rfl, rfl⟩

end Sys2Proof.Claims

open Sys2Proof.Claims Sys2Proof.Machine

/-- Settles O56: each warning is one branch, and a trip leaves the clocks stopped, which decode, issue and the tick ask for. -/
theorem powerAndThermalWarnings : Obligations.PowerAndThermalWarnings :=
  ⟨claimPowerCapWarns_holds, claimThermalThrottleAndRestore_holds, claimThermalTripStopsClocks_holds,
    claimFaultPinConditions_holds⟩

/-- Settles O54: each level has its branch, and each outcome of the boot its slot. -/
theorem bootAndServiceLevels : Obligations.BootAndServiceLevels :=
  ⟨claimBootVerifyOutcomes_holds, claimServiceLevelsInOrder_holds⟩

end

section
/-! SUPPORT. The resets: banks held off, and the time over a function's reset (R460, R508, R549, R550). -/

namespace Sys2Proof.Machine

/-! ### Banks held off -/

/-- From s to t banks were held off: bytes outside HBM may have become 0, and nothing else changed but banks and check bits. -/
def State.HoldsOff (s t : State) : Prop :=
  (∃ m e w b, t = { s with mem := m, ecc := e, writeBack := w, banks := b }) ∧
    ∀ a, t.byte a = s.byte a ∨ (96 * 2 ^ 30 ≤ a ∧ t.byte a = 0#8)

theorem State.HoldsOff.refl (s : State) : s.HoldsOff s := ⟨⟨_, _, _, _, rfl⟩, fun _ => .inl rfl⟩

theorem State.HoldsOff.stalled {s t : State} (h : s.HoldsOff t) : t.stalled = s.stalled := by
  obtain ⟨⟨_, _, _, _, rfl⟩, -⟩ := h
  rfl

/-- Every bank lies behind HBM (R163). -/
theorem hbm_le_bankStart (b : Nat) : 96 * 2 ^ 30 ≤ bankStart b := by
  unfold bankStart spBase cantonBase sigBase
  split
  · omega
  · split <;> omega

/-- A bank's content lost, its state replaced: nothing waits there that is to be answered. -/
theorem State.HoldsOff.bankOff {s t : State} (hs : s.stalled = []) (h : s.HoldsOff t) (b : Nat) (x : Bank) :
    s.HoldsOff (((t.loseBank b).setBank b x).release b) := by
  have hwait : ((t.loseBank b).setBank b x).stalled = [] := h.stalled.trans hs
  rw [State.release_none _ _ fun y hy => by rw [hwait] at hy; exact nomatch hy]
  obtain ⟨⟨m, e, w, k, heq⟩, hbyte⟩ := h
  refine ⟨⟨_, _, _, _, by rw [heq]; rfl⟩, fun a => ?_⟩
  have hlost : ((t.loseBank b).setBank b x).byte a = _ := t.byte_loseBank b a
  rw [hlost]
  split
  · next hin => exact .inr ⟨(hbm_le_bankStart b).trans hin.1, rfl⟩
  · exact hbyte a

theorem State.HoldsOff.banksOff {s t : State} (hs : s.stalled = []) (h : s.HoldsOff t) (b n : Nat) :
    s.HoldsOff (t.banksOff b n) :=
  List.foldlRecOn (motive := s.HoldsOff) _ _ h fun _ hu i _ => hu.bankOff hs (b + i) _

theorem State.holdsOff_holdBanksOff {s : State} (hs : s.stalled = []) : s.HoldsOff s.holdBanksOff := by
  unfold State.holdBanksOff
  refine List.foldlRecOn (motive := s.HoldsOff) _ _ ?_ fun _ hu q _ => hu.banksOff hs _ _
  refine List.foldlRecOn (motive := s.HoldsOff) _ _ ?_ fun _ hu c _ => (hu.banksOff hs _ _).banksOff hs _ _
  exact List.foldlRecOn (motive := s.HoldsOff) _ _ (.refl s) fun _ hu p _ => hu.banksOff hs _ _

theorem State.HoldsOff.of_eq {s t : State} (h : s.holdBanksOff = t) (hs : s.stalled = []) : s.HoldsOff t :=
  h ▸ State.holdsOff_holdBanksOff hs

theorem sget_sputAll {d : Nat → Nat} {k : Nat} {l : List (Nat × Nat)} (m : SMap Nat) (hk : ∀ e ∈ l, e.1 ≠ k) :
    sget (sputAll m d l) d k = sget m d k := by
  induction l generalizing m with
  | nil => rfl
  | cons e l ih =>
    exact (ih (sput m d e.1 e.2) fun x hx => hk x (List.mem_cons_of_mem _ hx)).trans
      (sget_sput_other e.2 (hk e List.mem_cons_self).symm)

end Sys2Proof.Machine

namespace Sys2Proof.Claims
open Machine

/-! ### PORST# -/

theorem claimPorstKeepsOnlyTripAndFlash_holds : claimPorstKeepsOnlyTripAndFlash := by
  refine fun straps s => ⟨rfl, rfl, fun n => ?_⟩
  cases htrip : s.power.tripped with
  | false =>
    unfold State.afterPorst
    rw [htrip]
    exact ⟨rfl, rfl, rfl, rfl, rfl, rfl, nofun, fun _ _ _ => rfl, rfl, rfl, rfl, rfl, rfl, rfl, rfl, rfl, rfl, rfl, rfl, rfl,
      rfl, rfl, rfl, rfl, rfl, rfl⟩
  | true =>
    unfold State.afterPorst
    rw [htrip]
    exact ⟨rfl, rfl, rfl, rfl, rfl, rfl, fun _ hwf => State.od_setOd_same hwf _ _ _, nofun, rfl, rfl, rfl, rfl, rfl, rfl, rfl,
      rfl, rfl, rfl, rfl, rfl, rfl, rfl, rfl, rfl, rfl, rfl⟩

/-! ### WARMRST# -/

theorem claimWarmrstKeepsTimeHbmAndFlash_holds : claimWarmrstKeepsTimeHbmAndFlash := by
  intro s hrun hlo hhi
  have hexec : exec .warmrst s = execWarmrst s := rfl
  have hserves : ¬ (s.power.stopped = true ∨ s.power.level = 0 ∨ s.power.level = 6) := by
    rw [hrun]
    simp only [Bool.false_eq_true, false_or]
    omega
  simp only [execWarmrst, if_neg hserves] at hexec
  generalize hu : State.holdBanksOff _ = v at hexec
  obtain ⟨⟨m, e, w, b, hv⟩, hbyte⟩ := State.HoldsOff.of_eq hu rfl
  obtain ⟨c, j, a, x, hframe⟩ := setLevel_frame v 1
  have hbytes : ∀ a, (v.setLevel 1).byte a = if 96 * 2 ^ 30 ≤ a then 0#8 else s.byte a := fun a => by
    have hsame : (v.setLevel 1).byte a = v.byte a := by
      rw [hframe]
      rfl
    rw [hsame]
    rcases hbyte a with hkept | ⟨hout, hzero⟩
    · rw [hkept]
      exact (sget_sclear s.mem memDef (fun a => decide (96 * 2 ^ 30 ≤ a)) a).trans (by simp [memDef, State.byte])
    · rw [if_pos hout, hzero]
  refine ⟨_, hexec, setLevel_power_level v 1, ?_⟩
  rw [hframe, hv] at hbytes ⊢
  refine ⟨rfl, rfl, rfl, rfl, rfl, rfl, rfl, rfl, rfl, rfl, rfl, rfl, rfl, rfl, fun index sub hlost => ?_,
    fun a ha => (hbytes a).trans (if_neg ha.not_ge), fun a ha => (hbytes a).trans (if_pos ha)⟩
  refine sget_sputAll s.dictP fun x hx hkey => ?_
  have hkept := (List.mem_filter.1 hx).2
  rw [hkey, hlost] at hkept
  exact Bool.false_ne_true hkept

end Sys2Proof.Claims

namespace Sys2Proof.Machine

/-! ### The time over a function's reset -/

/-- From s to t neither the time nor whether the clocks run has changed. -/
def State.KeepsTime (s t : State) : Prop := t.time = s.time ∧ t.power.stopped = s.power.stopped

theorem State.KeepsTime.refl (s : State) : s.KeepsTime s := ⟨rfl, rfl⟩

section
variable {s t : State} (h : s.KeepsTime t)
include h

theorem State.KeepsTime.raise (n : Notice) : s.KeepsTime (t.raise n) :=
  ⟨(t.raiseAt_time _ n).trans h.1, (by rw [State.raise, State.raiseAt_eq] : (t.raise n).power.stopped = _).trans h.2⟩

theorem State.KeepsTime.host (x : HostSt) : s.KeepsTime { t with host := x } := h

theorem State.KeepsTime.compareFrame (k d : Nat) (nz : Bool) : s.KeepsTime (t.compareFrame k d nz) := by
  unfold State.compareFrame
  simp only []
  split
  · exact h
  · split
    · split
      · exact State.KeepsTime.raise (t := (t.setFrames _).setOd _ _ _) h _
      · exact h
    · split
      · exact State.KeepsTime.raise (t := t.setFrames _) h _
      · exact h

theorem State.KeepsTime.closeFrames (k bound n : Nat) : s.KeepsTime (t.closeFrames k bound n) := by
  induction n generalizing t with
  | zero => exact h
  | succ n ih =>
    unfold State.closeFrames
    simp only []
    split
    · exact h
    · split
      · exact h
      · exact ih (State.KeepsTime.compareFrame (t := t.setFrames _) h _ _ _)

theorem State.KeepsTime.endFrames (k : Nat) : s.KeepsTime (t.endFrames k) := h.closeFrames _ _ _

theorem State.KeepsTime.modCoreAt (p : Nat) (f : Core → Core) : s.KeepsTime (t.modCoreAt p f) := by
  unfold State.modCoreAt
  split
  · exact h
  · exact h

theorem State.KeepsTime.releaseCore (p : Nat) : s.KeepsTime (t.releaseCore p) :=
  State.KeepsTime.modCoreAt (t := t.dropWaiters p) h _ _

theorem State.KeepsTime.releaseCores (k : Nat) : s.KeepsTime (t.releaseCores k) :=
  List.foldlRecOn (motive := s.KeepsTime) _ _ h fun _ hu p _ => hu.releaseCore p

theorem State.KeepsTime.dropSems (l : List Nat) : s.KeepsTime (t.dropSems l) :=
  List.foldlRecOn (motive := s.KeepsTime) _ _ h fun _ hu _ _ => hu

theorem State.KeepsTime.dropBanks (k : Nat) : s.KeepsTime (t.dropBanks k) := by
  refine List.foldlRecOn (motive := s.KeepsTime) _ _ h fun u hu i _ => ?_
  split
  · exact hu
  · exact hu

theorem State.KeepsTime.endJob (k : Nat) : s.KeepsTime (t.endJob k) := by
  unfold State.endJob
  split
  · exact h
  · refine State.KeepsTime.dropBanks ?_ _
    exact List.foldlRecOn (motive := s.KeepsTime) _ _ ((h.endFrames k).releaseCores k) fun _ hu x _ => hu.dropSems x.sems

theorem State.KeepsTime.msix (f vec : Nat) : s.KeepsTime (t.msix f vec) := by
  unfold State.msix
  split
  · split
    · exact h
    · exact h
  · exact h

theorem State.KeepsTime.ringSignal (f off : Nat) : s.KeepsTime (t.ringSignal f off) := by
  unfold State.ringSignal
  simp only []
  split
  · exact h
  · exact State.KeepsTime.msix (t := t.setRing f off _) h _ _

theorem State.KeepsTime.ringPut {f off bytes v : Nat} {phase : Bool} {u : State} (hu : t.ringPut f off bytes v phase = some u) :
    s.KeepsTime u := by
  unfold State.ringPut at hu
  simp only [] at hu
  split at hu
  · exact nomatch hu
  · obtain rfl := Option.some.inj hu
    exact State.KeepsTime.ringSignal (t := (t.emit _).setRing f off _) h _ _

theorem State.KeepsTime.flushHeld (q n : Nat) : s.KeepsTime (t.flushHeld q n) := by
  induction n generalizing t with
  | zero => exact h
  | succ n ih =>
    unfold State.flushHeld
    split
    · exact h
    · split
      · exact h
      · next u hu =>
        have hput : s.KeepsTime u := h.ringPut hu
        exact ih (hput.host _)

theorem State.KeepsTime.completeJob (j : Job) (code status task : Nat) : s.KeepsTime (t.completeJob j code status task) :=
  (h.host _).flushHeld _ _

theorem State.KeepsTime.tryFinish (k : Nat) : s.KeepsTime (t.tryFinish k) := by
  unfold State.tryFinish
  split
  · exact h
  extract_lets s1 s2
  have htold : s.KeepsTime s1 := by
    unfold s1
    split
    · exact h
    · exact h.completeJob _ _ _ _
  have hmarked : s.KeepsTime s2 := htold
  split
  · exact h
  · split
    · exact h.endJob k
    · split
      · split
        · exact hmarked.endJob k
        · exact hmarked
      · split
        · exact (h.completeJob _ _ _ _).endJob k
        · exact h

theorem State.KeepsTime.modJob (k : Nat) (f : Job → Job) : s.KeepsTime (t.modJob k f) := h

theorem State.KeepsTime.needAll (k : Nat) (n : Need) : s.KeepsTime (t.needAll k n) := by
  unfold State.needAll State.KeepsTime
  exact h

theorem State.KeepsTime.dropJobs (f : Nat) : s.KeepsTime (t.dropJobs f) := by
  unfold State.dropJobs
  refine List.foldlRecOn (motive := s.KeepsTime) _ _ h fun u hu j _ => ?_
  split
  · exact hu.endJob _
  · exact ((hu.modJob _ _).needAll _ _).tryFinish _

theorem State.KeepsTime.resetFunction (f : Nat) : s.KeepsTime (t.resetFunction f) :=
  (h.host _).dropJobs f

end

theorem State.keepsTime_resetAllFunctions (s : State) : s.KeepsTime s.resetAllFunctions :=
  State.KeepsTime.host (List.foldlRecOn (motive := s.KeepsTime) _ _ (.refl s) fun _ hu f _ => hu.resetFunction f) _

end Sys2Proof.Machine

namespace Sys2Proof.Claims
open Machine

/-- PORST# sets the timebase to 0 and TB_INC to its default (R460). -/
theorem afterPorst_time (s : State) (n : Nat) : (s.afterPorst n).time = State.reset.time := by
  unfold State.afterPorst
  simp only []
  split <;> rfl

/-- WARMRST# keeps the timebase, and leaves the clocks running where they ran (R460). -/
theorem warmrst_time (s : State) : ∃ t, exec .warmrst s = .next t ∧ t.time.now = s.time.now ∧ t.time.inc = s.time.inc ∧
    t.power.stopped = s.power.stopped := by
  have hexec : exec .warmrst s = execWarmrst s := rfl
  by_cases hserves : s.power.stopped = true ∨ s.power.level = 0 ∨ s.power.level = 6
  · exact ⟨s, hexec.trans (congrArg Host.Outcome.next (if_pos hserves)), rfl, rfl, rfl⟩
  · have hrun : s.power.stopped = false := Bool.eq_false_of_not_eq_true fun h => hserves (.inl h)
    simp only [execWarmrst, if_neg hserves] at hexec
    generalize hu : State.holdBanksOff _ = v at hexec
    obtain ⟨⟨m, e, w, b, hv⟩, -⟩ := State.HoldsOff.of_eq hu rfl
    obtain ⟨c, j, a, x, hframe⟩ := setLevel_frame v 1
    refine ⟨_, hexec, ?_⟩
    rw [hframe, hv, hrun]
    exact ⟨rfl, rfl, rfl⟩

end Sys2Proof.Claims

open Sys2Proof.Claims Sys2Proof.Machine

/-- Settles O53: PORST# leaves what it names, and over a warm reset the banks held off lie outside HBM. -/
theorem porstAndWarmrst : Obligations.PorstAndWarmrst :=
  ⟨claimPorstKeepsOnlyTripAndFlash_holds, claimWarmrstKeepsTimeHbmAndFlash_holds⟩

/-- Settles O52: PORST# resets the time; WARMRST# carries it over; nothing that a function's reset does touches it. -/
theorem timebaseOverResets : Obligations.TimebaseOverResets := by
  intro straps s
  have hperst : s.KeepsTime { s.resetAllFunctions with
      host := { s.resetAllFunctions.host with pcieUp := decide (s.power.level ≠ 0) } } :=
    s.keepsTime_resetAllFunctions.host _
  obtain ⟨htime, hstopped⟩ := hperst
  refine ⟨⟨_, rfl, ?_, ?_⟩, warmrst_time s, ⟨_, rfl, by rw [htime], by rw [htime], hstopped⟩⟩
  · rw [afterPorst_time]
    rfl
  · rw [afterPorst_time]
    rfl

end

section
/-! SUPPORT. Mitten pairs: comparisons and votes (R519 to R526). -/

namespace Sys2Proof.Machine

/-! ### A comparison that failed -/

section
variable {s : State} {q : Pair}

theorem State.mismatch_unlogged (h : 0x80000 < (s.coreAt q.leader).undoBytes ∨ 0x80000 < (s.coreAt q.follower).undoBytes) :
    s.mismatch q = ((s.warn 0x0160 (s.coreOwner q.leader) 1 q.leader (pairPayload q.leader q.follower)).faultNotice 0x0164
      (s.coreOwner q.leader) 1 q.leader (pairPayload q.leader q.follower)).failPair q 0x0164 :=
  if_pos h

theorem State.mismatch_votes {sp : Nat}
    (h : ¬ (0x80000 < (s.coreAt q.leader).undoBytes ∨ 0x80000 < (s.coreAt q.follower).undoBytes))
    (hsp : s.voteSpare q = some sp) :
    s.mismatch q = (s.warn 0x0160 (s.coreOwner q.leader) 1 q.leader (pairPayload q.leader q.follower)).openVote q q.follower
      sp := by
  unfold State.mismatch
  simp only [if_neg h, hsp]

theorem State.mismatch_rolls_back (h : ¬ (0x80000 < (s.coreAt q.leader).undoBytes ∨ 0x80000 < (s.coreAt q.follower).undoBytes))
    (hsp : s.voteSpare q = none) :
    s.mismatch q = (((s.warn 0x0160 (s.coreOwner q.leader) 1 q.leader (pairPayload q.leader q.follower)).rollBack q
      q.leader).rollBack q q.follower).modPair q.leader (fun q => { q with retry := true }) := by
  unfold State.mismatch
  simp only [if_neg h, hsp]

end

end Sys2Proof.Machine

namespace Sys2Proof.Claims
open Machine

theorem claimPairComparisonConfirmsOrVotes_holds : claimPairComparisonConfirmsOrVotes := by
  intro p s q hq hspare hjob hleader hfollower hlover hfover hfault equal told unlogged s0
  have hexec : exec (.mittenCompare p) s = execMittenCompare p s := rfl
  have hlive : ¬ (q.spare.isSome = true ∨ (s.jobOf q.job).any (fun j => j.st == .faulted) = true) := by
    rw [hspare]
    cases hj : s.jobOf q.job with
    | none => simp
    | some j => simpa using hjob j hj
  have hboth : ¬ (s.coreLost q.leader = true ∨ s.coreLost q.follower = true) := by simp [hleader, hfollower]
  have hover : ¬ (¬ (s.coreAt q.leader).tileOver = true ∨ ¬ (s.coreAt q.follower).tileOver = true) := by simp [hlover, hfover]
  have hsame : ¬ sameFault (s.coreAt q.leader) (s.coreAt q.follower) = true := by rw [hfault]; exact Bool.false_ne_true
  have hequal : equal ↔ (s.coreAt q.leader).goodDigest.isSome = true ∧
      (s.coreAt q.leader).goodDigest = (s.coreAt q.follower).goodDigest := by
    rw [Option.isSome_iff_ne_none]
  simp only [execMittenCompare, hq, if_neg hlive, if_neg hboth, if_neg hover, if_neg hsame] at hexec
  have hempty : (s0.coreAt q.leader).held = [] → ¬ ¬ (s0.coreAt q.leader).held.isEmpty = true := fun h => by simp [h]
  have hagree : ∀ {t}, equal → (if ¬ (s0.coreAt q.leader).held.isEmpty = true then s0 else if q.retry = true then
      ((s0.confirmTile q.leader q.leader q.follower).warn 0x0163 (s.coreOwner q.leader) 1 q.leader
        (pairPayload q.leader q.follower)).incOd 0x7000 4 else s0.confirmTile q.leader q.leader q.follower) = t →
      exec (.mittenCompare p) s = .next t :=
    fun h ht => hexec.trans (congrArg Host.Outcome.next ((if_pos (hequal.1 h)).trans ht))
  have hdiffer : ∀ {t}, ¬ equal → (if q.retry = true then s.noVote q 0 else s.mismatch q) = t →
      exec (.mittenCompare p) s = .next t :=
    fun h ht => hexec.trans (congrArg Host.Outcome.next ((if_neg fun e => h (hequal.2 e)).trans ht))
  have hfirst : q.retry = false → ¬ q.retry = true := fun h => by rw [h]; exact Bool.false_ne_true
  exact ⟨fun h hheld => hagree h (if_pos (by simpa using hheld)),
    fun h hheld hretry => hagree h ((if_neg (hempty hheld)).trans (if_neg (hfirst hretry))),
    fun h hheld hretry => hagree h ((if_neg (hempty hheld)).trans (if_pos hretry)),
    fun h hretry => hdiffer h (if_pos hretry),
    fun h hretry hlog => hdiffer h ((if_neg (hfirst hretry)).trans (State.mismatch_unlogged hlog)),
    fun sp h hretry hlog hsp => hdiffer h ((if_neg (hfirst hretry)).trans (State.mismatch_votes hlog hsp)),
    fun h hretry hlog hsp => hdiffer h ((if_neg (hfirst hretry)).trans (State.mismatch_rolls_back hlog hsp))⟩

theorem claimVoteDecidedByThirdDigest_holds : claimVoteDecidedByThirdDigest := by
  intro p s q hq hover good acted
  have hexec : exec (.voteRerunDone p) s = execVoteRerunDone p s := rfl
  have hgood : ∀ x, (!s.coreLost x && (s.core p).goodDigest.isSome &&
      decide ((s.coreAt x).goodDigest = (s.core p).goodDigest)) = true ↔ good x := fun x => by
    simp [good, Option.isSome_iff_ne_none, and_assoc]
  simp only [execVoteRerunDone, hq, hover, not_true_eq_false, if_false, hgood] at hexec
  refine ⟨fun hl hf => ⟨fun hheld => ?_, fun hheld => ?_⟩, fun hf hl => ⟨fun hheld => ?_, fun hheld => ?_⟩, fun htie => ?_⟩
  · exact hexec.trans (congrArg Host.Outcome.next ((if_pos ⟨hl, hf⟩).trans (if_pos (by simpa [acted] using hheld))))
  · exact hexec.trans (congrArg Host.Outcome.next ((if_pos ⟨hl, hf⟩).trans (if_neg (by simpa [acted] using hheld))))
  · exact hexec.trans (congrArg Host.Outcome.next ((if_neg fun h => hl h.1).trans ((if_pos ⟨hf, hl⟩).trans
      (if_pos (by simpa [acted] using hheld)))))
  · exact hexec.trans (congrArg Host.Outcome.next ((if_neg fun h => hl h.1).trans ((if_pos ⟨hf, hl⟩).trans
      (if_neg (by simpa [acted] using hheld)))))
  · exact hexec.trans (congrArg Host.Outcome.next ((if_neg fun h => h.2 (htie.1 h.1)).trans
      (if_neg fun h => h.2 (htie.2 h.1))))

end Sys2Proof.Claims

open Sys2Proof.Claims Sys2Proof.Machine

/-- Settles O50: a comparison's outcome is one of the branches behind the agreement of the digests, a vote's one of three. -/
theorem pairsCompareAndVote : Obligations.PairsCompareAndVote :=
  ⟨claimPairComparisonConfirmsOrVotes_holds, claimVoteDecidedByThirdDigest_holds⟩

end

section
/-! SUPPORT. The Gauntlet, self-tests and lost domains (R529 to R533). -/

namespace Sys2Proof.Machine

/-- Clearing a core changes nothing of the safety state, and frees no one who waits at a bank. -/
theorem State.clearCore_safety_stalled (s : State) (p : Nat) :
    (s.clearCore p).safety = s.safety ∧ (s.clearCore p).stalled = s.stalled := by
  refine List.foldlRecOn (motive := fun t : State => t.safety = s.safety ∧ t.stalled = s.stalled) _ _ ?_ fun _ ht _ _ => ht
  constructor <;> simp [State.dropWaiters]

/-- Banks at which nothing waits, held off: nothing but memory and banks changes. -/
theorem State.banksOff_frame {s : State} {b n : Nat} (h : ∀ x ∈ s.stalled, ∀ i, i < n → x.at_ (b + i) = false) :
    (s.banksOff b n).stalled = s.stalled ∧ (s.banksOff b n).safety = s.safety ∧ (s.banksOff b n).jobs = s.jobs := by
  refine List.foldlRecOn (motive := fun t : State => t.stalled = s.stalled ∧ t.safety = s.safety ∧ t.jobs = s.jobs) _ _
    ⟨rfl, rfl, rfl⟩ fun t ht i hi => ?_
  rw [State.release_none _ _ fun x hx => ?_]
  · exact ht
  · have hx' : x ∈ t.stalled := hx
    rw [ht.1] at hx'
    exact h x hx' i (List.mem_range.1 hi)

section
variable (s : State) (p part : Nat)

/-- Where nothing waits at its banks, a core retired leaves the jobs, and its canton without a spare (R12, R531). -/
theorem State.retireCore_safety (h : ∀ x ∈ s.stalled, ∀ i, i < 4 → x.at_ (4 * p + i) = false) :
    (s.retireCore p part).safety = { s.safety with
      retired := s.safety.retired ++ [p]
      spare := s.safety.spare.set (p / 9) none
      spareSt := s.safety.spareSt.set (p / 9) .none } ∧ (s.retireCore p part).jobs = s.jobs := by
  obtain ⟨-, hsafety, hjobs⟩ := State.banksOff_frame h
  constructor
  · simp [State.retireCore, State.incOd, State.setOd, State.faultNotice, State.raise, hsafety]
  · simp [State.retireCore, State.incOd, State.setOd, State.faultNotice, State.raise, hjobs]

end

end Sys2Proof.Machine

namespace Sys2Proof.Claims
open Machine

/-! ### Rotations and swaps -/

theorem gauntletRotation_due (c : CantonId) (s : State) (p : Nat) (hon : s.gauntletOn = true)
    (hlen : s.safety.swapDue.length = 8) (hnext : s.nextTested c.val = some p) :
    ∃ t, exec (.gauntletRotation c) s = .next t ∧ t.safety.swapDue.getD c.val none = some p ∧
      t.safety.skipped = s.safety.skipped + (if (s.safety.swapDue.getD c.val none).isSome then 1 else 0) ∧
      t.mem = s.mem ∧ t.jobs = s.jobs ∧ t.host = s.host ∧ t.power = s.power ∧ t.dict = s.dict := by
  set s1 := if (s.safety.swapDue.getD c.val none).isSome then
    { s with safety := { s.safety with skipped := s.safety.skipped + 1 } } else s with hs1
  have hframe : s1 = { s with safety := { s.safety with
      skipped := s.safety.skipped + (if (s.safety.swapDue.getD c.val none).isSome then 1 else 0) } } := by
    rw [hs1]
    split <;> rfl
  have hnext' : s1.nextTested c.val = some p := by
    rw [hframe]
    exact hnext
  have hexec : exec (.gauntletRotation c) s =
      .next (({ s1 with safety := { s1.safety with swapDue := s1.safety.swapDue.set c.val (some p) } }).needSwap p) := by
    have hserves : exec (.gauntletRotation c) s = execGauntletRotation c s := rfl
    simp only [execGauntletRotation, hon, not_true_eq_false, if_false, ← hs1, hnext'] at hserves
    exact hserves
  refine ⟨_, hexec, ?_⟩
  rw [hframe]
  simp [State.needSwap, List.getD_eq_getElem?_getD, hlen]

theorem gauntletSwap_due (c : CantonId) (s : State) (p : Nat) (hnone : s.safety.testing = [])
    (hdue : s.safety.swapDue.getD c.val none = some p) (hin : s.inService p = true) :
    exec (.gauntletSwap c) s = .next (match s.swapSpare p with
      | none => s.needSwap p
      | some (sp, lent) => if s.swappable p then s.swap p sp lent else s.needSwap p) := by
  have hexec : exec (.gauntletSwap c) s = execGauntletSwap c s := rfl
  simp only [execGauntletSwap, hnone, List.find?_nil, hdue, Option.orElse_some, hin, not_true_eq_false, if_false] at hexec
  exact hexec

theorem claimGauntletRotatesAtBoundaries_holds : claimGauntletRotatesAtBoundaries := by
  refine fun c s => ⟨gauntletRotation_due c s, fun p sp lent hnone hdue hin hspare hfree => ?_,
    fun p hnone hdue hin hbusy => ?_, rfl⟩
  · rw [gauntletSwap_due c s p hnone hdue hin, hspare]
    exact congrArg Host.Outcome.next (if_pos hfree)
  · rw [gauntletSwap_due c s p hnone hdue hin]
    cases s.swapSpare p with
    | none => rfl
    | some x => exact congrArg Host.Outcome.next (if_neg (by rw [hbusy]; exact Bool.false_ne_true))

/-! ### Self-tests -/

/-- The list of tests with that of core p marked: a core whose place a lent spare holds waits, another one is struck out. -/
def markTested (testing : List SelfTest) (p : Nat) (lent : Bool) (o : Option Bool) : List SelfTest :=
  if lent then testing.map (fun x => if x.core = p then { x with passed := o } else x)
  else testing.filter (fun x => x.core != p)

section
variable (p : CoreId) (sp : Nat) (lent : Bool) (s : State)
  (htest : s.safety.testing.find? (fun t => t.core == p.val && t.passed == none) = some ⟨p.val, sp, lent, none⟩)
include htest

theorem selfTestComplete_passes : exec (.selfTestComplete p 0) s = .next
    (let t : State := { s.clearCore p.val with safety := { (s.clearCore p.val).safety with
      testing := markTested (s.clearCore p.val).safety.testing p.val lent (some true) } }
    if t.safety.spare.getD (p.val / 9) none = some (p.val % 9) then t.setSpareSt (p.val / 9) .ready else t) := by
  have hexec : exec (.selfTestComplete p 0) s = execSelfTestComplete p 0 s := rfl
  simp only [execSelfTestComplete, htest, if_true] at hexec
  exact hexec

theorem selfTestComplete_fails {part : Nat} (hpart : part ≠ 0) : exec (.selfTestComplete p part) s =
    .next (State.retireCore { s.clearCore p.val with safety := { (s.clearCore p.val).safety with
      testing := markTested (s.clearCore p.val).safety.testing p.val lent (some false) } } p.val part) := by
  have hexec : exec (.selfTestComplete p part) s = execSelfTestComplete p part s := rfl
  simp only [execSelfTestComplete, htest, if_neg hpart] at hexec
  exact hexec

/-- What a test passed leaves: the test marked, the spare ready where it is still this core. -/
theorem selfTestComplete_passes_safety :
    let spares := if s.safety.spare.getD (p.val / 9) none = some (p.val % 9) then s.safety.spareSt.set (p.val / 9) .ready
      else s.safety.spareSt
    ∃ t, exec (.selfTestComplete p 0) s = .next t ∧ t.safety.testing = markTested s.safety.testing p.val lent (some true) ∧
      t.safety.spareSt = spares ∧ t.safety.retired = s.safety.retired ∧ t.host = s.host ∧ t.jobs = s.jobs := by
  intro spares
  obtain ⟨hsafety, -⟩ := s.clearCore_safety_stalled p.val
  have hbeside := s.besideMem_clearCore p
  refine ⟨_, selfTestComplete_passes p sp lent s htest, ?_⟩
  simp only [hsafety, spares]
  split
  · exact ⟨by simp only [State.setSpareSt], by simp only [State.setSpareSt], by simp only [State.setSpareSt], hbeside.host,
      hbeside.jobs⟩
  · exact ⟨rfl, rfl, rfl, hbeside.host, hbeside.jobs⟩

/-- What a test failed leaves where nothing waits at the core's banks: the core is retired, its canton has no spare. -/
theorem selfTestComplete_fails_safety {part : Nat} (hpart : part ≠ 0) (hst : s.safety.spareSt.length = 8)
    (hspare : s.safety.spare.length = 8) (hwait : ∀ x ∈ s.stalled, ∀ i, i < 4 → x.at_ (4 * p.val + i) = false) :
    ∃ t, exec (.selfTestComplete p part) s = .next t ∧ t.safety.retired = s.safety.retired ++ [p.val] ∧
      t.safety.spareSt.getD (p.val / 9) .ready = .none ∧ t.safety.spare.getD (p.val / 9) (some 0) = none ∧
      t.jobs = s.jobs := by
  obtain ⟨hsafety, hstalled⟩ := s.clearCore_safety_stalled p.val
  have hbeside := s.besideMem_clearCore p
  have hcanton : p.val / 9 < 8 := by omega
  refine ⟨_, selfTestComplete_fails p sp lent s htest hpart, ?_⟩
  obtain ⟨hretired, hjobs⟩ := State.retireCore_safety { s.clearCore p.val with safety := { (s.clearCore p.val).safety with
      testing := markTested (s.clearCore p.val).safety.testing p.val lent (some false) } } p.val part (by
    simpa only [hstalled] using hwait)
  rw [hretired, hjobs, hsafety]
  simpa [List.getD_eq_getElem?_getD, hcanton, hst, hspare] using hbeside.jobs

end

theorem claimSelfTestPassesOrRetires_holds : claimSelfTestPassesOrRetires := by
  intro p part sp lent s htest hst hspare spares cleared marked
  obtain ⟨t, hexec, htesting, hspares, hretired, hhost, hjobs⟩ := selfTestComplete_passes_safety p sp lent s htest
  refine ⟨fun hlent => ⟨t, hexec, ?_, hspares, hretired, hhost, hjobs⟩,
    fun hown => ⟨t, hexec, hspares, hretired, fun x hx => ?_, hhost, hjobs⟩, fun hpart => ?_,
    fun hpart hwait => selfTestComplete_fails_safety p sp lent s htest hpart hst hspare hwait⟩
  · rw [htesting, markTested, if_pos hlent]
    exact List.mem_map.2 ⟨_, List.mem_of_find?_eq_some htest, by simp [hlent]⟩
  · rw [htesting, markTested, if_neg (by rw [hown]; exact Bool.false_ne_true)] at hx
    simpa using (List.mem_filter.1 hx).2
  · exact selfTestComplete_fails p sp lent s htest hpart

/-! ### Domains lost -/

/-- A domain lost: in FULL the level becomes DEGRADED; memory, cores and jobs are left. -/
theorem degrade_frame (s : State) : s.degrade.power.hbmLost = s.power.hbmLost ∧ s.degrade.power.lostDomain = true ∧
    s.degrade.power.level = (if s.power.level = 4 then 5 else s.power.level) ∧ s.degrade.mem = s.mem ∧
    s.degrade.cores = s.cores ∧ s.degrade.jobs = s.jobs := by
  unfold State.degrade
  simp only []
  split
  · obtain ⟨c, j, a, w, hframe⟩ := setLevel_frame { s with power := { s.power with lostDomain := true } } 5
    rw [hframe]
    exact ⟨rfl, rfl, rfl, rfl, rfl, rfl⟩
  · exact ⟨rfl, rfl, rfl, rfl, rfl, rfl⟩

theorem claimDomainsLostOnce_holds : claimDomainsLostOnce := by
  refine fun s => ⟨fun c hup => congrArg Host.Outcome.next (if_pos hup),
    fun c hdown => congrArg Host.Outcome.next (if_neg (by rw [hdown]; exact Bool.false_ne_true)), fun k hnew => ?_,
    fun k hnew => congrArg Host.Outcome.next (if_neg (by simpa using hnew)),
    fun k hlost => congrArg Host.Outcome.next (if_pos (by simpa using hlost)),
    fun k hlost => congrArg Host.Outcome.next (if_pos (by simpa using hlost)), fun hfull => ?_⟩
  · refine ⟨_, congrArg Host.Outcome.next (if_neg (by simpa using hnew)), ?_⟩
    exact degrade_frame { s with
      power := { s.power with hbmLost := s.power.hbmLost ++ [k.val] }, radio := { s.radio with harqUndo := [] } }
  · obtain ⟨-, -, hlevel, -⟩ := degrade_frame s
    rw [hlevel, if_pos hfull]

theorem claimRailAndCheckerFaultsTold_holds : claimRailAndCheckerFaultsTold :=
  ⟨fun _ _ _ => rfl, fun _ _ _ => rfl, fun _ _ _ => rfl, fun _ _ => ⟨rfl, rfl, rfl⟩⟩

end Sys2Proof.Claims

open Sys2Proof.Claims Sys2Proof.Machine

/-- Settles O58: rotations, tests and losses are each one branch; clearing and retiring a core leave the rest of the safety
state. -/
theorem gauntletAndDomains : Obligations.GauntletAndDomains :=
  ⟨claimGauntletRotatesAtBoundaries_holds, claimSelfTestPassesOrRetires_holds, claimDomainsLostOnce_holds,
    claimRailAndCheckerFaultsTold_holds⟩

end

section
/-! SUPPORT. Crown's restart, power failure and firmware slots (R535 to R540). -/

namespace Sys2Proof.Machine

/-! ### What answering an access changes -/

/-- From s to t accesses were answered: outputs, entries in force, mailboxes, fabric ports and counters moved, nothing else. -/
def State.Answers (s t : State) : Prop :=
  ∃ o d f v m w, t = { s with out := o, dict := d, fab := f, visor := v, host := { s.host with mail := m, window := w } }

theorem State.Answers.refl (s : State) : s.Answers s := ⟨_, _, _, _, _, _, rfl⟩

section
variable {s t : State} (h : s.Answers t)
include h

theorem State.Answers.emit (e : Emission) : s.Answers (t.emit e) := by
  obtain ⟨_, _, _, _, _, _, rfl⟩ := h
  exact ⟨_, _, _, _, _, _, rfl⟩

theorem State.Answers.setOd (index sub v : Nat) : s.Answers (t.setOd index sub v) := by
  obtain ⟨_, _, _, _, _, _, rfl⟩ := h
  exact ⟨_, _, _, _, _, _, rfl⟩

theorem State.Answers.setFab (f : Fabric) : s.Answers { t with fab := f } := by
  obtain ⟨_, _, _, _, _, _, rfl⟩ := h
  exact ⟨_, _, _, _, _, _, rfl⟩

theorem State.Answers.setLink (l : LinkId) (x : LinkSt) : s.Answers (t.setLink l x) := h.setFab _

theorem State.Answers.setTun (i : TunnelId) (x : TunSt) : s.Answers (t.setTun i x) := h.setFab _

theorem State.Answers.setMailbox (f : Option FuncId) (x : Mailbox) : s.Answers (t.setMailbox f x) := by
  obtain ⟨_, _, _, _, _, _, rfl⟩ := h
  cases f <;> exact ⟨_, _, _, _, _, _, rfl⟩

theorem State.Answers.countDev (event : Nat) : s.Answers (t.countDev event) := by
  obtain ⟨_, _, _, _, _, _, rfl⟩ := h
  unfold State.countDev State.visorCount
  split
  · exact ⟨_, _, _, _, _, _, rfl⟩
  · exact ⟨_, _, _, _, _, _, rfl⟩

theorem State.Answers.linkSend (l : LinkId) (m : Msg) : s.Answers (t.linkSend l m) :=
  (List.foldlRecOn (motive := s.Answers) _ _ h fun _ hu _ _ => (hu.setLink _ _).emit _).setLink _ _

theorem State.Answers.linkPump (l : LinkId) (n : Nat) : s.Answers (t.linkPump l n) := by
  induction n generalizing t with
  | zero => exact h
  | succ n ih =>
    unfold State.linkPump
    simp only []
    split
    · exact h
    · split
      · exact h
      · split
        · exact h
        · exact ih (h.linkSend _ _)

theorem State.Answers.tunFrames (i : TunnelId) (seq : Nat) (flits : List (BitVec 512)) : s.Answers (t.tunFrames i seq flits) :=
  List.foldlRecOn (motive := s.Answers) _ _ h fun _ hu _ _ => (hu.setTun _ _).emit _

theorem State.Answers.tunPump (i : TunnelId) (n : Nat) : s.Answers (t.tunPump i n) := by
  induction n generalizing t with
  | zero => exact h
  | succ n ih =>
    unfold State.tunPump
    simp only []
    split
    · exact h
    · split
      · exact h
      · split
        · exact h
        · exact ih ((h.setTun _ _).tunFrames _ _ _)

/-- A message that finds a way goes to the inbox, a link, a tunnel, or is counted. -/
theorem State.Answers.route {m : Msg} {u : State} (hu : t.route m = some u) : s.Answers u := by
  unfold State.route at hu
  simp only [] at hu
  split at hu
  · obtain rfl := Option.some.inj hu
    exact h.setFab _
  · split at hu
    · split at hu
      · obtain rfl := Option.some.inj hu
        exact ((h.setLink _ _).emit _).linkPump _ _
      · exact nomatch hu
    · split at hu
      · split at hu
        · obtain rfl := Option.some.inj hu
          exact h.countDev _
        · split at hu
          · obtain rfl := Option.some.inj hu
            exact ((h.setTun _ _).emit _).tunPump _ _
          · exact nomatch hu
      · exact nomatch hu

theorem State.Answers.route_getD (m : Msg) {d : State} (hd : s.Answers d) : s.Answers ((t.route m).getD d) := by
  cases hroute : t.route m with
  | none => exact hd
  | some u => exact h.route hroute

theorem State.Answers.unreachable (m : Msg) : s.Answers (t.unreachable m) := by
  unfold State.unreachable
  split
  · exact h.route_getD _ (h.countDev _)
  · exact h.countDev _

theorem State.Answers.post (m : Msg) : s.Answers (t.post m) := h.route_getD m (h.unreachable m)

theorem State.Answers.reply (to_ : ReplyTo) (index sub err len value : Nat) :
    s.Answers (t.reply to_ index sub err len value) := by
  cases to_ with
  | direct b => exact h.emit _
  | mail f =>
    unfold State.reply
    simp only []
    split
    · exact h.setMailbox _ _
    · exact h
  | frame path cmd req => exact h.emit _
  | mgmt hdr cmd => exact h.post _

end

/-- Persisted writes abandoned: their old values are back and each is answered; none is left. -/
theorem State.abandonPersists_eq (s : State) : ∃ t, s.Answers t ∧
    s.abandonPersists = { t with host := { t.host with persists := [] } } :=
  ⟨_, List.foldlRecOn (motive := s.Answers) _ _ (.refl s) fun _ hu _ _ => (hu.setOd _ _ _).reply _ _ _ _ _ _, rfl⟩

/-- A notice adds one record to the journal's open page; ALERT#, the channels and counters apart, nothing else changes. -/
theorem State.raise_frame (s : State) (n : Notice) : ∃ c r a w, s.raise n = { s with
    host := { s.host with chans := c, journalNew := s.host.journalNew ++ [r] }, power := { s.power with alertLow := a }, visor := w } :=
  ⟨_, _, _, _, s.raiseAt_eq s.stamp n⟩

/-! ### Links trained again -/

theorem State.link_setLink (s : State) (k l : LinkId) (x : LinkSt) : (s.setLink k x).link l = if l = k then x else s.link l := by
  simp only [State.link, State.setLink, Vector.getElem_set]
  simp only [eq_comm, Fin.ext_iff]

/-- A link that is up begins to train (R435, R457). -/
def State.trainUp (s : State) (l : LinkId) : State :=
  if (s.link l).up then s.setLink l { s.link l with training := true } else s

theorem State.trainUp_link (s : State) (k l : LinkId) : ((s.trainUp k).link l).up = (s.link l).up ∧
    ((s.trainUp k).link l).training = ((s.link l).training || (s.link l).up && decide (l = k)) := by
  unfold State.trainUp
  split
  · next hup =>
    rw [s.link_setLink]
    split
    · next heq =>
      subst heq
      simp [hup]
    · next hne => simp [hne]
  · next hdown =>
    refine ⟨rfl, ?_⟩
    by_cases heq : l = k
    · subst heq
      simp [hdown]
    · simp [heq]

/-- Of links trained in turn each that is up ends up training. -/
theorem State.training_of_trainUp (ls : List LinkId) (s : State) {l : LinkId} (hup : (s.link l).up = true)
    (hl : (s.link l).training = true ∨ l ∈ ls) : ((ls.foldl State.trainUp s).link l).training = true := by
  induction ls generalizing s with
  | nil => exact hl.resolve_right List.not_mem_nil
  | cons k ls ih =>
    obtain ⟨hstill, htrain⟩ := s.trainUp_link k l
    refine ih (s.trainUp k) (hstill.trans hup) ?_
    rcases hl with hl | hl
    · exact .inl (by rw [htrain, hl, Bool.true_or])
    · rcases List.mem_cons.1 hl with rfl | hl
      · exact .inl (by simp [htrain, hup])
      · exact .inr hl

/-- Frames of a tunnel leave the links. -/
theorem State.links_tunFrames (s : State) (t : TunnelId) (seq : Nat) (flits : List (BitVec 512)) :
    (s.tunFrames t seq flits).fab.links = s.fab.links :=
  List.foldlRecOn (motive := fun u : State => u.fab.links = s.fab.links) _ _ rfl fun _ hu _ _ => hu

theorem State.links_tunResend (s : State) (t : TunnelId) : (s.tunResend t).fab.links = s.fab.links := by
  unfold State.tunResend
  split
  · rfl
  · exact s.links_tunFrames _ _ _

theorem State.Answers.tunResend {s t : State} (h : s.Answers t) (i : TunnelId) : s.Answers (t.tunResend i) := by
  unfold State.tunResend
  split
  · exact h
  · exact h.tunFrames _ _ _

theorem State.Answers.retrainAll {s t : State} (h : s.Answers t) : s.Answers t.retrainAll := by
  refine List.foldlRecOn (motive := s.Answers) _ _ ?_ fun u hu i _ => ?_
  · refine List.foldlRecOn (motive := s.Answers) _ _ h fun u hu l _ => ?_
    split
    · exact hu.setLink _ _
    · exact hu
  · split
    · exact hu.tunResend i
    · exact hu

/-- After R457's training every link that is up trains. -/
theorem State.retrainAll_training (s : State) {l : LinkId} (hup : (s.link l).up = true) :
    (s.retrainAll.link l).training = true := by
  have hlinks : s.retrainAll.fab.links = ((List.finRange 4).foldl State.trainUp s).fab.links :=
    List.foldlRecOn (motive := fun u : State => u.fab.links = ((List.finRange 4).foldl State.trainUp s).fab.links) _ _ rfl
      fun u hu i _ => by
        split
        · exact (u.links_tunResend i).trans hu
        · exact hu
  rw [State.link, hlinks]
  exact State.training_of_trainUp _ s hup (.inr (List.mem_finRange l))

end Sys2Proof.Machine

namespace Sys2Proof.Claims
open Machine

/-- A restart within a second of another raises CROWN_FAULT; any other raises nothing (R535). -/
theorem crownRestart_state (within1s : Bool) (s : State) : ∃ u, exec (.crownRestart within1s) s =
      .next (if within1s then u.faultNotice 0x016A none 0 0 0 else u) ∧
    ∃ d v m, u = { s with dict := d, safety := { s.safety with
      crown := .restarting, crownFault := s.safety.crownFault || within1s, reqHandover := false
      activeSlot := s.safety.bootDefault, version := v, minors := m } } := by
  have hexec : exec (.crownRestart within1s) s = execCrownRestart within1s s := rfl
  unfold execCrownRestart at hexec
  refine ⟨_, hexec, ?_⟩
  split
  · exact ⟨_, _, _, rfl⟩
  · exact ⟨_, _, _, rfl⟩

theorem claimCrownRestartLeavesWorkRunning_holds : claimCrownRestartLeavesWorkRunning := by
  refine fun within1s s => ⟨?restart, fun hdown => congrArg Host.Outcome.next (if_neg (by simp [hdown]))⟩
  obtain ⟨u, hexec, d, v, m, rfl⟩ := crownRestart_state within1s s
  refine ⟨_, hexec, ?_⟩
  split
  · obtain ⟨c, r, a, x, hraise⟩ := State.raise_frame _ ⟨2, 0x016A, none, 0, 0, 0, 0, 0⟩
    rw [State.faultNotice, hraise]
    exact ⟨rfl, rfl, rfl, rfl, rfl, rfl, rfl, rfl, rfl, rfl, rfl, rfl⟩
  · exact ⟨rfl, rfl, rfl, rfl, rfl, rfl, rfl, rfl, rfl, rfl, rfl, rfl⟩

theorem claimPowerFailSavesJournal_holds : claimPowerFailSavesJournal := by
  refine fun s => ⟨fun hok hlevel => ?_, rfl⟩
  obtain ⟨t, ⟨o, d, f, v, m, w, ht⟩, habandon⟩ :=
    State.abandonPersists_eq { s with power := { s.power with powerFail := true } }
  have hexec : exec .pwrFail s = execPwrFail s := rfl
  have hruns : ¬ (s.power.powerFail = true ∨ s.power.level = 0) := by
    rw [hok]
    simp only [Bool.false_eq_true, false_or]
    omega
  simp only [execPwrFail, if_neg hruns, habandon, State.faultNotice] at hexec
  refine ⟨_, hexec, ?_⟩
  obtain ⟨c, r, a, x, hraise⟩ := State.raise_frame { t with host := { t.host with persists := [] } } ⟨2, 0x016D, none, 0, 0, 0, 0,
    t.host.journal.length + t.host.journalNew.length - 1⟩
  rw [hraise, State.appendJournal_eq, ht]
  exact ⟨rfl, by simp [State.admits], rfl, rfl, rfl, ⟨[r], by simp⟩, rfl, rfl, rfl, rfl, rfl⟩

/-- The state in which a handover's image runs, before its notice and any training (R539, R540). -/
def handedOver (s : State) : State :=
  let s1 : State := { s with safety := { s.safety with
      reqHandover := false
      activeSlot := 1 - s.safety.activeSlot
      version := if s.safety.reqRevert then s.safety.oldVersion else s.safety.nextVersion
      oldVersion := s.safety.version
      minors := if s.safety.reqRevert then s.safety.oldMinors else minorsOf s.safety.nextVersion
      oldMinors := s.safety.minors } }
  s1.setOd 0x7030 2 (if s.safety.reqRevert then 0 else 1)

theorem fwHandover_due {s : State} (hreq : s.safety.reqHandover = true) (hrun : s.safety.crown = .running) :
    exec .fwHandover s = .next (
      let t := (handedOver s).info 0x016B none 0 0 (handedOver s).safety.version
      if raises (handedOver s).safety.minors s.safety.minors then t.retrainAll else t) :=
  congrArg Host.Outcome.next (if_neg (by simp [hreq, hrun]))

/-- The notice of a handover leaves the safety state, the fabric and the work running. -/
theorem handedOver_told (s : State) (v : Nat) : ∃ d h p w,
    (handedOver s).info 0x016B none 0 0 v = { s with dict := d, host := h, power := p, visor := w, safety := (handedOver s).safety } := by
  obtain ⟨c, r, a, w, hraise⟩ := State.raise_frame (handedOver s) ⟨0, 0x016B, none, 0, 0, 0, 0, v⟩
  exact ⟨_, _, _, _, hraise⟩

theorem fwHandover_adopts {s : State} (hreq : s.safety.reqHandover = true) (hrun : s.safety.crown = .running) :
    ∃ t, exec .fwHandover s = .next t ∧ t.safety = (handedOver s).safety ∧
      (raises t.safety.minors s.safety.minors = true → ∀ l : LinkId, (s.link l).up = true → (t.link l).training = true) ∧
      (raises t.safety.minors s.safety.minors = false → t.fab = s.fab) ∧
      t.cores = s.cores ∧ t.sigs = s.sigs ∧ t.jobs = s.jobs ∧ t.mem = s.mem ∧ t.dictP = s.dictP := by
  refine ⟨_, fwHandover_due hreq hrun, ?_⟩
  obtain ⟨d, h, p, w, htold⟩ := handedOver_told s (handedOver s).safety.version
  simp only [htold]
  by_cases hraises : raises (handedOver s).safety.minors s.safety.minors = true
  · rw [if_pos hraises]
    obtain ⟨_, _, _, _, _, _, hanswers⟩ := (State.Answers.refl
      { s with dict := d, host := h, power := p, visor := w, safety := (handedOver s).safety }).retrainAll
    have htraining : ∀ l : LinkId, (s.link l).up = true → (State.link (State.retrainAll
        { s with dict := d, host := h, power := p, visor := w, safety := (handedOver s).safety }) l).training = true :=
      fun l hup => State.retrainAll_training _ hup
    rw [hanswers] at htraining ⊢
    exact ⟨rfl, fun _ => htraining, fun hno => absurd hraises (by rw [hno]; exact Bool.false_ne_true), rfl, rfl, rfl, rfl, rfl⟩
  · rw [if_neg hraises]
    exact ⟨rfl, fun hyes => absurd hyes hraises, fun _ => rfl, rfl, rfl, rfl, rfl, rfl⟩

theorem fwRevert_due {s : State} (hreq : s.safety.reqHandover = true) : ∃ t, exec .fwRevert s = .next t ∧
    t.safety = { s.safety with reqHandover := false } ∧ t.cores = s.cores ∧ t.sigs = s.sigs ∧ t.jobs = s.jobs ∧ t.mem = s.mem := by
  refine ⟨_, congrArg Host.Outcome.next (if_neg (by simp [hreq])), ?_⟩
  obtain ⟨c, r, a, w, hraise⟩ := State.raise_frame
    (({ s with safety := { s.safety with reqHandover := false } }).setOd 0x7030 2 (if s.safety.reqRevert then 1 else 0))
    ⟨1, 0x016C, none, 0, 0, 0, 0, if s.safety.reqRevert then s.safety.oldVersion else s.safety.nextVersion⟩
  rw [State.warn, hraise]
  exact ⟨rfl, rfl, rfl, rfl, rfl⟩

theorem claimFirmwareSlots_holds : claimFirmwareSlots := by
  intro s ok
  refine ⟨fun hstaged hbad => ?bad, fun hstaged hok hlevel => ?good, fun hreq hrun => ?handover, fun hreq => ?revert,
    fun htrial => congrArg Host.Outcome.next (if_neg htrial)⟩
  case bad => exact congrArg Host.Outcome.next ((if_neg (not_not.2 hstaged)).trans (if_neg hbad))
  case good =>
    exact congrArg Host.Outcome.next ((if_neg (not_not.2 hstaged)).trans ((if_pos hok).trans (if_neg hlevel)))
  case handover =>
    obtain ⟨t, hexec, hsafety, htrain, hfab, hcores, hsigs, hjobs, hmem, hdictP⟩ := fwHandover_adopts hreq hrun
    refine ⟨t, hexec, ?_, ?_, ?_, ?_, ?_, htrain, hfab, hcores, hsigs, hjobs, hmem, hdictP⟩
    all_goals
      rw [hsafety]
      rfl
  case revert =>
    obtain ⟨t, hexec, hsafety, hcores, hsigs, hjobs, hmem⟩ := fwRevert_due hreq
    refine ⟨t, hexec, ?_, ?_, ?_, hcores, hsigs, hjobs, hmem⟩
    all_goals rw [hsafety]

end Sys2Proof.Claims

open Sys2Proof.Claims Sys2Proof.Machine

/-- Settles O51: restarts and handovers change Crown's own state, and what answering abandoned writes changes leaves the work
running. -/
theorem crownAndPowerFail : Obligations.CrownAndPowerFail :=
  ⟨claimCrownRestartLeavesWorkRunning_holds, claimPowerFailSavesJournal_holds, claimFirmwareSlots_holds⟩

end

section
/-! SUPPORT. What no command but a reset undoes (R537, R549, R551, R558): the straps, a trip while it stops the clocks, and the
journal in flash, under branches, folds and options. -/

namespace Sys2Proof.Machine

variable {init s : State}

/-- In state s the straps are those of an earlier state, a trip that stopped the clocks then is held, and the journal is that
of then with records behind it. -/
structure State.Keeps (s init : State) : Prop where
  straps : s.power.straps = init.power.straps
  trip : init.power.stopped = true →
    s.power.stopped = true ∧ s.power.tripped = init.power.tripped ∧ s.power.tripTime = init.power.tripTime
  journal : init.host.journal <+: s.host.journal

theorem State.Keeps.refl (s : State) : s.Keeps s := ⟨rfl, fun h => ⟨h, rfl, rfl⟩, List.prefix_refl _⟩

/-- An update of any fields but those of the host and the power. -/
theorem State.Keeps.frame (h : s.Keeps init) {pending out free mem ecc writeBack banks lost dmaLast stalled cores sems semOwner
    waiters ticket dmas roleGen dict dictP logical segOwner segStack bankOwner jobs loans latches latchHeld collQ collCycle
    sigs radio fr fab time visor safety tap} :
    (⟨pending, out, free, mem, ecc, writeBack, banks, lost, dmaLast, stalled, cores, sems, semOwner, waiters, ticket,
      dmas, roleGen, dict, dictP, logical, segOwner, segStack, bankOwner, jobs, loans, latches, latchHeld, collQ,
      collCycle, sigs, radio, fr, fab, time, s.host, visor, safety, s.power, tap⟩ : State).Keeps init :=
  ⟨h.straps, h.trip, h.journal⟩

/-- An update of the host and the power too, but for the journal, the straps and a trip. -/
theorem State.Keeps.frameUnits (h : s.Keeps init) {pending out free mem ecc writeBack banks lost dmaLast stalled cores sems
    semOwner waiters ticket dmas roleGen dict dictP logical segOwner segStack bankOwner jobs loans latches latchHeld collQ
    collCycle sigs radio fr fab time mail window xfers canHeld chans rings held pcieUp msixMask msixPending persists waiting
    journalNew visor safety level limit freq calm throttled hotCanton lostDomain capSteps railMv cause otherSlot powerFail
    alertLow verified hbmLost quadLost refreshOwed tap} :
    (⟨pending, out, free, mem, ecc, writeBack, banks, lost, dmaLast, stalled, cores, sems, semOwner, waiters, ticket,
      dmas, roleGen, dict, dictP, logical, segOwner, segStack, bankOwner, jobs, loans, latches, latchHeld, collQ,
      collCycle, sigs, radio, fr, fab, time,
      ⟨mail, window, xfers, canHeld, chans, rings, held, pcieUp, msixMask, msixPending, persists, waiting, s.host.journal,
        journalNew⟩,
      visor, safety,
      ⟨level, limit, freq, calm, throttled, hotCanton, lostDomain, capSteps, railMv, s.power.tripped, s.power.tripTime,
        s.power.stopped, cause, otherSlot, powerFail, s.power.straps, alertLow, verified, hbmLost, quadLost, refreshOwed⟩,
      tap⟩ : State).Keeps init :=
  ⟨h.straps, h.trip, h.journal⟩

/-! ### Branches, folds and options -/

theorem State.Keeps.ite {t : State} {c : Prop} [Decidable c] (h : s.Keeps init) (ht : t.Keeps init) :
    (if c then s else t).Keeps init := by
  split
  · exact h
  · exact ht

theorem State.Keeps.foldl {α} {f : State → α → State} {l : List α} (h : s.Keeps init)
    (hf : ∀ t : State, t.Keeps init → ∀ a, (f t a).Keeps init) : (l.foldl f s).Keeps init := by
  induction l generalizing s with
  | nil => exact h
  | cons a l ih => exact ih (hf _ h a)

/-- A fold that carries results beside the state. -/
theorem State.Keeps.foldl_fst {α β} {f : State × β → α → State × β} {l : List α} {x : State × β} (h : x.1.Keeps init)
    (hf : ∀ y : State × β, y.1.Keeps init → ∀ a, (f y a).1.Keeps init) : (l.foldl f x).1.Keeps init := by
  induction l generalizing x with
  | nil => exact h
  | cons a l ih => exact ih (hf _ h a)

theorem State.Keeps.elim {α} {o : Option α} {f : α → State} (h : s.Keeps init) (hf : ∀ a, (f a).Keeps init) :
    (o.elim s f).Keeps init := by
  cases o with
  | none => exact h
  | some a => exact hf a

/-- The state of a pair that a match has taken apart. -/
theorem State.Keeps.of_snd {α} {x : α × State} (h : x.2.Keeps init) {a t} (e : x = (a, t)) : t.Keeps init := by
  subst e; exact h

/-- The state that an operation answers, where it answers one, keeps what an earlier one held. -/
def MaybeKeeps (init : State) (o : Option State) : Prop := ∀ t, o = some t → t.Keeps init

theorem MaybeKeeps.none : MaybeKeeps init none := fun _ e => nomatch e

theorem MaybeKeeps.some (h : s.Keeps init) : MaybeKeeps init (some s) := fun _ e => Option.some.inj e ▸ h

theorem MaybeKeeps.ite {o q} {c : Prop} [Decidable c] (ho : MaybeKeeps init o) (hq : MaybeKeeps init q) :
    MaybeKeeps init (if c then o else q) := by
  split
  · exact ho
  · exact hq

theorem MaybeKeeps.map {α} {o : Option α} {f : α → State} (h : ∀ a, (f a).Keeps init) : MaybeKeeps init (o.map f) := by
  cases o with
  | none => exact .none
  | some a => exact .some (h a)

theorem MaybeKeeps.getD {o : Option State} (ho : MaybeKeeps init o) (h : s.Keeps init) : (o.getD s).Keeps init := by
  cases o with
  | none => exact h
  | some t => exact ho t rfl

/-- The state of a pair that a match has taken apart. -/
theorem MaybeKeeps.of_fst {α} {x : Option State × α} (h : MaybeKeeps init x.1) {t a} (e : x = (Option.some t, a)) :
    t.Keeps init := by
  subst e; exact h t rfl

/-- The state that decoding a command of a core answers, where it does not stall or fault, keeps what an earlier one held. -/
def DecR.Keeps (r : DecR) (init : State) : Prop := ∀ t, r = .ok t → t.Keeps init

theorem DecR.Keeps.stall : DecR.stall.Keeps init := fun _ e => nomatch e

theorem DecR.Keeps.fault {code detail} : (DecR.fault code detail).Keeps init := fun _ e => nomatch e

theorem DecR.Keeps.ok (h : s.Keeps init) : (DecR.ok s).Keeps init := fun _ e => DecR.ok.inj e ▸ h

theorem DecR.Keeps.ite {r q : DecR} {c : Prop} [Decidable c] (hr : r.Keeps init) (hq : q.Keeps init) :
    (if c then r else q).Keeps init := by
  split
  · exact hr
  · exact hq

/-- The state that an issue of a signal core answers, where it does not stall or fault, keeps what an earlier one held. -/
def SigR.Keeps (r : SigR) (init : State) : Prop := ∀ t, r = .ok t → t.Keeps init

theorem SigR.Keeps.stall : SigR.stall.Keeps init := fun _ e => nomatch e

theorem SigR.Keeps.fault {code detail} : (SigR.fault code detail).Keeps init := fun _ e => nomatch e

theorem SigR.Keeps.ok (h : s.Keeps init) : (SigR.ok s).Keeps init := fun _ e => SigR.ok.inj e ▸ h

theorem SigR.Keeps.ite {r q : SigR} {c : Prop} [Decidable c] (hr : r.Keeps init) (hq : q.Keeps init) :
    (if c then r else q).Keeps init := by
  split
  · exact hr
  · exact hq

/-- The next state of a command keeps what an earlier one held. -/
def LeavesKeeps (init : State) (o : Host.Outcome State Fault Refusal) : Prop := ∀ t, o = .next t → t.Keeps init

theorem LeavesKeeps.next (h : s.Keeps init) : LeavesKeeps init (.next s) := fun _ e => Host.Outcome.next.inj e ▸ h

theorem LeavesKeeps.ite {o q} {c : Prop} [Decidable c] (ho : LeavesKeeps init o) (hq : LeavesKeeps init q) :
    LeavesKeeps init (if c then o else q) := by
  split
  · exact ho
  · exact hq

end Sys2Proof.Machine
end

section
/-! SUPPORT. Straps, trip and journal are kept by what the engines of a core do: notices, counts, bytes and faults, queues, passes, and the
commands WLOAD, MPASS, SETG and DRAIN. -/

namespace Sys2Proof.Machine

variable {init s : State}

/-! ### Units -/

theorem State.Keeps.setCore (h : s.Keeps init) {p c} : (s.setCore p c).Keeps init := h.frame

theorem State.Keeps.modCoreAt (h : s.Keeps init) {n f} : (s.modCoreAt n f).Keeps init := by
  unfold State.modCoreAt
  split
  · exact h.setCore
  · exact h

theorem State.Keeps.setSig (h : s.Keeps init) {g c} : (s.setSig g c).Keeps init := h.frame

theorem State.Keeps.emit (h : s.Keeps init) {e} : (s.emit e).Keeps init := h.frame

theorem State.Keeps.takeFree (h : s.Keeps init) : s.takeFree.2.Keeps init := h.frame

/-! ### Dictionary values -/

theorem State.Keeps.setOd (h : s.Keeps init) {index sub v} : (s.setOd index sub v).Keeps init := h.frame

theorem State.Keeps.incOd (h : s.Keeps init) {index sub} : (s.incOd index sub).Keeps init := h.setOd

theorem State.Keeps.holdCan (h : s.Keeps init) : s.holdCan.Keeps init := .ite h.frameUnits h

theorem State.Keeps.freeCan (h : s.Keeps init) : s.freeCan.Keeps init := .ite h h.frameUnits

/-! ### Partitions and owners -/

theorem State.Keeps.setMapByte (h : s.Keeps init) {k l v} : (s.setMapByte k l v).Keeps init := h.frame

/-! ### Visor (R510 to R512) -/

theorem State.Keeps.visorCount (h : s.Keeps init) {index n event part by_} :
    (s.visorCount index n event part by_).Keeps init :=
  .ite h h.frame

theorem State.Keeps.countCore (h : s.Keeps init) {p event by_} : (s.countCore p event by_).Keeps init := h.visorCount

theorem State.Keeps.countCanton (h : s.Keeps init) {c event part by_} : (s.countCanton c event part by_).Keeps init :=
  h.visorCount

theorem State.Keeps.countDev (h : s.Keeps init) {event part by_} : (s.countDev event part by_).Keeps init := h.visorCount

/-! ### Notices (R493 to R498) -/

theorem State.Keeps.raiseAt (h : s.Keeps init) {time n} : (s.raiseAt time n).Keeps init := .ite h.frameUnits h.frameUnits.countDev

theorem State.Keeps.raise (h : s.Keeps init) {n} : (s.raise n).Keeps init := h.raiseAt

theorem State.Keeps.warn (h : s.Keeps init) {code part kind unit payload} :
    (s.warn code part kind unit payload).Keeps init :=
  h.raise

theorem State.Keeps.info (h : s.Keeps init) {code part kind unit payload} :
    (s.info code part kind unit payload).Keeps init :=
  h.raise

theorem State.Keeps.faultNotice (h : s.Keeps init) {code part kind unit payload} :
    (s.faultNotice code part kind unit payload).Keeps init :=
  h.raise

/-! ### Memory map (R163, R164, R303) -/

theorem State.Keeps.setBank (h : s.Keeps init) {b x} : (s.setBank b x).Keeps init := h.frame

/-! ### Bytes -/

theorem State.Keeps.countEcc (h : s.Keeps init) {a corrected} : (s.countEcc a corrected).Keeps init := by
  unfold State.countEcc
  split
  · exact .ite h.countCore (.ite h.countCanton h.countDev)
  · exact h.countDev
  · exact h

theorem State.Keeps.eccRead (h : s.Keeps init) {a n} : (s.eccRead a n).Keeps init := by
  dsimp only [State.eccRead]
  refine h.foldl fun _ ht _ => .ite ?_ ht
  split
  · exact .ite ht.countEcc ht.countEcc.frame
  · exact ht.countEcc
  · exact ht

theorem State.Keeps.eccMerge (h : s.Keeps init) {a n} : (s.eccMerge a n).Keeps init :=
  h.foldl fun _ ht _ => .ite ht.countEcc ht

theorem State.Keeps.touchRow (h : s.Keeps init) {a} : (s.touchRow a).Keeps init := by
  dsimp only [State.touchRow]
  split
  · exact .ite h.frame h
  · exact h

theorem State.Keeps.touchRows (h : s.Keeps init) {a n} : (s.touchRows a n).Keeps init :=
  .ite h (h.foldl fun _ ht _ => ht.touchRow)

theorem State.Keeps.wr (h : s.Keeps init) {a n v} : (s.wr a n v).Keeps init := h.touchRows.eccMerge.frame

/-! ### A core's own scratchpad -/

theorem State.Keeps.wrOwn (h : s.Keeps init) {p off n v} : (s.wrOwn p off n v).Keeps init := .ite h.wr.modCoreAt h.wr

/-! ### Semaphores (R259, R260) -/

theorem State.Keeps.semWatch (h : s.Keeps init) {n old new} : (s.semWatch n old new).Keeps init := .ite h.frame h

theorem State.Keeps.setSem (h : s.Keeps init) {n v} : (s.setSem n v).Keeps init := h.frame.semWatch

theorem State.Keeps.semAdd (h : s.Keeps init) {n d} : (s.semAdd n d).Keeps init := .ite h.setSem.warn h.setSem

/-! ### Command faults (R90, R268 to R270) -/

theorem State.Keeps.modJob (h : s.Keeps init) {job f} : (s.modJob job f).Keeps init := h.frame

theorem State.Keeps.needCore (h : s.Keeps init) {p n} : (s.needCore p n).Keeps init := h.modCoreAt

theorem State.Keeps.needPart (h : s.Keeps init) {k n on} : (s.needPart k n on).Keeps init :=
  h.foldl fun _ ht _ => .ite (.ite ht.needCore ht.modCoreAt) ht

theorem State.Keeps.countGap (h : s.Keeps init) {k cs} : (s.countGap k cs).Keeps init :=
  .ite (h.foldl fun _ ht _ => ht.countCanton) h

theorem State.Keeps.enterLatch (h : s.Keeps init) {e} : (s.enterLatch e).Keeps init := h.frame.countCanton

theorem State.Keeps.latchEntry (h : s.Keeps init) {e} : (s.latchEntry e).Keeps init :=
  .ite h.frame.countCanton h.enterLatch

theorem State.Keeps.latch (h : s.Keeps init) {p code kind} : (s.latch p code kind).Keeps init := h.latchEntry

theorem State.Keeps.faultJob (h : s.Keeps init) {p} : (s.faultJob p).Keeps init := by
  dsimp only [State.faultJob]
  split
  · exact h
  · exact h.frame

theorem State.Keeps.fault (h : s.Keeps init) {p code detail cmd off} : (s.fault p code detail cmd off).Keeps init := by
  unfold State.fault
  extract_lets c s1 s2 _ s3
  have h1 : s1.Keeps init := h.modCoreAt
  have h2 : s2.Keeps init := .ite h1.modCoreAt h1.countCore
  have h3 : s3.Keeps init := .ite h2.frame h2
  exact .ite h2.modCoreAt (.ite h3.raise.faultJob.latch h3)

theorem State.Keeps.addFlags (h : s.Keeps init) {p f} : (s.addFlags p f).Keeps init := h.modCoreAt

/-! ### Stores of elements -/

theorem State.Keeps.putElem (h : s.Keeps init) {p t idx code} : (s.putElem p t idx code).Keeps init := h.wrOwn

theorem State.Keeps.putS8 (h : s.Keeps init) {p t blk code} : (s.putS8 p t blk code).Keeps init := h.wrOwn

/-! ### The drain's store (R123) -/

theorem State.Keeps.decodeCmd {k : State → Nat → DecR} (h : s.Keeps init)
    (hk : ∀ t : State, t.Keeps init → ∀ cmd, (k t cmd).Keeps init) {p op} : (s.decodeCmd p op k).Keeps init := by
  unfold State.decodeCmd
  split
  · exact h
  · refine .ite ?_ h
    split
    · exact h
    · exact h.fault
    · next e => exact hk _ h.setCore _ _ e

theorem DecR.Keeps.orFault {k : DecR} (hk : k.Keeps init) {causes} : (orFault causes k).Keeps init := .ite hk .fault

/-! ### Queues (R239) -/

/-! ### Engine accesses (R182, R184, R190) -/

theorem State.Keeps.powerUp (h : s.Keeps init) {b} : (s.powerUp b).Keeps init := h.setBank

theorem State.Keeps.wakeMacro (h : s.Keeps init) {b m} : (s.wakeMacro b m).Keeps init :=
  .eccRead (.ite h.setBank.countCore h.setBank)

theorem State.Keeps.wake (h : s.Keeps init) {a} : (s.wake a).Keeps init := by
  dsimp only [State.wake]
  split
  · exact .ite h.setBank (.ite h.setBank (.ite h.wakeMacro h))
  · exact h

theorem State.Keeps.wakeSpan (h : s.Keeps init) {a n} : (s.wakeSpan a n).Keeps init :=
  .ite h (h.foldl fun _ ht _ => ht.wake)

theorem State.Keeps.wakeAll (h : s.Keeps init) {l} : (s.wakeAll l).Keeps init := h.foldl fun _ ht _ => ht.wakeSpan

theorem State.Keeps.readAll (h : s.Keeps init) {l} : (s.readAll l).Keeps init :=
  (h.foldl fun _ ht _ => ht.eccRead).wakeAll

theorem State.Keeps.seqRead {k : State → DecR} (h : s.Keeps init) (hk : ∀ t : State, t.Keeps init → (k t).Keeps init)
    {l pre} : (s.seqRead l pre k).Keeps init :=
  .ite (hk _ h.readAll) .fault

/-! ### Fetch (R235) -/

theorem State.Keeps.fetch (h : s.Keeps init) {p} : (s.fetch p).Keeps init :=
  .ite (.ite (.ite h.fault h) (.ite h.readAll.setCore h)) h

/-! ### Row passes (R59 to R64, R74, R105, R112) -/

theorem State.Keeps.setFrames (h : s.Keeps init) {x} : (s.setFrames x).Keeps init := h.frame

theorem State.Keeps.storeFrame (h : s.Keeps init) {p v nz} : (s.storeFrame p v nz).Keeps init := by
  dsimp only [State.storeFrame]
  split
  · exact h
  · exact .ite h.setFrames h

theorem State.Keeps.compareFrame (h : s.Keeps init) {job d nz} : (s.compareFrame job d nz).Keeps init :=
  .ite h (.ite (.ite h.setFrames.setOd.warn h.setFrames) (.ite h.setFrames.info h.setFrames))

theorem State.Keeps.closeFrames (h : s.Keeps init) {handle bound n} : (s.closeFrames handle bound n).Keeps init := by
  induction n generalizing s with
  | zero => exact h
  | succ n ih =>
    unfold State.closeFrames
    dsimp only
    split
    · exact h
    · exact .ite h (ih h.setFrames.compareFrame)

theorem State.Keeps.frameStep (h : s.Keeps init) {p} : (s.frameStep p).Keeps init := by
  dsimp only [State.frameStep]
  split
  · exact h
  · exact h.closeFrames

theorem State.Keeps.endFrames (h : s.Keeps init) {job} : (s.endFrames job).Keeps init := h.closeFrames.frame

/-! ### What a VOP writes -/

theorem State.Keeps.vwrite (h : s.Keeps init) {p w} : (s.vwrite p w).Keeps init := by
  dsimp only [State.vwrite]
  split
  · exact h.putElem
  · exact h.putS8
  · exact h.wrOwn
  · exact h.putElem

/-! ### Accesses of a VOP and their faults (R184) -/

theorem State.Keeps.execVop (h : s.Keeps init) {p v} : (s.execVop p v).Keeps init := by
  unfold State.execVop
  extract_lets c rd s0 o wr s1 s2 s3
  have h0 : s0.Keeps init := h.readAll
  have h1 : s1.Keeps init := h0.wakeAll.foldl fun _ ht _ => ht.vwrite
  have h2 : s2.Keeps init := h1.addFlags
  have h3 : s3.Keeps init := .ite h2 h2.countDev
  refine .ite h0.fault (.ite h0.fault ?_)
  split
  · exact h3.fault
  · exact h3

/-! ### Digest folds (R256, R280, R281) -/

theorem State.Keeps.execFold (h : s.Keeps init) {p slot desc cmd off} : (s.execFold p slot desc cmd off).Keeps init :=
  .ite h.readAll.fault h.readAll.modCoreAt

theorem State.Keeps.execStore (h : s.Keeps init) {p slot addr cmd off} : (s.execStore p slot addr cmd off).Keeps init :=
  .ite h.fault h.wakeSpan.storeFrame.wrOwn.modCoreAt

/-! ### Waiters (R319, R320, R322) -/

theorem State.Keeps.ask (h : s.Keeps init) {n need who} : (s.ask n need who).Keeps init := h.frame

/-! ### Queue heads (R240) -/

theorem State.Keeps.popHead (h : s.Keeps init) {p eng} : (s.popHead p eng).Keeps init := h.setCore

theorem State.Keeps.setHead (h : s.Keeps init) {p eng q} : (s.setHead p eng q).Keeps init := h.setCore

theorem State.Keeps.runHeadVop (h : s.Keeps init) {p v} : (s.runHeadVop p v).Keeps init :=
  .ite h.popHead.execVop.setCore h.popHead.execVop

theorem State.Keeps.headStep (h : s.Keeps init) {p eng} : MaybeKeeps init (s.headStep p eng) := by
  dsimp only [State.headStep]
  split
  · exact .none
  · split
    · exact .ite .none (.some h.popHead.semAdd)
    · exact .ite .none (.ite (.some h.popHead.modCoreAt) (.some (.ite h.setHead.ask h.setHead)))
    · exact .some h.runHeadVop
    · exact .some h.popHead.execFold
    · exact .ite .none (.some h.popHead.execStore)
    · exact .ite (.some h.popHead) .none
    · exact .none
    · exact .none

theorem State.Keeps.pumpQueue (h : s.Keeps init) {p eng n} : (s.pumpQueue p eng n).Keeps init := by
  induction n generalizing s with
  | zero => exact h
  | succ n ih =>
    unfold State.pumpQueue
    split
    · next e => exact ih (h.headStep _ e)
    · exact h

theorem State.Keeps.pump (h : s.Keeps init) {p} : (s.pump p).Keeps init := h.pumpQueue.pumpQueue.pumpQueue.pumpQueue

theorem State.Keeps.pumpAt (h : s.Keeps init) {p} : (s.pumpAt p).Keeps init := by
  unfold State.pumpAt
  split
  · exact h.pump
  · exact h

/-! ### WLOAD (R56 to R58, R81 to R84, R248) -/

theorem State.Keeps.startWload (h : s.Keeps init) {p} : (s.startWload p).Keeps init := by
  dsimp only [State.startWload]
  split
  · exact .ite h.setCore h
  · exact h

theorem State.Keeps.decodeWload (h : s.Keeps init) {p off cmd} : (decodeWload p off s cmd).Keeps init := by
  dsimp only [Machine.decodeWload]
  refine .ite .stall ?_
  split
  · exact .orFault .stall
  · exact h.seqRead fun _ ht => .orFault (.ok ht.setCore.startWload)

theorem State.Keeps.execShadowComplete (h : s.Keeps init) {p} : LeavesKeeps init (execShadowComplete p s) := by
  dsimp only [Machine.execShadowComplete]
  refine .next ?_
  split
  · exact h
  · exact .ite h.readAll.setCore.fault h.readAll.setCore.setCore.addFlags.pump

/-! ### MPASS (R77 to R80, R250) -/

theorem State.Keeps.decodeMpass (h : s.Keeps init) {p off cmd} : (decodeMpass p off s cmd).Keeps init := by
  dsimp only [Machine.decodeMpass]
  refine .ite .stall ?_
  split
  · exact h.seqRead fun _ ht => .orFault (.ok ht.setCore.pump)
  · exact .orFault .stall

theorem State.Keeps.execFeederFill (h : s.Keeps init) {p i} : LeavesKeeps init (execFeederFill p i s) := by
  dsimp only [Machine.execFeederFill]
  refine .next (.ite ?_ h)
  split
  · exact h
  · exact .ite h.readAll.fault h.readAll.setCore.addFlags

theorem State.Keeps.execRowIssue (h : s.Keeps init) {p} : LeavesKeeps init (execRowIssue p s) := by
  dsimp only [Machine.execRowIssue]
  refine .next ?_
  split
  · exact h
  · split
    · exact h.countCore
    · exact h.setCore.countCore
    · exact .ite h.setCore.countCore h.setCore.addFlags.countCore.countCore

theorem State.Keeps.execSwap (h : s.Keeps init) {p} : LeavesKeeps init (execSwap p s) := by
  dsimp only [Machine.execSwap]
  refine .next ?_
  split
  · exact .ite h.setCore h
  · exact h

theorem State.Keeps.residueHit (h : s.Keeps init) {p hit} : (s.residueHit p hit).Keeps init := by
  unfold State.residueHit
  split
  · exact h
  · exact h.modCoreAt.countCore

theorem State.Keeps.logRow (h : s.Keeps init) {p r} : (s.logRow p r).Keeps init := .ite h.modCoreAt h

theorem State.Keeps.execContributionLand (h : s.Keeps init) {p errs} :
    LeavesKeeps init (execContributionLand p errs s) := by
  dsimp only [Machine.execContributionLand]
  refine .next ?_
  split
  · exact h
  · exact h.logRow.setCore.addFlags.residueHit.pump

/-! ### SETG (R94, R249) -/

theorem State.Keeps.decodeSetg (h : s.Keeps init) {p cmd} : (decodeSetg p s cmd).Keeps init := by
  dsimp only [Machine.decodeSetg]
  split
  · exact .orFault .stall
  · exact h.seqRead fun _ ht => .orFault (.ok ht.setCore)

/-! ### DRAIN (R87, R119 to R125, R251, R252) -/

theorem State.Keeps.decodeDrain (h : s.Keeps init) {p off cmd} : (decodeDrain p off s cmd).Keeps init := by
  dsimp only [Machine.decodeDrain]
  refine .ite .stall ?_
  split
  · exact .orFault .stall
  · refine h.seqRead fun _ ht => .ite (.orFault (.ok ht.setCore.pump)) ?_
    split
    · exact .orFault .stall
    · exact ht.seqRead fun _ ht => .orFault (.ok ht.setCore.pump)

theorem State.Keeps.execDrainStart (h : s.Keeps init) {p} : LeavesKeeps init (execDrainStart p s) := by
  dsimp only [Machine.execDrainStart]
  refine .next ?_
  split
  · exact .ite h h.setCore
  · exact h

theorem State.Keeps.execDrainRowRead (h : s.Keeps init) {p errs} : LeavesKeeps init (execDrainRowRead p errs s) := by
  unfold Machine.execDrainRowRead
  extract_lets c
  refine .next ?_
  split
  · exact h
  extract_lets r ws wr fl s1 s2 s3 s4
  have h1 : s1.Keeps init := h.setCore
  have h2 : s2.Keeps init := h1.wakeAll.foldl fun _ ht _ => ht.vwrite
  have h3 : s3.Keeps init := h2.addFlags
  have h4 : s4.Keeps init := .ite h3.modCoreAt h3
  exact .ite h (.ite h.fault h4.residueHit)

theorem State.Keeps.execDrainComplete (h : s.Keeps init) {p} : LeavesKeeps init (execDrainComplete p s) := by
  dsimp only [Machine.execDrainComplete]
  refine .next ?_
  split
  · exact .ite h.setCore.pump h
  · exact h

end Sys2Proof.Machine
end

section
/-! SUPPORT. Straps, trip and journal are kept by links, tunnels and routes, accesses to memory, and the power states of the banks. -/

namespace Sys2Proof.Machine

variable {init s : State}

/-! ### Ports -/

theorem State.Keeps.setLink (h : s.Keeps init) {l x} : (s.setLink l x).Keeps init := h.frame

theorem State.Keeps.setTun (h : s.Keeps init) {t x} : (s.setTun t x).Keeps init := h.frame

theorem State.Keeps.linkSend (h : s.Keeps init) {l m} : (s.linkSend l m).Keeps init :=
  (h.foldl fun _ ht _ => ht.setLink.emit).setLink

theorem State.Keeps.linkPump (h : s.Keeps init) {l n} : (s.linkPump l n).Keeps init := by
  induction n generalizing s with
  | zero => exact h
  | succ n ih =>
    unfold State.linkPump
    refine .ite h ?_
    split
    · exact h
    · exact .ite h (ih h.linkSend)

theorem State.Keeps.tunFrames (h : s.Keeps init) {t seq flits} : (s.tunFrames t seq flits).Keeps init :=
  h.foldl fun _ ht _ => ht.setTun.emit

theorem State.Keeps.tunPump (h : s.Keeps init) {t n} : (s.tunPump t n).Keeps init := by
  induction n generalizing s with
  | zero => exact h
  | succ n ih =>
    unfold State.tunPump
    refine .ite h ?_
    split
    · exact h
    · exact .ite h (ih h.setTun.tunFrames)

/-! ### Routing (R423, R424) -/

theorem State.Keeps.viaLink (h : s.Keeps init) {l m} : (s.viaLink l m).Keeps init := h.setLink.emit.linkPump

theorem State.Keeps.viaTun (h : s.Keeps init) {t m} : (s.viaTun t m).Keeps init := h.setTun.emit.tunPump

theorem State.Keeps.toInbox (h : s.Keeps init) {port m} : (s.toInbox port m).Keeps init := h.frame

theorem State.Keeps.route (h : s.Keeps init) {m} : MaybeKeeps init (s.route m) := by
  dsimp only [State.route]
  refine .ite (.some h.toInbox) ?_
  split
  · exact .ite (.some h.viaLink) .none
  · split
    · exact .ite (.some h.countDev) (.ite (.some h.viaTun) .none)
    · exact .none

theorem State.Keeps.unreachable (h : s.Keeps init) {m} : (s.unreachable m).Keeps init :=
  .ite (h.route.getD h.countDev) h.countDev

theorem State.Keeps.post (h : s.Keeps init) {m} : (s.post m).Keeps init := h.route.getD h.unreachable

theorem State.Keeps.consume (h : s.Keeps init) {m} : (s.consume m).Keeps init := by
  dsimp only [State.consume]
  split
  · exact h
  · split
    · exact h.frame.setLink
    · split
      · exact h.frame.setTun
      · exact h.frame

theorem State.Keeps.await (h : s.Keeps init) {m} : (s.await m).Keeps init := .ite h h.toInbox

theorem State.Keeps.malformed (h : s.Keeps init) {m} : (s.malformed m).Keeps init :=
  .ite h.consume.countDev.post h.consume.countDev

theorem State.Keeps.take {k : State → State} (h : s.Keeps init) (hk : ∀ t : State, t.Keeps init → (k t).Keeps init)
    {m} : (s.take m k).Keeps init :=
  .ite h.await (.ite h.malformed (hk _ h.consume))

/-! ### One access -/

theorem State.Keeps.storeSem (h : s.Keeps init) {a v n} : (s.storeSem a v n).Keeps init := by
  induction n generalizing s a v with
  | zero => exact h
  | succ n ih => exact ih h.setSem

theorem State.Keeps.store (h : s.Keeps init) {addr n v} : (s.store addr n v).Keeps init := by
  dsimp only [State.store]
  split
  · exact h.storeSem
  · exact h.frameUnits
  · exact h.wr

theorem State.Keeps.atomicAt (h : s.Keeps init) {mode a v} : (s.atomicAt mode a v).s.Keeps init := by
  dsimp only [State.atomicAt]
  split
  · exact h.eccRead
  · exact h.eccRead.wr

theorem State.Keeps.writeAccess (h : s.Keeps init) {who addr n v} : (s.writeAccess who addr n v).2.Keeps init := by
  dsimp only [State.writeAccess]
  split
  · exact h
  · split
    · exact h.wakeSpan.atomicAt
    · exact h.wakeSpan.atomicAt
    · exact h.wakeSpan.store

theorem State.Keeps.readAccess (h : s.Keeps init) {who addr n} : (s.readAccess who addr n).2.2.Keeps init := by
  dsimp only [State.readAccess]
  split
  · exact h
  · exact h.eccRead.wakeSpan

/-! ### Waiting for a bank -/

theorem State.Keeps.beginWake (h : s.Keeps init) {b a} : (s.beginWake b a).Keeps init :=
  .ite h (.ite h.setBank (.ite h.setBank h))

theorem State.Keeps.stall (h : s.Keeps init) {x} : (s.stall x).Keeps init := h.frame.foldl fun _ ht _ => ht.beginWake

/-! ### Rounds of a sub-bank (R170 to R178) -/

theorem State.Keeps.storePart (h : s.Keeps init) {x} : (s.storePart x).Keeps init := h.foldl fun _ ht _ => ht.wr

theorem State.Keeps.countLost (h : s.Keeps init) {b m part} : (s.countLost b m part).Keeps init :=
  .ite h.countCore (.ite h.countCanton h)

theorem State.Keeps.countWLost (h : s.Keeps init) {b part} : (s.countWLost b part).Keeps init :=
  .ite h.countCore (.ite h.countCanton h)

theorem State.Keeps.merge (h : s.Keeps init) {cyc whole taken l} : (s.merge cyc whole taken l).s.Keeps init := by
  induction l generalizing s taken with
  | nil => exact h
  | cons x l ih =>
    unfold State.merge
    dsimp only
    split
    · exact ih h.storePart
    · exact ih h

theorem State.Keeps.grant (h : s.Keeps init) {cyc x rest} : (s.grant cyc x rest).s.Keeps init := by
  dsimp only [State.grant]
  split
  · exact h.foldl fun _ ht _ => ht.eccRead
  · exact h.storePart.merge
  · exact h.atomicAt

theorem State.Keeps.loses (h : s.Keeps init) {k x} : (s.loses k x).Keeps init := h.countLost.frame

theorem State.Keeps.wins (h : s.Keeps init) {k x} : (s.wins k x).Keeps init := h.frame

theorem State.Keeps.rounds (h : s.Keeps init) {k f cyc ps} : (s.rounds k f cyc ps).1.Keeps init := by
  induction f generalizing s cyc ps with
  | zero => exact h
  | succ f ih =>
    unfold State.rounds
    split
    · exact h
    · exact ih (h.grant.foldl fun _ ht _ => .ite ht.loses ht.wins)

theorem State.Keeps.runLarge (h : s.Keeps init) {ps} : (s.runLarge ps).1.Keeps init :=
  State.Keeps.foldl_fst (x := (s, [])) h fun _ ht _ => ht.rounds

theorem State.Keeps.runSmall (h : s.Keeps init) {cyc l} : (s.runSmall cyc l).1.Keeps init := by
  induction l generalizing s cyc with
  | nil => exact h
  | cons e l ih =>
    dsimp only [State.runSmall]
    refine ih ?_
    split
    · exact h.eccRead
    · exact h.wr
    · exact h.atomicAt

/-! ### The accesses of one cycle -/

theorem State.Keeps.wLost (h : s.Keeps init) {r word} : (s.wLost r word).Keeps init := .ite h.countWLost.warn h.countWLost

theorem State.Keeps.aloneAccess (h : s.Keeps init) {x} : (s.aloneAccess x).s.Keeps init := by
  dsimp only [State.aloneAccess]
  split
  · exact h.readAccess
  · exact h.writeAccess

theorem State.Keeps.memServe (h : s.Keeps init) {l} : (s.memServe l).1.Keeps init := by
  unfold State.memServe
  exact (State.Keeps.foldl_fst (x := (_, [])) (h.foldl fun _ ht _ => ht.stall)
    fun _ ht _ => ht.aloneAccess).runLarge.runSmall

theorem State.Keeps.noteLost (h : s.Keeps init) {e} : (s.noteLost e).Keeps init := by
  unfold State.noteLost
  split
  · exact h.wLost
  · exact h

theorem State.Keeps.respondTo (h : s.Keeps init) {e} : (s.respondTo e).Keeps init := h.noteLost.emit

theorem State.Keeps.memCycle (h : s.Keeps init) {l} : (s.memCycle l).Keeps init :=
  h.memServe.foldl fun _ ht _ => ht.respondTo

theorem State.Keeps.postWrite (h : s.Keeps init) {g addr n data others} :
    (s.postWrite g addr n data others).2.Keeps init := by
  unfold State.postWrite
  extract_lets master r q x
  have hx : x.1.Keeps init := h.memServe
  split
  · exact h.writeAccess.memCycle
  · exact hx.foldl fun _ ht _ => .ite ht.noteLost ht.respondTo

theorem State.Keeps.upset (h : s.Keeps init) {a u} : (s.upset a u).Keeps init := by
  unfold State.upset
  refine .ite h (.ite ?_ h.frame)
  exact h.frame

/-! ### The steps -/

theorem State.Keeps.scrub (h : s.Keeps init) {b u} : (s.scrub b u).Keeps init :=
  .ite h (.setBank (.ite h h.upset.eccRead))

theorem State.Keeps.execScrubForcedRound (h : s.Keeps init) {bank u} :
    LeavesKeeps init (execScrubForcedRound bank u s) := by
  unfold Machine.execScrubForcedRound
  refine .next ?_
  split
  · exact h.scrub
  · exact .ite h.scrub.countGap.needPart h.needPart

theorem State.Keeps.release (h : s.Keeps init) {b} : (s.release b).Keeps init := h.frame.memCycle

theorem State.Keeps.execBankWakeDone (h : s.Keeps init) {bank} : LeavesKeeps init (execBankWakeDone bank s) := by
  dsimp only [Machine.execBankWakeDone]
  refine .next (.ite (.ite h.setBank.release h) ?_)
  split
  · exact h
  · exact h.wakeMacro.release

theorem State.Keeps.loseBank (h : s.Keeps init) {b} : (s.loseBank b).Keeps init :=
  h.frame

theorem State.Keeps.execBankStateChange (h : s.Keeps init) {bank} : LeavesKeeps init (execBankStateChange bank s) := by
  dsimp only [Machine.execBankStateChange]
  refine .next (.ite h ?_)
  split
  · exact h.setBank
  · exact h.setBank
  · exact .ite h h.setBank.release
  · exact .ite h h.loseBank.setBank.release
  · exact h

theorem State.Keeps.execSemaphoreCrownWrite (h : s.Keeps init) {addr len data} :
    LeavesKeeps init (execSemaphoreCrownWrite addr len data s) := by
  dsimp only [Machine.execSemaphoreCrownWrite]
  refine .next ?_
  split
  · exact h.writeAccess.emit
  · exact h

end Sys2Proof.Machine
end

section
/-! SUPPORT. Straps, trip and journal are kept by descriptors of the DMA engines, the light path, semaphore commands, and the commands of a core's
sequencer. -/

namespace Sys2Proof.Machine

variable {init s : State}

/-! ### Messages (R427, R428) -/

theorem State.Keeps.request (h : s.Keeps init) {node vc mtype addr len payload origin} :
    MaybeKeeps init (s.request node vc mtype addr len payload origin) :=
  .map fun _ => h.frame.post

/-! ### External actions of a pair (R517, R518) -/

theorem State.Keeps.holdAct (h : s.Keeps init) {p words a} : (s.holdAct p words a).Keeps init := h.modCoreAt

/-! ### Descriptors (R218 to R222) -/

theorem State.Keeps.setDmaQ (h : s.Keeps init) {e l} : (s.setDmaQ e l).Keeps init := h.frame

theorem State.Keeps.setDmaHead (h : s.Keeps init) {e d} : (s.setDmaHead e d).Keeps init := h.setDmaQ

theorem State.Keeps.submitDma (h : s.Keeps init) {e desc p} : (s.submitDma e desc p).Keeps init := h.setDmaQ

theorem State.Keeps.submitCrown (h : s.Keeps init) {e desc} : (s.submitCrown e desc).Keeps init := h.setDmaQ

/-! ### DMA decoded (R218, R238, R258) -/

theorem State.Keeps.decodeDma (h : s.Keeps init) {p cmd} : (decodeDma p s cmd).Keeps init := by
  dsimp only [Machine.decodeDma]
  refine .ite .stall ?_
  split
  · exact .orFault .stall
  · exact h.seqRead fun _ ht => .orFault (.ok (.ite ht.holdAct ht.submitDma))

theorem State.Keeps.execDma (h : s.Keeps init) {by_} : LeavesKeeps init (execDma by_ s) := by
  unfold Machine.execDma
  refine .next ?_
  split
  · exact h.decodeCmd fun _ ht _ => ht.decodeDma
  · exact .ite h h.submitCrown

/-! ### Crossing claims (R451, R452) -/

theorem State.Keeps.setClaim (h : s.Keeps init) {p c} : (s.setClaim p c).Keeps init := h.frame

theorem State.Keeps.claimAt (h : s.Keeps init) {t claimant tag} : (s.claimAt t claimant tag).2.Keeps init := by
  dsimp only [State.claimAt]
  split
  · split
    · exact h.setClaim
    · exact h.setClaim
  · exact h

theorem State.Keeps.sendClaim (h : s.Keeps init) {p far} : (s.sendClaim p far).Keeps init := by
  have h1 {c} : (s.setClaim p c).Keeps init := h.setClaim
  unfold State.sendClaim
  refine .ite ?_ (h1.request.getD h)
  split
  · next e => exact (State.Keeps.of_snd h1.claimAt e).setClaim
  · next e => exact (State.Keeps.of_snd h1.claimAt e).setClaim
  · next e => exact .of_snd h1.claimAt e

theorem State.Keeps.endClaim (h : s.Keeps init) {p} : (s.endClaim p).Keeps init := by
  unfold State.endClaim
  extract_lets c s1 s2
  have h1 : s1.Keeps init := h.setClaim
  have h2 : s2.Keeps init := h1.foldl fun _ ht _ => .ite ht.sendClaim ht.post
  exact h2.foldl fun _ ht _ => .ite ht.setClaim ht.post

theorem State.Keeps.execClaimRetry (h : s.Keeps init) {p} : LeavesKeeps init (execClaimRetry p s) := by
  unfold Machine.execClaimRetry
  refine .next ?_
  split
  · exact .ite h.sendClaim h
  · exact h

/-! ### Descriptors run (R219 to R225) -/

theorem State.Keeps.execDmaDescriptorStart (h : s.Keeps init) {e} : LeavesKeeps init (execDmaDescriptorStart e s) := by
  dsimp only [Machine.execDmaDescriptorStart]
  refine .next ?_
  split
  · exact h
  · exact .ite h (.ite h.setDmaHead (.ite (.ite h.setDmaHead h.setDmaHead.ask) h.setDmaHead))

theorem State.Keeps.dmaLocal (h : s.Keeps init) {x run c} : (s.dmaLocal x run c).2.Keeps init := by
  dsimp only [State.dmaLocal]
  split
  · exact h.writeAccess
  · split
    · exact h
    · exact h.readAccess.writeAccess
  · split
    · exact h
    · split
      · exact h
      · split
        · exact h
        · exact .ite h.readAccess.store.countDev h.readAccess.store

theorem State.Keeps.dmaRun (h : s.Keeps init) {x mask l i} : (s.dmaRun x mask l i).Keeps init := by
  induction l generalizing s i with
  | nil => exact h
  | cons c l ih => exact ih (.ite h.dmaLocal h)

theorem State.Keeps.dmaMove (h : s.Keeps init) {e x} : (s.dmaMove e x).Keeps init :=
  .ite h.dmaRun.setDmaHead h.takeFree.takeFree.dmaRun.setDmaHead

theorem State.Keeps.brimWrite (h : s.Keeps init) {e dst n data} : MaybeKeeps init (s.brimWrite e dst n data) :=
  .ite h.request h.request

theorem State.Keeps.brimSend (h : s.Keeps init) {e x c} : MaybeKeeps init (s.brimSend e x c).1 := by
  unfold State.brimSend
  extract_lets src dst n w r
  have hr : r.2.2.Keeps init := h.readAccess
  split
  · dsimp only
    exact h.request
  · split
    · exact h.brimWrite
    · split
      · exact .none
      · split
        · dsimp only
          exact hr.request
        · exact hr.brimWrite

theorem State.Keeps.brimRun (h : s.Keeps init) {e l} : (s.brimRun e l).Keeps init := by
  induction l generalizing s with
  | nil =>
    unfold State.brimRun
    split
    · exact h.setDmaHead
    · exact h
  | cons c l ih =>
    unfold State.brimRun
    split
    · exact h
    · refine .ite h.setDmaHead ?_
      split
      · next hs => exact ih (MaybeKeeps.of_fst h.brimSend hs).setDmaHead
      · exact h
      · exact h.setDmaHead

theorem State.Keeps.dmaStep (h : s.Keeps init) {e op} : (s.dmaStep e op).Keeps init := by
  unfold State.dmaStep
  split
  · exact h
  refine .ite h ?_
  split
  · extract_lets c s1
    have h1 : s1.Keeps init := .ite h.sendClaim h
    exact .ite (.ite h1.dmaMove h1.brimRun) h1
  · exact .ite h.dmaMove h.brimRun

theorem State.Keeps.dmaFail (h : s.Keeps init) {x status} : (s.dmaFail x status).Keeps init := by
  unfold State.dmaFail
  split
  · exact h.faultNotice.modCoreAt
  · exact h.faultNotice

theorem State.Keeps.dmaFinish (h : s.Keeps init) {e x} : (s.dmaFinish e x).Keeps init := by
  unfold State.dmaFinish
  extract_lets s0 s1 rec_ s2
  have h1 : s1.Keeps init := by
    unfold s1
    split
    · exact .ite h.setDmaQ.endClaim h.setDmaQ
    · exact h.setDmaQ
  have hrec : rec_.2.Keeps init := by
    unfold rec_
    split
    · exact h1.writeAccess
    · exact h1
  have h2 : s2.Keeps init := by
    unfold s2
    split
    · exact hrec.countCore
    · exact hrec.latchEntry
  exact .ite h2 (.ite h2.dmaFail (.ite h2.dmaFail (.ite h2.semAdd h2)))

theorem State.Keeps.execDmaComplete (h : s.Keeps init) {e} : LeavesKeeps init (execDmaComplete e s) := by
  unfold Machine.execDmaComplete
  refine .next ?_
  split
  · exact h
  · exact .ite h.dmaFinish h

/-! ### The light path (R226 to R228) -/

theorem State.Keeps.decodeLite (h : s.Keeps init) {p cmd} : (decodeLite p s cmd).Keeps init :=
  .ite .stall (h.seqRead fun _ ht => .orFault (.ok (.ite ht.holdAct ht.setCore)))

theorem State.Keeps.execLiteDelivery (h : s.Keeps init) {p} : LeavesKeeps init (execLiteDelivery p s) := by
  dsimp only [Machine.execLiteDelivery]
  refine .next ?_
  split
  · exact h
  · refine .ite (.countCore (.setCore (.ite h.writeAccess.semAdd h.writeAccess))) ?_
    split
    · exact h
    · next e => exact (h.request _ e).setCore.countCore

theorem State.Keeps.execLiteResponse (h : s.Keeps init) {p} : LeavesKeeps init (execLiteResponse p s) := by
  dsimp only [Machine.execLiteResponse]
  refine .next ?_
  split
  · exact h
  · exact .ite h.setCore.warn h.setCore

/-! ### Semaphore commands (R229 to R231, R239, R244, R259) -/

theorem DecR.Keeps.semChecked {k : DecR} (hk : k.Keeps init) {p field n} : (s.semChecked p field n k).Keeps init :=
  .ite .fault (.ite .fault hk)

theorem State.Keeps.acquire (h : s.Keeps init) {p eng n k} : (s.acquire p eng n k).Keeps init := by
  unfold State.acquire
  extract_lets c s1
  have h1 : s1.Keeps init := h.setCore
  exact .ite (.ite (.ok h.setCore) (.ok (.ite h1.ask h1))) (.ite (.ok h.setCore.pump) .stall)

theorem State.Keeps.releaseSem (h : s.Keeps init) {p cmd eng n k} : (s.releaseSem p cmd eng n k).Keeps init :=
  .ite (.ok h.holdAct) (.ite (.ok h.semAdd) (.ite (.ok h.setCore.pump) .stall))

theorem State.Keeps.putRet {k : State → DecR} (h : s.Keeps init) (hk : ∀ t : State, t.Keeps init → (k t).Keeps init)
    {p off v} : (s.putRet p off v k).Keeps init :=
  .ite .fault (hk _ h.wakeSpan.wrOwn)

theorem State.Keeps.modPair (h : s.Keeps init) {leader f} : (s.modPair leader f).Keeps init := h.frame

theorem State.Keeps.readSem (h : s.Keeps init) {p n r} (e : s.readSem p n = some r) : r.2.Keeps init := by
  dsimp only [State.readSem] at e
  split at e
  · exact Option.some.inj e ▸ h
  · exact Option.some.inj e ▸ h.setCore
  · split at e
    · exact nomatch e
    · exact Option.some.inj e ▸ .ite h.modPair.modCoreAt h.modPair

theorem State.Keeps.execSemRead (h : s.Keeps init) {p} : LeavesKeeps init (execSemRead p s) := by
  unfold Machine.execSemRead
  refine .next (h.decodeCmd fun _ ht _ => .semChecked ?_)
  split
  · exact .stall
  · next e => exact (ht.readSem e).putRet fun _ hu => .ok hu

/-! ### Grants (R260, R319 to R322) -/

theorem State.Keeps.pass (h : s.Keeps init) {p eng} : (s.pass p eng).Keeps init := h.modCoreAt.pumpAt

theorem State.Keeps.grantTo (h : s.Keeps init) {n w} : (s.grantTo n w).Keeps init := by
  unfold State.grantTo
  split
  · extract_lets s1
    have h1 : s1.Keeps init := h.pass
    split
    · exact .ite h1.modPair (.ite h1.modPair.pass h1.modPair)
    · exact h1
  · extract_lets go s1
    have hgo {st : State} (ht : st.Keeps init) (e : Nat) : (go st e).Keeps init := by
      unfold go
      split
      · exact ht.setDmaHead
      · exact ht
    have h1 : s1.Keeps init := hgo h _
    split
    · exact .ite (hgo h1 _) h1
    · exact h1
  · split
    · exact h.setSig
    · exact h

theorem State.Keeps.execSemGrant (h : s.Keeps init) {n} : LeavesKeeps init (execSemGrant n s) := by
  dsimp only [Machine.execSemGrant]
  refine .next ?_
  split
  · exact h
  · exact .ite (.grantTo (.ite h.frame.setSem.countCanton h.frame.setSem)) h

/-! ### Loops (R245) -/

theorem State.Keeps.decodeLoop (h : s.Keeps init) {p cmd} : (decodeLoop p s cmd).Keeps init := .orFault (.ok h.setCore)

theorem State.Keeps.decodeEndloop (h : s.Keeps init) {p cmd} : (decodeEndloop p s cmd).Keeps init := by
  dsimp only [Machine.decodeEndloop]
  refine .orFault ?_
  split
  · exact .stall
  · exact .ite (.ok h.setCore) (.ok h.setCore)

/-! ### STEP (R261, R446) -/

theorem State.Keeps.decodeStep (h : s.Keeps init) {p cmd} : (decodeStep p s cmd).Keeps init :=
  .orFault (.ite .stall (.ok h.setCore.frameStep))

theorem State.Keeps.execStepCmd (h : s.Keeps init) {p} : LeavesKeeps init (execStepCmd p s) := by
  dsimp only [Machine.execStepCmd]
  refine .next (.decodeCmd ?_ fun _ ht _ => ht.decodeStep)
  split
  · exact .ite h.setCore h
  · exact h

/-! ### Save maps (R307, R308) -/

theorem State.Keeps.readSaveMap (h : s.Keeps init) {p} : (s.readSaveMap p).Keeps init := by
  dsimp only [State.readSaveMap]
  split
  · exact h
  · exact .ite h.modCoreAt (.ite h.modCoreAt.warn h.modCoreAt)

/-! ### TILE.END (R264 to R267) -/

theorem State.Keeps.decodeTileEnd (h : s.Keeps init) {p off cmd} : (decodeTileEnd p off s cmd).Keeps init :=
  .orFault (.ok h.setCore)

theorem State.Keeps.tileLong (h : s.Keeps init) {p cycles} : (s.tileLong p cycles).Keeps init := .ite h.countCore.warn h

theorem State.Keeps.retireTile (h : s.Keeps init) {p ord off takes} : (s.retireTile p ord off takes).Keeps init := by
  unfold State.retireTile
  extract_lets c _ s1 _ s2
  have h1 : s1.Keeps init := h.setCore.countCore.tileLong
  have h2 : s2.Keeps init := .ite h1.setCore h1
  split
  · exact .ite h.setCore.fault (.ite h.setCore h.setCore.fault)
  · exact .ite h2.readSaveMap.latch h2

theorem State.Keeps.execTileEndRetire (h : s.Keeps init) {p} : LeavesKeeps init (execTileEndRetire p s) := by
  dsimp only [Machine.execTileEndRetire]
  refine .next ?_
  split
  · exact h
  · exact .ite h.retireTile h

/-! ### NOTE (R262) -/

theorem State.Keeps.noteNotice (h : s.Keeps init) {p sev ucode payload} : (s.noteNotice p sev ucode payload).Keeps init :=
  h.raise

theorem State.Keeps.decodeNote (h : s.Keeps init) {p cmd} : (decodeNote p s cmd).Keeps init :=
  .orFault (.ite .stall (.ite (.ok h.holdAct) (.ok h.noteNotice)))

/-! ### HALT (R263) -/

theorem State.Keeps.decodeHalt (h : s.Keeps init) {p cmd} : (decodeHalt p s cmd).Keeps init :=
  .orFault (.ok (.ite h.setCore.holdAct h.setCore))

theorem State.Keeps.execHaltComplete (h : s.Keeps init) {p} : LeavesKeeps init (execHaltComplete p s) := by
  dsimp only [Machine.execHaltComplete]
  refine .next (.ite h (.ite (.ite h h.setCore) ?_))
  split
  · exact h.fault
  · exact .ite h.countCanton h.setCore.tileLong.latch

/-! ### Held opcodes (R238, R243) -/

theorem State.Keeps.execCmdOpcode (h : s.Keeps init) {p} : LeavesKeeps init (execCmdOpcode p s) := by
  unfold Machine.execCmdOpcode
  refine .next ?_
  split
  · exact h
  · exact .ite h h.fault

end Sys2Proof.Machine
end

section
/-! SUPPORT. Straps, trip and journal are kept by partitions, jobs and their tasks, borrowing and moves. -/

namespace Sys2Proof.Machine

variable {init s : State}

/-! ### Rings and completions (R501, R502, R507) -/

theorem State.Keeps.rewriteCore (h : s.Keeps init) {p mv} : (s.rewriteCore p mv).Keeps init := by
  refine State.Keeps.modCoreAt ?_
  exact h.frame

theorem State.Keeps.setRing (h : s.Keeps init) {f off r} : (s.setRing f off r).Keeps init := h.frameUnits

theorem State.Keeps.msix (h : s.Keeps init) {f vec} : (s.msix f vec).Keeps init := .ite (.ite h h.frameUnits) h.emit

theorem State.Keeps.ringSignal (h : s.Keeps init) {f off} : (s.ringSignal f off).Keeps init :=
  .ite h.setRing h.setRing.msix

theorem State.Keeps.ringPut (h : s.Keeps init) {f off bytes v phase} : MaybeKeeps init (s.ringPut f off bytes v phase) :=
  .ite .none (.some h.emit.setRing.ringSignal)

theorem State.Keeps.flushHeld (h : s.Keeps init) {q n} : (s.flushHeld q n).Keeps init := by
  induction n generalizing s with
  | zero => exact h
  | succ n ih =>
    unfold State.flushHeld
    split
    · exact h
    · split
      · exact h
      · next e => exact ih (h.ringPut _ e).frameUnits

theorem State.Keeps.complete (h : s.Keeps init) {q user handle code status task} :
    (s.complete q user handle code status task).Keeps init :=
  h.frameUnits.flushHeld

theorem State.Keeps.completeJob (h : s.Keeps init) {j code status task} : (s.completeJob j code status task).Keeps init :=
  h.complete

/-! ### Cores in service and their partitions (R12, R293, R297) -/

theorem State.Keeps.bumpRole (h : s.Keeps init) {u} : (s.bumpRole u).Keeps init := h.frame

theorem State.Keeps.grow (h : s.Keeps init) {k n} : (s.grow k n).Keeps init := by
  induction n generalizing s with
  | zero => exact h
  | succ n ih =>
    unfold State.grow
    split
    · exact ih h.setMapByte.bumpRole
    · exact h

theorem State.Keeps.growAll (h : s.Keeps init) : s.growAll.Keeps init := h.foldl fun _ ht _ => ht.grow

/-! ### HBM segments (R303, R304) -/

theorem State.Keeps.addSeg (h : s.Keeps init) {k m} : (s.addSeg k m).Keeps init := by
  dsimp only [State.addSeg]
  split
  · exact h
  · exact .ite h.frame.bumpRole h

theorem State.Keeps.dropSeg (h : s.Keeps init) {g} : (s.dropSeg g).Keeps init := h.frame.bumpRole

theorem State.Keeps.fitHbm (h : s.Keeps init) {k} : (s.fitHbm k).Keeps init := by
  unfold State.fitHbm
  extract_lets cfg want localOnly wrong s1 sts off on s2 short
  have h1 : s1.Keeps init := h.foldl fun _ ht _ => ht.dropSeg
  have h2 : s2.Keeps init := h1.foldl fun _ ht _ => ht.dropSeg
  refine .ite (h2.foldl fun _ ht _ => ?_) (h2.foldl fun _ ht _ => ht.addSeg)
  split
  · exact ht.addSeg
  · exact ht

theorem State.Keeps.applyPartition (h : s.Keeps init) {k} : (s.applyPartition k).Keeps init := h.grow.fitHbm

theorem State.Keeps.execPartitionCoreFreed (h : s.Keeps init) {k} : LeavesKeeps init (execPartitionCoreFreed k s) := by
  unfold Machine.execPartitionCoreFreed
  refine .next ?_
  split
  · exact h
  · exact h.setMapByte.bumpRole.growAll

/-! ### Semaphores and banks of a job (R244, R305; log 42) -/

theorem State.Keeps.giveSems (h : s.Keeps init) {k l} : (s.giveSems k l).Keeps init :=
  h.foldl fun _ ht _ => ht.frame

theorem State.Keeps.dropSems (h : s.Keeps init) {l} : (s.dropSems l).Keeps init := h.foldl fun _ ht _ => ht.frame

theorem State.Keeps.ownBank (h : s.Keeps init) {k c b} : (s.ownBank k c b).Keeps init := h.frame.bumpRole

theorem State.Keeps.giveBank (h : s.Keeps init) {k c} : (s.giveBank k c).Keeps init :=
  .ite (h.foldl fun _ ht _ => ht.ownBank) (.ite h (h.foldl fun _ ht _ => ht.ownBank))

theorem State.Keeps.dropBanks (h : s.Keeps init) {k} : (s.dropBanks k).Keeps init :=
  h.foldl fun _ ht _ => .ite ht.frame.bumpRole ht

/-! ### Cores cleared and given up -/

theorem State.Keeps.dropWaiters (h : s.Keeps init) {p} : (s.dropWaiters p).Keeps init := h.frame

theorem State.Keeps.releaseCore (h : s.Keeps init) {p} : (s.releaseCore p).Keeps init := h.dropWaiters.modCoreAt.bumpRole

theorem State.Keeps.clearScratch (h : s.Keeps init) {p} : (s.clearScratch p).Keeps init :=
  h.foldl fun _ ht _ => ht.loseBank.setBank

theorem State.Keeps.clearCore (h : s.Keeps init) {p} : (s.clearCore p).Keeps init := h.dropWaiters.modCoreAt.clearScratch

/-! ### Starting jobs (R298 to R300, R504, R505, R516) -/

theorem State.Keeps.loadImage (h : s.Keeps init) {p image n} : (s.loadImage p image n).Keeps init := by
  unfold State.loadImage
  extract_lets cells s1 s2
  have h1 : s1.Keeps init := h.clearScratch
  have h2 : s2.Keeps init := h1.frame
  exact h2.foldl fun _ ht _ => ht.setBank

theorem State.Keeps.assignTask (h : s.Keeps init) {j t p} : (s.assignTask j t p).Keeps init := h.giveSems.modJob

theorem State.Keeps.startTask (h : s.Keeps init) {j ps fs t p e} : (s.startTask j ps fs t p e).Keeps init :=
  h.bumpRole.loadImage.modCoreAt.rewriteCore.giveBank

theorem State.Keeps.addPair (h : s.Keeps init) {job l f} : (s.addPair job l f).Keeps init := h.frame

theorem State.Keeps.startUnit (h : s.Keeps init) {j ps fs t} : (s.startUnit j ps fs t).Keeps init := by
  dsimp only [State.startUnit]
  split
  · split
    · exact h.startTask.startTask.addPair
    · exact h.startTask
  · exact h

theorem State.Keeps.startTasks (h : s.Keeps init) {j ps fs} : (s.startTasks j ps fs).Keeps init := by
  dsimp only [State.startTasks]
  split
  · exact (h.foldl fun _ ht _ => ht.elim fun _ => ht.assignTask).foldl fun _ ht _ => ht.startUnit
  · exact h.foldl fun _ ht _ => ht.elim fun _ => ht.assignTask

theorem State.Keeps.openRun (h : s.Keeps init) {j} : (s.openRun j).Keeps init := .ite h.frame h

/-! ### Saving and restoring (R306 to R311) -/

theorem State.Keeps.moveSems (h : s.Keeps init) {k m} : (s.moveSems k m).Keeps init := by
  unfold State.moveSems
  refine .ite h (.foldl (h.giveSems.foldl fun _ ht _ => ?_) fun _ ht _ => ht.frame)
  exact ht.frame

theorem State.Keeps.restoreTask (h : s.Keeps init) {p j sv moves} : (s.restoreTask p j sv moves).Keeps init := by
  unfold State.restoreTask
  extract_lets s1 back m s2 _ s3 s4 s5
  have h1 : s1.Keeps init := h.bumpRole.clearScratch
  have h2 : s2.Keeps init := by
    refine .foldl ?_ fun _ ht _ => ht.setBank
    exact h1.frame
  have h4 : s4.Keeps init := h2.modCoreAt.foldl fun _ ht _ => ht.rewriteCore
  exact h4.modCoreAt.giveBank.foldl fun _ ht _ => ht.submitDma

theorem State.Keeps.placeSaved (h : s.Keeps init) {job t p} : (s.placeSaved job t p).Keeps init := by
  unfold State.placeSaved
  extract_lets others
  split
  · exact h
  · split
    · exact h
    · split
      · exact h
      · exact .modJob (.ite h.moveSems.restoreTask (h.moveSems.restoreTask.foldl fun _ ht _ => ht.rewriteCore))

theorem State.Keeps.saveTask (h : s.Keeps init) {p} : (s.saveTask p).Keeps init := by
  dsimp only [State.saveTask]
  split
  · exact h
  · split
    · exact h
    · exact h.bumpRole.modJob.setDmaQ.dropWaiters.modCoreAt

theorem State.Keeps.saveUnit (h : s.Keeps init) {p} : (s.saveUnit p).Keeps init := by
  dsimp only [State.saveUnit]
  split
  · exact h.saveTask
  · exact h.saveTask.setDmaQ.releaseCore.frame

theorem State.Keeps.placePair (h : s.Keeps init) {job t p f} : (s.placePair job t p f).Keeps init := by
  dsimp only [State.placePair]
  split
  · exact h
  · split
    · exact h.placeSaved
    · exact h.placeSaved.restoreTask.addPair

theorem State.Keeps.placeUnit (h : s.Keeps init) {job t p f} : (s.placeUnit job t p f).Keeps init := by
  unfold State.placeUnit
  split
  · exact h.placePair
  · exact h.placeSaved

theorem State.Keeps.execStateRestore (h : s.Keeps init) {p} : LeavesKeeps init (execStateRestore p s) := by
  unfold Machine.execStateRestore
  refine .next ?_
  split
  · exact h
  · split
    · refine .ite h (.ite ?_ h.placeSaved)
      split
      · exact h.placePair
      · exact h
    · exact h

/-! ### Jobs end (R269, R325, R504, R507) -/

theorem State.Keeps.releaseCores (h : s.Keeps init) {job} : (s.releaseCores job).Keeps init :=
  (h.foldl fun _ ht _ => ht.releaseCore).frame.modJob

theorem State.Keeps.endJob (h : s.Keeps init) {job} : (s.endJob job).Keeps init := by
  dsimp only [State.endJob]
  split
  · exact h
  · exact (h.endFrames.releaseCores.foldl fun _ ht _ => ht.dropSems).frame.dropBanks

theorem State.Keeps.tryFinish (h : s.Keeps init) {job} : (s.tryFinish job).Keeps init := by
  unfold State.tryFinish
  split
  · exact h
  extract_lets s1 s2
  have h1 : s1.Keeps init := .ite h h.completeJob
  have h2 : s2.Keeps init := h1.modJob
  exact .ite h (.ite h.endJob (.ite (.ite h2.endJob h2) (.ite h.completeJob.endJob h)))

theorem State.Keeps.refillLatch (h : s.Keeps init) {p} : (s.refillLatch p).Keeps init := by
  unfold State.refillLatch
  split
  · exact h.frame.enterLatch
  · exact h

theorem State.Keeps.execCollectorTake (h : s.Keeps init) : LeavesKeeps init (execCollectorTake s) := by
  dsimp only [Machine.execCollectorTake]
  refine .next (h.frame.foldl fun _ ht _ => ?_)
  split
  · exact ht.frame.refillLatch
  · exact ht

theorem State.Keeps.trySuspended (h : s.Keeps init) {job} : (s.trySuspended job).Keeps init := by
  unfold State.trySuspended
  split
  · exact h
  · exact .ite h.modJob.completeJob h

theorem State.Keeps.execCompletionWrite (h : s.Keeps init) : LeavesKeeps init (execCompletionWrite s) := by
  unfold Machine.execCompletionWrite
  refine .next ?_
  split
  · exact h
  · split
    · exact h.frame
    · exact .ite h h.frame.modJob.trySuspended.tryFinish

theorem State.Keeps.execFaultedJobRelease (h : s.Keeps init) {handle} :
    LeavesKeeps init (execFaultedJobRelease handle s) := by
  unfold Machine.execFaultedJobRelease
  refine .next ?_
  split
  · exact h
  · exact .ite h.releaseCores.tryFinish h

/-! ### JOB_START and resumption (R298, R317, R504) -/

theorem State.Keeps.resumeJob (h : s.Keeps init) {j} : MaybeKeeps init (s.resumeJob j) := by
  dsimp only [State.resumeJob]
  split
  · exact .none
  · exact .some (h.foldl fun _ ht _ => ht.placeUnit).modJob.completeJob

theorem State.Keeps.startJob (h : s.Keeps init) {j} : MaybeKeeps init (s.startJob j) :=
  .map fun _ => h.modJob.startTasks.openRun

theorem State.Keeps.execJobStart (h : s.Keeps init) {q} : LeavesKeeps init (execJobStart q s) := by
  unfold Machine.execJobStart
  refine .next (.ite h ?_)
  split
  · exact h.resumeJob.getD h
  · split
    · exact h.startJob.getD h
    · exact h

/-! ### JOB_CTL (R317, R321, R507) -/

theorem State.Keeps.refuseCtl (h : s.Keeps init) {f handle} : (s.refuseCtl f handle).Keeps init := h.complete

theorem State.Keeps.jobCtl {k : Job → State} (h : s.Keeps init) (hk : ∀ j, (k j).Keeps init) {f v op ok} :
    (s.jobCtl f v op ok k).Keeps init := by
  unfold State.jobCtl
  refine .ite h ?_
  split
  · exact h.refuseCtl
  · exact .ite (hk _) h.refuseCtl

theorem State.Keeps.needAll (h : s.Keeps init) {job n} : (s.needAll job n).Keeps init := h.frame

theorem State.Keeps.dropJobs (h : s.Keeps init) {f} : (s.dropJobs f).Keeps init :=
  h.frameUnits.foldl fun _ ht _ => .ite ht.endJob ht.modJob.needAll.tryFinish

/-! ### Borrowing (R312 to R316) -/

theorem State.Keeps.execBorrowRequest (h : s.Keeps init) : LeavesKeeps init (execBorrowRequest s) := by
  dsimp only [Machine.execBorrowRequest]
  refine .next (.ite h ?_)
  split
  · exact h.frame
  · split
    · exact h
    · exact h.frame.modCoreAt

theorem State.Keeps.execBorrowHandover (h : s.Keeps init) {p ns} : LeavesKeeps init (execBorrowHandover p ns s) := by
  unfold Machine.execBorrowHandover
  refine .next ?_
  split
  · exact h
  refine .ite h ?_
  split
  · exact h
  extract_lets s1 s2
  have h1 : s1.Keeps init := h.setMapByte.setMapByte.clearCore
  have h2 : s2.Keeps init := h1.frame.bumpRole.incOd
  exact .ite h2.incOd.warn h2

theorem State.Keeps.execBorrowReturn (h : s.Keeps init) {p} : LeavesKeeps init (execBorrowReturn p s) := by
  dsimp only [Machine.execBorrowReturn]
  refine .next ?_
  split
  · exact h
  · exact .ite h h.setMapByte.setMapByte.clearCore.frame.bumpRole

/-! ### Moves (R301, R302) -/

theorem State.Keeps.moveCore (h : s.Keeps init) {p q} : (s.moveCore p q).Keeps init := by
  dsimp only [State.moveCore]
  split
  · exact h
  · split
    · exact h.setMapByte.frame.bumpRole
    · split
      · exact h.setMapByte.frame.saveTask.placeSaved
      · exact h.setMapByte.frame.bumpRole.modCoreAt.restoreTask

theorem State.Keeps.endStandIn (h : s.Keeps init) {q r lent} : (s.endStandIn q r lent).Keeps init :=
  .ite h.needCore h.moveCore.frame

theorem State.Keeps.shortCore (h : s.Keeps init) {k l v} : (s.shortCore k l v).Keeps init :=
  .warn (.setMapByte (.ite h.saveUnit h.bumpRole))

theorem State.Keeps.displace {settle : State → Nat → State} (h : s.Keeps init)
    (hsettle : ∀ t : State, t.Keeps init → ∀ x, (settle t x).Keeps init) {c p} : (s.displace c p settle).Keeps init := by
  unfold State.displace
  split
  · exact h
  refine .ite h.needCore (hsettle _ ?_ _)
  split
  · exact h.moveCore
  · exact h.shortCore

theorem State.Keeps.reassign (h : s.Keeps init) {p} : (s.reassign p).Keeps init := by
  dsimp only [State.reassign]
  split
  · split
    · exact h.endStandIn
    · exact .ite h.needCore (h.displace fun _ ht _ => ht.endStandIn)
  · refine .ite h ?_
    split
    · exact h.moveCore
    · exact h.displace fun _ ht _ => .ite ht ht.moveCore

end Sys2Proof.Machine
end

section
/-! SUPPORT. Straps, trip and journal are kept by messages between nodes, fencing, leases, links and tunnels. -/

namespace Sys2Proof.Machine

variable {init s : State}

/-! ### Requests served (R428, R442) -/

theorem State.Keeps.serve {k : State → State} (h : s.Keeps init) (hk : ∀ t : State, t.Keeps init → (k t).Keeps init)
    {m ty} : (s.serve m ty k).Keeps init :=
  .ite h (.ite h.await (.ite h.malformed (.ite h.consume.countDev.post (hk _ h.consume))))

theorem State.Keeps.gaddWords (h : s.Keeps init) {who a w n} : (s.gaddWords who a w n).2.Keeps init := by
  induction n generalizing s a w with
  | zero => exact h
  | succ n ih =>
    unfold State.gaddWords
    dsimp only
    split
    · exact h
    · split
      · exact h.readAccess
      · exact ih (.ite h.readAccess.store.countDev h.readAccess.store)

theorem State.Keeps.execClaim (h : s.Keeps init) {m} : LeavesKeeps init (execClaim m s) := by
  unfold Machine.execClaim
  refine .next (h.serve fun _ ht => ?_)
  split
  · exact ht.post
  · split
    · next e => exact (State.Keeps.of_snd ht.claimAt e).post
    · next e => exact (State.Keeps.of_snd ht.claimAt e).post
    · next e => exact .of_snd ht.claimAt e

/-! ### Fencing (R445 to R448) -/

theorem State.Keeps.tell (h : s.Keeps init) {ty node job gen x step} : (s.tell ty node job gen x step).Keeps init :=
  h.post

theorem State.Keeps.modRun (h : s.Keeps init) {job f} : (s.modRun job f).Keeps init := h.frame

theorem State.Keeps.removeDmas (h : s.Keeps init) {job e} : (s.removeDmas job e).Keeps init := by
  dsimp only [State.removeDmas]
  refine .ite h (.foldl (.setDmaQ ?_) fun _ ht _ => .ite ht.writeAccess ht)
  split
  · refine .ite (.frame ?_) h
    split
    · exact .ite h.endClaim h
    · exact h
  · exact h

theorem State.Keeps.fenceJob (h : s.Keeps init) {r dropped} : (s.fenceJob r dropped).Keeps init := by
  unfold State.fenceJob
  extract_lets cs s1 s2 s3 _ s4 s5
  have h1 : s1.Keeps init := h.needAll.foldl fun _ ht _ => ht.bumpRole
  have h2 : s2.Keeps init := h1.foldl fun _ ht _ => ht.removeDmas
  have h3 : s3.Keeps init := h2.foldl fun _ ht _ => ht.modCoreAt
  have h4 : s4.Keeps init := h3.frame
  have h5 : s5.Keeps init := h4.modRun
  exact .ite h (h5.foldl fun _ ht _ => ht.tell)

theorem State.Keeps.dropNode (h : s.Keeps init) {node} : (s.dropNode node).Keeps init :=
  (h.foldl fun _ ht _ => ht.fenceJob).foldl fun _ ht _ => ht.toInbox

theorem State.Keeps.dropPort (h : s.Keeps init) {port} : (s.dropPort port).Keeps init := h.foldl fun _ ht _ => ht.dropNode

/-! ### Responses (R429, R430, R443, R444) -/

theorem State.Keeps.dropOutst (h : s.Keeps init) {o} : (s.dropOutst o).Keeps init := h.frame

theorem State.Keeps.finishReq (h : s.Keeps init) {o code} : (s.finishReq o code).Keeps init := by
  unfold State.finishReq
  extract_lets s1
  have h1 : s1.Keeps init := h.dropOutst
  have hdma {e} : (match s1.dmaHead e with | some x => s1.setDmaHead e (x.answer code) | none => s1).Keeps init := by
    split
    · exact h1.setDmaHead
    · exact h1
  split
  · exact h1.modCoreAt
  · exact hdma
  · exact hdma
  · exact hdma
  · refine .ite h1.setClaim (.ite h1.setClaim ?_)
    split
    · split
      · exact h1.setClaim.setDmaHead
      · exact h1
    · exact h1
  · exact h1

theorem State.Keeps.execRsp (h : s.Keeps init) {m} : LeavesKeeps init (execRsp m s) := by
  unfold Machine.execRsp
  refine .next (.ite h (h.take fun _ ht => ?_))
  split
  · exact ht.finishReq
  · exact ht

theorem State.Keeps.brimStore (h : s.Keeps init) {x dst n data} : (s.brimStore x dst n data).2.Keeps init := by
  dsimp only [State.brimStore]
  split
  · exact h.gaddWords
  · exact h.writeAccess

theorem State.Keeps.execReadData (h : s.Keeps init) {m} : LeavesKeeps init (execReadData m s) := by
  dsimp only [Machine.execReadData]
  refine .next (.ite h (h.take fun _ ht => ?_))
  split
  · exact ht
  · split
    · split
      · exact ht.brimStore.finishReq
      · exact ht.dropOutst
    · exact ht.dropOutst.request.getD ht
    · exact ht.finishReq

theorem State.Keeps.resend (h : s.Keeps init) {o node unit gen} : (s.resend o node unit gen).Keeps init := by
  dsimp only [State.resend]
  split
  · exact h
  · exact h.frame.post

theorem State.Keeps.execStaleRole (h : s.Keeps init) {m r} : LeavesKeeps init (execStaleRole m r s) := by
  unfold Machine.execStaleRole
  refine .next (.ite h (h.take fun _ ht => ?_))
  split
  · exact ht
  · refine .ite ht.finishReq ?_
    split
    · exact ht.finishReq
    · exact ht.resend
    · split
      · exact ht.fenceJob.dropOutst
      · exact ht.finishReq

theorem State.Keeps.execFreeMsg (h : s.Keeps init) {m} : LeavesKeeps init (execFreeMsg m s) := by
  unfold Machine.execFreeMsg
  refine .next (.ite h (h.take fun _ ht => ?_))
  split
  · exact ht
  · split
    · exact .ite ht.sendClaim ht
    · exact ht

/-! ### Leases and staged commit (R445, R446, R449, R450) -/

theorem State.Keeps.setPairVer (h : s.Keeps init) {node v} : (s.setPairVer node v).Keeps init := h.setOd

theorem State.Keeps.setLease (h : s.Keeps init) {node w} : (s.setLease node w).Keeps init := h.frame.modRun

theorem State.Keeps.commitStep (h : s.Keeps init) {job k} : (s.commitStep job k).Keeps init := h.frame

theorem State.Keeps.execStepDone (h : s.Keeps init) {m} : LeavesKeeps init (execStepDone m s) := by
  unfold Machine.execStepDone
  extract_lets job gen k
  refine .next ?_
  split
  · exact h
  split
  · exact h.take fun _ ht => ht
  extract_lets head
  refine .ite (.ite (h.take fun _ ht => ht) (.ite h h.tell)) (h.take fun s1 h1 => .ite h1 ?_)
  extract_lets
  exact .ite (h1.commitStep.foldl fun _ ht _ => ht.tell) h1.modRun

theorem State.Keeps.execCommit (h : s.Keeps init) {m} : LeavesKeeps init (execCommit m s) := by
  unfold Machine.execCommit
  refine .next (.ite h (h.take fun _ ht => ?_))
  split
  · exact .ite ht ht.commitStep
  · exact ht

theorem State.Keeps.execFence (h : s.Keeps init) {m} : LeavesKeeps init (execFence m s) := by
  unfold Machine.execFence
  refine .next (.ite h (h.take fun _ ht => ?_))
  split
  · exact ht.fenceJob
  · exact ht

theorem State.Keeps.rerunTask (h : s.Keeps init) {j t step} : (s.rerunTask j t step).Keeps init := by
  unfold State.rerunTask
  split
  · exact h
  split
  · exact h
  extract_lets u put s1 s2 s3
  have h1 : s1.Keeps init := h.dropWaiters.startUnit.modCoreAt
  have h2 : s2.Keeps init := .elim h1 fun _ => h1.modCoreAt
  have h3 : s3.Keeps init := h2.foldl fun _ ht _ => ht.setSem
  exact h3.modJob

theorem State.Keeps.execFenceRecovery (h : s.Keeps init) {run survivorHolds inputsSurvive} :
    LeavesKeeps init (execFenceRecovery run survivorHolds inputsSurvive s) := by
  unfold Machine.execFenceRecovery
  refine .next ?_
  split
  · extract_lets s1 step gen s2
    have h1 : s1.Keeps init := .ite h.commitStep h
    have h2 : s2.Keeps init := h1.modJob.modRun
    exact .ite h (.ite h1.faultNotice.completeJob.endJob (h2.foldl fun _ ht _ => ht.rerunTask))
  · exact h

/-! ### Links (R432 to R436, R454) -/

theorem State.Keeps.linkDown (h : s.Keeps init) {l} : (s.linkDown l).Keeps init := h.setLink.dropPort

theorem State.Keeps.relane (h : s.Keeps init) {l} : (s.relane l).Keeps init :=
  .ite h (.ite h.countDev.linkDown (.ite h.setLink h.setLink.countDev))

theorem State.Keeps.replayLink (h : s.Keeps init) {l} : (s.replayLink l).Keeps init := by
  unfold State.replayLink
  extract_lets x s1 _ s2
  have h1 : s1.Keeps init := h.foldl fun _ ht _ => ht.emit
  have h2 : s2.Keeps init := h1.setLink
  exact .ite h2 h2.countDev

theorem State.Keeps.repair (h : s.Keeps init) {l} : (s.repair l).Keeps init := by
  dsimp only [State.repair]
  split
  · exact h
  · exact h.setLink.setPairVer

theorem State.Keeps.resumeLink (h : s.Keeps init) {l} : (s.resumeLink l).Keeps init := h.setLink.replayLink.linkPump

theorem State.Keeps.execLinkTraining (h : s.Keeps init) {l t} : LeavesKeeps init (execLinkTraining l t s) := by
  unfold Machine.execLinkTraining
  extract_lets cfg w _ x
  refine .next (.ite h (.ite h.linkDown.setLink.warn ?_))
  split
  · exact h.linkDown.setLink.warn
  · exact .ite (.ite h.linkDown.setLink h.setLink) (.ite h.setLink.repair.resumeLink h.setLink.setPairVer.linkPump)

theorem State.Keeps.arrive (h : s.Keeps init) {port m} : (s.arrive port m).Keeps init :=
  .ite h.toInbox.malformed h.toInbox

/-! ### Tunnels (R437 to R440) -/

theorem State.Keeps.tunTake (h : s.Keeps init) {t seq l} : (s.tunTake t seq l).Keeps init := by
  induction l generalizing s seq with
  | nil => exact h
  | cons d l ih => exact ih (.ite (h.setTun.foldl fun _ ht _ => ht.arrive) (.ite h.setTun h))

theorem State.Keeps.tunResend (h : s.Keeps init) {t} : (s.tunResend t).Keeps init := by
  unfold State.tunResend
  split
  · exact h
  · exact h.tunFrames

theorem State.Keeps.retrainAll (h : s.Keeps init) : s.retrainAll.Keeps init :=
  (h.foldl fun _ ht _ => .ite ht.setLink ht).foldl fun _ ht _ => .ite ht.tunResend ht

end Sys2Proof.Machine
end

section
/-! SUPPORT. Straps, trip and journal are kept by signal cores. -/

namespace Sys2Proof.Machine

variable {init s : State}

/-! ### Local memory (R342, R344) -/

theorem State.Keeps.sigLoad (h : s.Keeps init) {g off n} : (s.sigLoad g off n).2.Keeps init := by
  dsimp only [State.sigLoad]
  split
  · exact h
  · exact h.eccRead.wakeSpan

theorem State.Keeps.sigStore (h : s.Keeps init) {g off n w} : (s.sigStore g off n w).Keeps init := .ite h h.wakeSpan.wr

/-! ### Faults (R358) -/

theorem State.Keeps.sigStop (h : s.Keeps init) {g} : (s.sigStop g).Keeps init := h.frame.setSig

theorem State.Keeps.sigFault (h : s.Keeps init) {g w pc code detail} : (s.sigFault g w pc code detail).Keeps init :=
  h.sigStop.setSig.raise

theorem State.Keeps.sigRaise (h : s.Keeps init) {g q} : (s.sigRaise g q).Keeps init := h.setSig

/-! ### Issue (R345, R350, R358) -/

theorem SigR.Keeps.sigChecked {k : SigR} (hk : k.Keeps init) {causes} : (sigChecked causes k).Keeps init := by
  unfold Machine.sigChecked
  split
  · exact .fault
  · exact hk

theorem State.Keeps.fetchLine (h : s.Keeps init) {g i} : (s.fetchLine g i).Keeps init := by
  dsimp only [State.fetchLine]
  refine .ite h ?_
  split
  · exact h.setSig
  · exact h.sigLoad.setSig

theorem State.Keeps.sigWord (h : s.Keeps init) {g pc} : (s.sigWord g pc).2.Keeps init := by
  dsimp only [State.sigWord]
  split
  · exact h.fetchLine.fetchLine.fetchLine
  · exact h.takeFree

theorem State.Keeps.issue {k : State → Nat → SigR} (h : s.Keeps init)
    (hk : ∀ t : State, t.Keeps init → ∀ w, (k t w).Keeps init) {g mine} : (s.issue g mine k).Keeps init := by
  unfold State.issue
  refine .ite h (.ite h.takeFree.sigFault (.ite ?_ h))
  split
  · exact h
  · exact h.sigWord.sigFault
  · next e => exact hk _ h.sigWord.setSig _ _ e

/-! ### Vector memory (R342 to R344) -/

theorem State.Keeps.sigVmem (h : s.Keeps init) {g w} : (sigVmem g s w).Keeps init :=
  .sigChecked (.ite (.ok h.sigLoad.setSig) (.ok h.sigStore.setSig))

theorem State.Keeps.sigVld2 (h : s.Keeps init) {g w} : (sigVld2 g s w).Keeps init :=
  .sigChecked (.ok h.sigLoad.sigLoad.setSig)

/-! ### Multiply-accumulate (R333 to R336) -/

theorem State.Keeps.sigMac (h : s.Keeps init) {g w} : (sigMac g s w).Keeps init := .sigChecked (.ok h.setSig)

theorem State.Keeps.sigCmacm (h : s.Keeps init) {g w} : (sigCmacm g s w).Keeps init :=
  .sigChecked (.ok h.sigLoad.sigLoad.setSig)

/-! ### Accumulators (R337 to R339) -/

theorem State.Keeps.sigAccsum (h : s.Keeps init) {g w} : (sigAccsum g s w).Keeps init := .sigChecked (.ok h.setSig)

theorem State.Keeps.sigAccclr (h : s.Keeps init) {g w} : (sigAccclr g s w).Keeps init := .sigChecked (.ok h.setSig)

theorem State.Keeps.sigAccst (h : s.Keeps init) {g w} : (sigAccst g s w).Keeps init := .sigChecked (.ok h.setSig)

theorem State.Keeps.sigAccsv (h : s.Keeps init) {g w} : (sigAccsv g s w).Keeps init := .sigChecked (.ok h.sigStore)

theorem State.Keeps.sigAccrs (h : s.Keeps init) {g w} : (sigAccrs g s w).Keeps init := .sigChecked (.ok h.sigLoad.setSig)

/-! ### VALU (R340) -/

theorem State.Keeps.sigValu (h : s.Keeps init) {g w} : (sigValu g s w).Keeps init := by
  dsimp only [Machine.sigValu]
  refine .sigChecked ?_
  split
  · exact .ok h.setSig
  · exact .ok h.setSig
  · exact .ok h.setSig
  · exact .ok h.setSig
  · exact .ok h.setSig
  · exact .ok h.setSig

/-! ### Scalars (R341, R342, R351) -/

theorem State.Keeps.sigAalu (h : s.Keeps init) {g w} : (sigAalu g s w).Keeps init := .sigChecked (.ok h.setSig)

theorem State.Keeps.sigScalar (h : s.Keeps init) {g w} : (sigScalar g s w).Keeps init :=
  .sigChecked (.ite (.ok h.sigLoad.setSig) (.ok h.sigStore))

theorem State.Keeps.sigMove (h : s.Keeps init) {g w} : (sigMove g s w).Keeps init := by
  dsimp only [Machine.sigMove]
  refine .sigChecked ?_
  split
  · exact .ok h.setSig
  · exact .ok h.setSig
  · exact .ok h.setSig
  · exact .ok h.setSig

/-! ### Control (R350, R352 to R354) -/

theorem State.Keeps.sigBr (h : s.Keeps init) {g w} : (sigBr g s w).Keeps init := by
  dsimp only [Machine.sigBr]
  split
  · exact .fault
  · exact .ok h.setSig
  · exact .ok h

theorem State.Keeps.sigBrl (h : s.Keeps init) {g w} : (sigBrl g s w).Keeps init := .sigChecked (.ok h.setSig)

theorem State.Keeps.sigJr (h : s.Keeps init) {g w} : (sigJr g s w).Keeps init := .sigChecked (.ok h.setSig)

theorem State.Keeps.sigWait (h : s.Keeps init) {g w} : (sigWait g s w).Keeps init := .sigChecked (.ok h.setSig)

theorem State.Keeps.sigRti (h : s.Keeps init) {g w} : (sigRti g s w).Keeps init := .sigChecked (.ok h.setSig)

theorem State.Keeps.sigHalt (h : s.Keeps init) {g w} : (sigHalt g s w).Keeps init := .sigChecked (.ok h.sigStop)

theorem State.Keeps.sigBody (h : s.Keeps init) {g w} : (sigBody g s w).Keeps init := by
  unfold Machine.sigBody
  split
  · exact h.sigVmem
  · exact h.sigVmem
  · exact h.sigVld2
  · exact h.sigAccsum
  · exact h.sigMac
  · exact h.sigCmacm
  · exact h.sigMac
  · exact h.sigMac
  · exact h.sigAccclr
  · exact h.sigAccst
  · exact h.sigValu
  · exact h.sigAalu
  · exact h.sigAalu
  · exact h.sigScalar
  · exact h.sigScalar
  · exact h.sigMove

theorem State.Keeps.sigIterate (h : s.Keeps init) {g w pc n} : (sigIterate g w pc n s).Keeps init := by
  induction n generalizing s with
  | zero => exact h
  | succ n ih =>
    unfold Machine.sigIterate
    split
    · next e => exact ih (h.sigBody _ e)
    · exact h.sigFault
    · exact h

/-! ### POST and semaphores (R346 to R349) -/

theorem State.Keeps.sigPost (h : s.Keeps init) {others g w} : (sigPost others g s w).Keeps init :=
  .sigChecked (.ite .stall (.ok h.postWrite.setSig))

theorem SigR.Keeps.sigSem {k : SigR} (hk : k.Keeps init) {w} : (sigSem s w k).Keeps init := hk.sigChecked

theorem State.Keeps.sigSacq (h : s.Keeps init) {g w} : (sigSacq g s w).Keeps init := .sigSem (.ok h.setSig.ask)

theorem State.Keeps.sigSrel (h : s.Keeps init) {g w} : (sigSrel g s w).Keeps init := .sigSem (.ite (.ok h.semAdd) .stall)

/-! ### REP (R352 to R354, R358) -/

theorem State.Keeps.sigRep (h : s.Keeps init) {g w} : (sigRep g s w).Keeps init := by
  dsimp only [Machine.sigRep]
  refine .sigChecked (.ite (.ok h.takeFree.sigFault) ?_)
  split
  · exact .ok h.sigWord.sigFault
  · exact .ite .fault (.ok h.sigWord.setSig.sigIterate)

/-! ### Other steps of a signal core -/

theorem State.Keeps.execPostResponse (h : s.Keeps init) {g} : LeavesKeeps init (execPostResponse g s) := by
  dsimp only [Machine.execPostResponse]
  refine .next ?_
  split
  · exact h
  · exact .ite h.setSig h.setSig.sigFault

end Sys2Proof.Machine
end

section
/-! SUPPORT. Straps, trip and journal are kept by the far-reach link, the cells and their slots. -/

namespace Sys2Proof.Machine

variable {init s : State}

/-! ### The drift ledger (R413) -/

theorem State.Keeps.setLedger (h : s.Keeps init) {i w} : (s.setLedger i w).Keeps init := h.wr

theorem State.Keeps.loseNode (h : s.Keeps init) {i} : (s.loseNode i).Keeps init := h.setLedger.warn

/-! ### Frames in reception (R399 to R402, R409) -/

theorem State.Keeps.modRx (h : s.Keeps init) {m bw f} : (s.modRx m bw f).Keeps init := h.frame

theorem State.Keeps.execFrameDetect (h : s.Keeps init) {m bw shifts start} :
    LeavesKeeps init (execFrameDetect m bw shifts start s) := by
  dsimp only [Machine.execFrameDetect]
  refine .next ?_
  split
  · exact h
  · exact .ite h (.ite h.countDev (.ite h h.frame))

/-! ### Transmission (R411, R412) -/

theorem State.Keeps.sendFrame (h : s.Keeps init) {m bw coded} : (s.sendFrame m bw coded).Keeps init := h.frame.emit

theorem State.Keeps.txStatus (h : s.Keeps init) {addr e status sent} : (s.txStatus addr e status sent).Keeps init :=
  h.emit.emit

theorem State.Keeps.sendEntry (h : s.Keeps init) {addr e} : (s.sendEntry addr e).Keeps init := by
  dsimp only [State.sendEntry]
  split
  · exact h.txStatus
  · exact h.sendFrame.txStatus

theorem State.Keeps.sendDeferred (h : s.Keeps init) : s.sendDeferred.Keeps init := by
  dsimp only [State.sendDeferred]
  refine .ite ?_ h
  split
  · exact h
  · exact h.frame.sendEntry

theorem State.Keeps.dropRx (h : s.Keeps init) {m bw} : (s.dropRx m bw).Keeps init := h.frame.sendDeferred

theorem State.Keeps.execFrTransmit (h : s.Keeps init) {e} : LeavesKeeps init (execFrTransmit e s) := by
  unfold Machine.execFrTransmit
  extract_lets w r addr start s1
  have h1 : s1.Keeps init := h.setRing
  exact .next (.ite h (.ite h1.txStatus (.ite h1.txStatus (.ite h (.ite h1.txStatus
    (.ite h1.frame.countDev (.ite h h1.sendEntry)))))))

theorem State.Keeps.execFrameConfirm (h : s.Keeps init) {m bw shifts downs} :
    LeavesKeeps init (execFrameConfirm m bw shifts downs s) := by
  dsimp only [Machine.execFrameConfirm]
  refine .next ?_
  split
  · exact h
  · exact .ite h (.ite h.modRx h.dropRx)

/-! ### Soft symbol records (R401 to R405) -/

theorem State.Keeps.execSymbolDemod (h : s.Keeps init) {m bw energies clipped total} :
    LeavesKeeps init (execSymbolDemod m bw energies clipped total s) := by
  dsimp only [Machine.execSymbolDemod]
  refine .next ?_
  split
  · exact h
  · exact .ite h (.ite h.frame.modRx.countDev h.frame.modRx)

theorem State.Keeps.execFrLearnedLate (h : s.Keeps init) {m bw} : LeavesKeeps init (execFrLearnedLate m bw s) := by
  unfold Machine.execFrLearnedLate
  refine .next ?_
  split
  · exact h
  · exact .ite h.modRx.countDev h

theorem State.Keeps.execPilotTrack (h : s.Keeps init) {m bw freqEighths timeEighths} :
    LeavesKeeps init (execPilotTrack m bw freqEighths timeEighths s) := by
  unfold Machine.execPilotTrack
  refine .next ?_
  split
  · exact h
  · exact .ite h (.ite h.dropRx.countDev h.modRx)

/-! ### Decoding (R397, R406, R418) -/

theorem State.Keeps.deliver (h : s.Keeps init) {recs m bw node arrival learned} :
    (s.deliver recs m bw node arrival learned).Keeps init := by
  dsimp only [State.deliver]
  split
  · next e => exact h.takeFree.ringPut _ e
  · exact h.takeFree.countDev

theorem State.Keeps.takeRecord (h : s.Keeps init) {addr epoch w} : (s.takeRecord addr epoch w).Keeps init := by
  dsimp only [State.takeRecord]
  split
  · exact h.frame
  · exact .ite h.countDev h.frame

theorem State.Keeps.execFrameEnd (h : s.Keeps init) {m bw} : LeavesKeeps init (execFrameEnd m bw s) := by
  unfold Machine.execFrameEnd
  refine .next ?_
  split
  · exact h
  refine .ite h ?_
  split
  · exact h.dropRx.deliver
  extract_lets e g s1
  have h1 : s1.Keeps init := h.dropRx.foldl fun _ ht _ => ht.takeRecord
  exact .ite h.dropRx.deliver (.ite h1.frame (h.dropRx.foldl fun _ ht _ => ht.emit))

theorem State.Keeps.execCombineRecord (h : s.Keeps init) {addr epoch r} :
    LeavesKeeps init (execCombineRecord addr epoch r s) := by
  dsimp only [Machine.execCombineRecord]
  refine .next ?_
  split
  · exact h.countDev
  · exact .ite h.countDev h.takeRecord

theorem State.Keeps.execCombineWait (h : s.Keeps init) {addr epoch} :
    LeavesKeeps init (execCombineWait addr epoch s) := by
  dsimp only [Machine.execCombineWait]
  refine .next ?_
  split
  · exact h
  · split
    · exact h
    · exact h.takeFree.frame.deliver

/-! ### Sleeping nodes (R414 to R417) -/

theorem State.Keeps.execOccurrenceEnd (h : s.Keeps init) {i} : LeavesKeeps init (execOccurrenceEnd i s) := by
  dsimp only [Machine.execOccurrenceEnd]
  refine .next ?_
  split
  · exact h
  · exact .ite h (.ite h.frame.setLedger (.ite h.frame.setLedger.loseNode h.frame.setLedger))

/-! ### Cells -/

theorem State.Keeps.setCell (h : s.Keeps init) {c x} : (s.setCell c x).Keeps init := h.frame

theorem State.Keeps.raiseAll (h : s.Keeps init) {q} : (s.raiseAll q).Keeps init := h.frame

theorem State.Keeps.openSlot (h : s.Keeps init) {b c} : (s.openSlot b c).Keeps init := .ite h.setCell h

/-! ### Fronthaul ingest (R364 to R368) -/

theorem State.Keeps.putPrb (h : s.Keeps init) {core base i p} : (s.putPrb core base i p).Keeps init :=
  (h.foldl fun _ ht _ => ht.wr).wr

theorem State.Keeps.setStream (h : s.Keeps init) {x} : (s.setStream x).Keeps init := h.frame

theorem State.Keeps.uSection (h : s.Keeps init) {core f u} : (s.section core f u).Keeps init :=
  .ite h.countDev (.ite h.countDev (h.foldl fun _ ht _ => ht.putPrb).frame.setStream)

theorem State.Keeps.compareDigest (h : s.Keeps init) {c eaxc sym} : (s.compareDigest c eaxc sym).Keeps init := by
  unfold State.compareDigest
  extract_lets x done wasFrozen run s1 s2 _ s1'
  have h1 : s1.Keeps init := h.setStream
  have h2 : s2.Keeps init := h1.setOd.raise
  have hs1' : s1'.Keeps init := h.setStream
  exact .ite h.setStream (.ite (.ite h2.setCell h1) (.ite hs1'.frame.raise hs1'))

theorem State.Keeps.execUPlaneFrame (h : s.Keeps init) {f} : LeavesKeeps init (execUPlaneFrame f s) := by
  unfold Machine.execUPlaneFrame
  refine .next (.ite h.countDev ?_)
  split
  · exact h.countDev
  extract_lets s1 s2
  have h1 : s1.Keeps init := h.foldl fun _ ht _ => ht.uSection
  have h2 : s2.Keeps init := h1.compareDigest
  refine .ite h.countDev (.ite ?_ h1)
  split
  · exact h2.sigRaise
  · exact h2

/-! ### S1's output (R367 to R370) -/

theorem State.Keeps.closeS1 (h : s.Keeps init) {c f slot} : (s.closeS1 c f slot).Keeps init := by
  dsimp only [State.closeS1]
  refine .ite h (h.takeFree.frame.foldl fun _ ht _ => ?_)
  split
  · split
    · exact ht.setSig
    · exact ht
  · exact ht

/-! ### Slot results (R371, R377, R383, R509) -/

theorem State.Keeps.radioPut (h : s.Keeps init) {rec} : (s.radioPut rec).Keeps init := by
  unfold State.radioPut
  refine .ite ?_ (.ite h.emit.emit h.countDev)
  split
  · next e => exact h.ringPut _ e
  · exact h.countDev

theorem State.Keeps.undoHarq (h : s.Keeps init) {c f j} : (s.undoHarq c f j).Keeps init :=
  h.foldl fun _ ht _ => .ite ht.wr ht

theorem State.Keeps.dropSlotData (h : s.Keeps init) {c f j} : (s.dropSlotData c f j).Keeps init := h.frame

theorem State.Keeps.prune (h : s.Keeps init) {c} : (s.prune c).Keeps init := h.setCell

theorem State.Keeps.writeRecord (h : s.Keeps init) {c r crc ntb base} : (s.writeRecord c r crc ntb base).Keeps init :=
  h.radioPut.setCell.dropSlotData.prune

theorem State.Keeps.flushFailed (h : s.Keeps init) {c n} : (s.flushFailed c n).Keeps init := by
  induction n generalizing s with
  | zero => exact h
  | succ n ih =>
    unfold State.flushFailed
    split
    · exact .ite (ih h.takeFree.takeFree.writeRecord) h
    · exact h

theorem State.Keeps.modSlot (h : s.Keeps init) {c r f} : (s.modSlot c r f).Keeps init := h.setCell

theorem State.Keeps.failSlot (h : s.Keeps init) {c r stage} : (s.failSlot c r stage).Keeps init :=
  .ite h h.undoHarq.modSlot.info.setCell.flushFailed

theorem State.Keeps.declare (h : s.Keeps init) {c r k early} : (s.declare c r k early).Keeps init := by
  unfold State.declare
  extract_lets cfg s0 s1 s2 x more s3 r' s4
  have h0 : s0.Keeps init := h.closeS1
  have h1 : s1.Keeps init := h0.warn
  have h2 : s2.Keeps init := h1.modSlot
  have h3 : s3.Keeps init := h2.setCell
  have h4 : s4.Keeps init := h3.modSlot.info
  exact .ite h3.failSlot h4.setCell

/-! ### Stage windows (R373 to R379) -/

theorem State.Keeps.execWindowTake (h : s.Keeps init) {c k} : LeavesKeeps init (execWindowTake c k s) := by
  unfold Machine.execWindowTake
  extract_lets n s'
  have h' : s'.Keeps init := h.setSem.countDev
  refine .next (.ite h (.ite h'.setCell ?_))
  split
  · exact h
  extract_lets s0 s1 t took r' s2
  have h0 : s0.Keeps init := .ite h.closeS1 h
  have h1 : s1.Keeps init := h0.setSem
  have htook : took.Keeps init := h1.modSlot
  have h2 : s2.Keeps init := h1.declare.countDev
  exact .ite htook.declare (.ite htook.prune h2.setCell)

theorem State.Keeps.execWindow (h : s.Keeps init) {c k} : LeavesKeeps init (execWindow c k s) := by
  unfold Machine.execWindow
  refine .next ?_
  split
  · exact h
  · exact .ite h.modSlot.raiseAll h

theorem State.Keeps.execStageLate (h : s.Keeps init) {c k} : LeavesKeeps init (execStageLate c k s) := by
  unfold Machine.execStageLate
  refine .next ?_
  split
  · exact h
  · exact .ite h.declare h

theorem State.Keeps.execFbLatest (h : s.Keeps init) {c} : LeavesKeeps init (execFbLatest c s) := by
  unfold Machine.execFbLatest
  refine .next ?_
  split
  · exact h
  · split
    · exact .ite h.failSlot h
    · exact h

theorem State.Keeps.execSlotResultRecord (h : s.Keeps init) {c r} : LeavesKeeps init (execSlotResultRecord c r s) := by
  unfold Machine.execSlotResultRecord
  refine .next ?_
  split
  · exact h
  · exact .ite h.failSlot h.writeRecord.flushFailed

/-! ### Code engines (R384 to R389) -/

theorem State.Keeps.execCodeBlockDecode (h : s.Keeps init) {b} : LeavesKeeps init (execCodeBlockDecode b s) := by
  unfold Machine.execCodeBlockDecode
  extract_lets n gone old soft x s1 _ s2 s3 d
  have h1 : s1.Keeps init := .ite h h.writeAccess
  have h2 : s2.Keeps init := .ite h1 h1.frame
  have h3 : s3.Keeps init := .ite h2 h2.countDev
  exact .next (.ite h h3.emit)

end Sys2Proof.Machine
end

section
/-! SUPPORT. Straps, trip and journal are kept by the timebase and field ports, the dictionary's service, rings, notices and function resets. -/

namespace Sys2Proof.Machine

variable {init s : State}

/-! ### The timebase (R459, R462 to R465) -/

theorem State.Keeps.ppsEdge (h : s.Keeps init) {old} : (s.ppsEdge old).Keeps init := .ite h (.ite h.countDev h.frame)

theorem State.Keeps.setNow (h : s.Keeps init) {v} : (s.setNow v).Keeps init := h.frame.ppsEdge

theorem State.Keeps.execTbAdjustApply (h : s.Keeps init) : LeavesKeeps init (execTbAdjustApply s) := by
  dsimp only [Machine.execTbAdjustApply]
  refine .next (.ite h ?_)
  split
  · exact h
  · split
    · exact h.frame.setNow
    · exact h.frame.setNow
    · exact h.frame.setNow

/-! ### Field ports (R468 to R473) -/

theorem State.Keeps.execPortLinkUp (h : s.Keeps init) {q speed bypassed} :
    LeavesKeeps init (execPortLinkUp q speed bypassed s) := by
  dsimp only [Machine.execPortLinkUp]
  refine .next ?_
  split
  · exact h
  · exact h.frame.setOd

theorem State.Keeps.servoOffset (h : s.Keeps init) {d} : (s.servoOffset d).Keeps init := h.frame

theorem State.Keeps.ringTaken (h : s.Keeps init) {f off} : (s.ringTaken f off).Keeps init := h.setRing.ringSignal

theorem State.Keeps.pktReceive (h : s.Keeps init) {f stamp} : (s.pktReceive f stamp).Keeps init :=
  .ite h.countDev h.emit.emit.ringTaken

theorem State.Keeps.ingressStamp (h : s.Keeps init) {f} : (s.ingressStamp f).2.Keeps init := by
  dsimp only [State.ingressStamp]
  split
  · exact h
  · exact h.takeFree

theorem State.Keeps.execFieldPortFrame (h : s.Keeps init) {f} : LeavesKeeps init (execFieldPortFrame f s) := by
  dsimp only [Machine.execFieldPortFrame]
  refine .next ?_
  split
  · exact h.ingressStamp.pktReceive
  · exact .ite h.ingressStamp.emit.takeFree.servoOffset h.ingressStamp.emit
  · exact h.ingressStamp.emit

theorem State.Keeps.execPktTxSend (h : s.Keeps init) {t} : LeavesKeeps init (execPktTxSend t s) := by
  unfold Machine.execPktTxSend
  extract_lets off _ _ _ fin
  refine .next (.ite h ?_)
  have hfin {st : State} (ht : st.Keeps init) (status : Nat) (stamp : Option Nat) : (fin st status stamp).Keeps init :=
    ht.emit.ringTaken
  exact .ite (hfin h 3 none) (.ite (hfin h 4 none) (.ite (hfin h.emit 0 none) (.ite (hfin h.emit 0 _)
    (.ite (hfin h.emit 0 _) (.ite (hfin h.emit 0 _) (hfin h.emit 2 _))))))

/-! ### What an accepted write does -/

theorem State.Keeps.sigControl (h : s.Keeps init) {g v} : (s.sigControl g v).Keeps init :=
  .ite (.ite h h.setSig) h.sigStop.setSig

theorem State.Keeps.askBanks (h : s.Keeps init) {b0 n v} : (s.askBanks b0 n v).Keeps init :=
  h.frame.foldl fun _ ht _ => ht.setBank

theorem State.Keeps.trainLink (h : s.Keeps init) {l} : (s.trainLink l).Keeps init := h.setLink

theorem State.Keeps.trainAll (h : s.Keeps init) : s.trainAll.Keeps init :=
  (h.foldl fun _ ht _ => .ite ht.trainLink ht).foldl fun _ ht _ => .ite ht.setTun ht

theorem State.Keeps.linkWritten (h : s.Keeps init) {l old} : (s.linkWritten l old).Keeps init :=
  .ite (.ite h.linkDown h) (.ite h.trainLink h.relane)

theorem State.Keeps.cellWritten (h : s.Keeps init) {c v} : (s.cellWritten c v).Keeps init :=
  .ite h.setCell (.ite h.setCell h)

theorem State.Keeps.frWritten (h : s.Keeps init) {old v} : (s.frWritten old v).Keeps init :=
  .ite (.ite h h.frame) (h.frame.foldl fun _ ht _ => ht.txStatus)

theorem State.Keeps.firmware (h : s.Keeps init) {v} : (s.firmware v).Keeps init := by
  dsimp only [State.firmware]
  split
  · exact h.setOd
  · exact h.frame
  · exact h.frame.setOd
  · exact h.frame
  · exact h

theorem State.Keeps.odApply (h : s.Keeps init) {index sub v} : (s.odApply index sub v).Keeps init := by
  dsimp only [State.odApply]
  split
  · exact .ite h.holdCan.setOd h.setOd
  · exact .ite (.ite h.frameUnits h) h.setOd
  · exact h.modCoreAt
  · split
    · exact h.setSig
    · exact h
  · split
    · exact h.sigControl
    · exact h
  · exact h.setOd.askBanks
  · exact h.setOd.askBanks
  · exact h.setOd.askBanks
  · exact h.setOd.applyPartition
  · exact h.setOd
  · split
    · exact h.setOd.cellWritten
    · exact h.setOd
  · exact .ite h.setOd.frWritten h.setOd
  · exact h.setOd.trainAll
  · split
    · exact h.setOd.linkWritten
    · exact h.setOd
  · split
    · exact h.setOd.setTun
    · exact h.setOd
  · split
    · exact h.frame
    · exact h.frame
    · exact h.frame
    · exact h.setOd
  · exact .ite h.firmware h.setOd
  · exact .ite h.frame h.setOd

/-! ### Replies and the service -/

theorem State.Keeps.setMailbox (h : s.Keeps init) {f m} : (s.setMailbox f m).Keeps init := by
  dsimp only [State.setMailbox]
  split
  · exact h.frameUnits
  · exact h.frameUnits

theorem State.Keeps.reply (h : s.Keeps init) {to_ index sub err len value} :
    (s.reply to_ index sub err len value).Keeps init := by
  dsimp only [State.reply]
  split
  · exact h.emit
  · exact .ite h.setMailbox h
  · exact h.emit
  · exact h.post

theorem State.Keeps.odWrite (h : s.Keeps init) {by_ to_ index sub len v} :
    (s.odWrite by_ to_ index sub len v).Keeps init :=
  .ite h.reply (.ite h.odApply.frameUnits h.odApply.reply)

/-! ### One access -/

theorem State.Keeps.mailAccess (h : s.Keeps init) {f cmd data} : (s.mailAccess f cmd data).Keeps init :=
  .ite h.odWrite h.reply

theorem State.Keeps.setXfer (h : s.Keeps init) {p x} : (s.setXfer p x).Keeps init := h.frameUnits.freeCan

theorem State.Keeps.answer (h : s.Keeps init) {p req f err} : (s.answer p req f err).Keeps init := h.reply

theorem State.Keeps.sendBlock (h : s.Keeps init) {p req x seq n} : (s.sendBlock p req x seq n).2.Keeps init := by
  induction n generalizing s seq with
  | zero => exact h
  | succ n ih =>
    unfold State.sendBlock
    dsimp only
    split
    · exact h
    · exact ih h.emit

theorem State.Keeps.takeSegment (h : s.Keeps init) {p req x f} : (s.takeSegment p req x f).Keeps init :=
  .ite h.setXfer.answer (.ite h.setXfer.odWrite (.ite h.setXfer.emit h.setXfer))

theorem State.Keeps.openFrame (h : s.Keeps init) {p req f} : (s.openFrame p req f).Keeps init := by
  dsimp only [State.openFrame]
  split
  · exact .ite h.answer (.ite h.reply h.setXfer.emit)
  · exact .ite h.answer (.ite h.answer h.odWrite)
  · exact .ite h.answer h.setXfer.answer
  · exact h
  · exact h.answer

theorem State.Keeps.frameAccess (h : s.Keeps init) {p req f} : (s.frameAccess p req f).Keeps init := by
  dsimp only [State.frameAccess]
  split
  · exact h.openFrame
  · exact .ite h.setXfer (.ite h.takeSegment (.ite h.sendBlock.setXfer h.answer))

theorem State.Keeps.mgmtAccess (h : s.Keeps init) {hdr node f} : (s.mgmtAccess hdr node f).Keeps init := by
  dsimp only [State.mgmtAccess]
  split
  · exact h.reply
  · exact .ite h.reply h.odWrite
  · exact .ite h.reply h

theorem State.Keeps.perform (h : s.Keeps init) {a} : (s.perform a).Keeps init := by
  unfold State.perform
  split
  · exact h.odWrite
  · exact h.mailAccess
  · exact h.frameAccess
  · exact h.mgmtAccess

theorem State.Keeps.access (h : s.Keeps init) {a} : (s.access a).Keeps init := .ite h (.ite h.frameUnits h.perform)

theorem State.Keeps.write (h : s.Keeps init) {by_ index sub v} : (s.write by_ index sub v).Keeps init := h.access

/-! ### CAN and in-band frames -/

theorem State.Keeps.frameRow (h : s.Keeps init) {cmd p f} : (s.frameRow cmd p f).Keeps init := .ite h.access h

theorem State.Keeps.execTransferTimeout (h : s.Keeps init) {path} : LeavesKeeps init (execTransferTimeout path s) := by
  unfold Machine.execTransferTimeout
  refine .next ?_
  split
  · exact h
  · exact h.setXfer.emit

/-! ### Mailboxes (R492, R576) -/

theorem State.Keeps.mailRow (h : s.Keeps init) {f write cmd data} : (s.mailRow f write cmd data).Keeps init := by
  dsimp only [State.mailRow]
  split
  · exact .ite h.access h
  · exact .ite h h.setMailbox.access

theorem State.Keeps.cellAcked (h : s.Keeps init) {index sub} : (s.cellAcked index sub).Keeps init := by
  dsimp only [State.cellAcked]
  split
  · exact .ite h.setCell h
  · exact h

theorem State.Keeps.execPersistComplete (h : s.Keeps init) : LeavesKeeps init (execPersistComplete s) := by
  unfold Machine.execPersistComplete
  refine .next ?_
  split
  · exact h
  · refine .reply (.emit (.cellAcked ?_))
    exact h.frameUnits

/-! ### Ring registers (R500 to R502) -/

theorem State.Keeps.ringOpened (h : s.Keeps init) {f off} : (s.ringOpened f off).Keeps init := by
  unfold State.ringOpened
  split
  · exact h.flushHeld
  · exact h

theorem State.Keeps.execRingCfgWrite (h : s.Keeps init) {f off v} : LeavesKeeps init (execRingCfgWrite f off v s) := by
  unfold Machine.execRingCfgWrite
  extract_lets blk r
  exact .next (.ite h (.ite (.ite h h.setRing) (.ite (.ite (.ite h h.setRing.ringOpened) h.setRing) h)))

theorem State.Keeps.ringErr (h : s.Keeps init) {off} : (s.ringErr off).Keeps init := h.warn

/-! ### Job submission (R504 to R506) -/

theorem State.Keeps.submit (h : s.Keeps init) {q handle d} : (s.submit q handle d).Keeps init := .ite h.complete h.frame

/-! ### Notices and the journal (R496 to R498, R537) -/

theorem State.Keeps.setChan (h : s.Keeps init) {ch c} : (s.setChan ch c).Keeps init := h.frameUnits

theorem State.Keeps.tellLost (h : s.Keeps init) {ch} : (s.tellLost ch).Keeps init := .ite h h.frameUnits

theorem State.Keeps.sendNotice (h : s.Keeps init) {ch n} : MaybeKeeps init (s.sendNotice ch n) :=
  .ite h.ringPut (.ite (.ite (.some (h.foldl fun _ ht _ => ht.emit)) .none) (.ite (.some h.emit) .none))

theorem State.Keeps.execNoticeSend (h : s.Keeps init) {ch} : LeavesKeeps init (execNoticeSend ch s) := by
  dsimp only [Machine.execNoticeSend]
  refine .next ?_
  split
  · exact h
  · split
    · exact h
    · next e => exact (h.sendNotice _ e).setChan.tellLost

theorem State.Keeps.appendJournal (h : s.Keeps init) : s.appendJournal.Keeps init := by
  rw [s.appendJournal_eq]
  exact ⟨h.straps, h.trip, h.journal.trans (List.prefix_append _ _)⟩

/-! ### BAR2 (R500) -/

theorem State.Keeps.bar2Write (h : s.Keeps init) {f off v n} : (s.bar2Write f off v n).Keeps init := by
  induction n generalizing s off v with
  | zero => exact h
  | succ n ih =>
    unfold State.bar2Write
    refine ih ?_
    split
    · exact h.wr
    · exact h

/-! ### Function resets (R508, R509) -/

theorem State.Keeps.resetFunction (h : s.Keeps init) {f} : (s.resetFunction f).Keeps init := h.frameUnits.dropJobs

theorem State.Keeps.resetAllFunctions (h : s.Keeps init) : s.resetAllFunctions.Keeps init := by
  have hall : ((List.range 17).foldl State.resetFunction s).Keeps init := h.foldl fun _ ht _ => ht.resetFunction
  unfold State.resetAllFunctions
  generalize (List.range 17).foldl State.resetFunction s = u at hall ⊢
  exact hall.frameUnits

theorem State.Keeps.execPerst (h : s.Keeps init) : LeavesKeeps init (execPerst s) := by
  have hall : s.resetAllFunctions.Keeps init := h.resetAllFunctions
  unfold Machine.execPerst
  generalize s.resetAllFunctions = u at hall ⊢
  exact .next hall.frameUnits

end Sys2Proof.Machine
end

section
/-! SUPPORT. Straps, trip and journal are kept by pairs, votes and Gauntlet, domains lost, resets and bring-up, power and heat, and the rows of the
vector engine. -/

namespace Sys2Proof.Machine

variable {init s : State}

/-! ### External actions performed (R518, R520) -/

theorem State.Keeps.act (h : s.Keeps init) {p other a} : (s.act p other a).Keeps init := by
  dsimp only [State.act]
  split
  · exact h.modCoreAt
  · split
    · exact h.semAdd.wr.wr
    · exact h.semAdd
  · exact h.noteNotice
  · exact h.submitDma
  · exact h

theorem State.Keeps.actList (h : s.Keeps init) {p other l} : (s.actList p other l).1.Keeps init := by
  induction l generalizing s with
  | nil => exact h
  | cons a l ih =>
    unfold State.actList
    split
    · exact ih h.act
    · exact h

theorem State.Keeps.actAll (h : s.Keeps init) {p other} : (s.actAll p other).Keeps init := by
  unfold State.actAll
  exact h.actList.modCoreAt

theorem State.Keeps.goOn (h : s.Keeps init) {p leads} : (s.goOn p leads).Keeps init := by
  dsimp only [State.goOn]
  split
  · exact .ite h.modCoreAt h.modCoreAt.modCoreAt
  · exact .ite h.modCoreAt.modCoreAt (.ite h.modCoreAt.readSaveMap.latch h.modCoreAt.readSaveMap)
  · exact h.modCoreAt

theorem State.Keeps.confirmTile (h : s.Keeps init) {leader x y} : (s.confirmTile leader x y).Keeps init :=
  h.goOn.goOn.modPair

theorem State.Keeps.failPair (h : s.Keeps init) {q code} : (s.failPair q code).Keeps init :=
  h.modCoreAt.modCoreAt.faultJob.latch

/-! ### Votes (R524 to R526) -/

theorem State.Keeps.setSpareSt (h : s.Keeps init) {c x} : (s.setSpareSt c x).Keeps init := h.frame

theorem State.Keeps.openVote (h : s.Keeps init) {q from_ sp} : (s.openVote q from_ sp).Keeps init := by
  dsimp only [State.openVote]
  split
  · exact h
  · exact h.readSaveMap.setSpareSt.clearCore.modPair.restoreTask.modCoreAt

theorem State.Keeps.rollBack (h : s.Keeps init) {q p} : (s.rollBack q p).Keeps init := by
  unfold State.rollBack
  extract_lets c s1
  have h1 : s1.Keeps init := h.foldl fun _ ht _ => ht.wr
  exact h1.modCoreAt

theorem State.Keeps.mismatch (h : s.Keeps init) {q} : (s.mismatch q).Keeps init := by
  dsimp only [State.mismatch]
  refine .ite h.warn.faultNotice.failPair ?_
  split
  · exact h.warn.openVote
  · exact h.warn.rollBack.rollBack.modPair

theorem State.Keeps.noVote (h : s.Keeps init) {q sp} : (s.noVote q sp).Keeps init := h.faultNotice.failPair.incOd

theorem State.Keeps.execMittenCompare (h : s.Keeps init) {p} : LeavesKeeps init (execMittenCompare p s) := by
  unfold Machine.execMittenCompare
  refine .next ?_
  split
  · exact h
  next q _ =>
  extract_lets l f x s0 s1
  have h0 : s0.Keeps init := h.actAll
  have h1 : s1.Keeps init := h0.confirmTile
  have hvote : (match s.voteSpare q with | some sp => s.openVote q x sp | none => s).Keeps init := by
    split
    · exact h.openVote
    · exact h
  have hagree : (if ¬ (s0.coreAt q.leader).held.isEmpty then s0
      else if q.retry then (s1.warn 0x0163 (s.coreOwner q.leader) 1 q.leader (pairPayload q.leader q.follower)).incOd 0x7000 4
      else s1).Keeps init := .ite h0 (.ite h1.warn.incOd h1)
  exact .ite h (.ite (.ite h hvote) (.ite h (.ite h.raise.faultJob.latch (.ite hagree (.ite h.noVote h.mismatch)))))

theorem State.Keeps.takeOver (h : s.Keeps init) {y x} : (s.takeOver y x).Keeps init := by
  unfold State.takeOver
  split
  · exact h.setMapByte.bumpRole
  · exact h

theorem State.Keeps.sendToTest (h : s.Keeps init) {y standIn} : (s.sendToTest y standIn).Keeps init :=
  h.dropWaiters.modCoreAt.frame

theorem State.Keeps.leadFrom (h : s.Keeps init) {q x} : (s.leadFrom q x).Keeps init := by
  dsimp only [State.leadFrom]
  refine .ite h ?_
  split
  · exact h
  · exact (h.foldl fun _ ht _ => ht.rewriteCore).modJob

theorem State.Keeps.voteWon (h : s.Keeps init) {q sp x y} : (s.voteWon q sp x y).Keeps init := by
  unfold State.voteWon
  extract_lets s1 s2 s3
  have h1 : s1.Keeps init := h.takeOver.leadFrom
  have h2 : s2.Keeps init := h1.confirmTile
  have h3 : s3.Keeps init := .ite h2 h2.sendToTest
  exact h3.info.incOd

theorem State.Keeps.execVoteRerunDone (h : s.Keeps init) {p} : LeavesKeeps init (execVoteRerunDone p s) := by
  unfold Machine.execVoteRerunDone
  refine .next ?_
  split
  · exact h
  extract_lets c good win
  have hwin (x y : Nat) : (win x y).Keeps init := .ite h.actAll.voteWon h.actAll
  exact .ite h (.ite (hwin _ _) (.ite (hwin _ _) h.noVote.clearCore.setSpareSt.modPair))

/-! ### Gauntlet (R529 to R531) -/

theorem State.Keeps.needSwap (h : s.Keeps init) {p} : (s.needSwap p).Keeps init := h.modCoreAt

theorem State.Keeps.execGauntletRotation (h : s.Keeps init) {c} : LeavesKeeps init (execGauntletRotation c s) := by
  dsimp only [Machine.execGauntletRotation]
  refine .next (.ite h ?_)
  split
  · exact .ite h.frame h
  · exact .needSwap (.frame (.ite h.frame h))

theorem State.Keeps.swap (h : s.Keeps init) {p sp lent} : (s.swap p sp lent).Keeps init :=
  .frame (.ite h.moveCore.modCoreAt.countCanton.countCanton h.moveCore.modCoreAt.countCanton)

theorem State.Keeps.execGauntletSwap (h : s.Keeps init) {c} : LeavesKeeps init (execGauntletSwap c s) := by
  dsimp only [Machine.execGauntletSwap]
  refine .next ?_
  split
  · exact h.endStandIn
  · split
    · exact h
    · refine .ite h.frame ?_
      split
      · exact h.needSwap
      · exact .ite h.swap h.needSwap

theorem State.Keeps.banksOff (h : s.Keeps init) {b0 n} : (s.banksOff b0 n).Keeps init :=
  h.foldl fun _ ht _ => ht.loseBank.setBank.release

theorem State.Keeps.retireCore (h : s.Keeps init) {p part} : (s.retireCore p part).Keeps init :=
  h.banksOff.modCoreAt.frame.faultNotice.incOd

theorem State.Keeps.execSelfTestComplete (h : s.Keeps init) {p failedPart} :
    LeavesKeeps init (execSelfTestComplete p failedPart s) := by
  dsimp only [Machine.execSelfTestComplete]
  refine .next ?_
  split
  · exact h
  · exact .ite (.ite h.clearCore.frame.setSpareSt h.clearCore.frame) h.clearCore.frame.retireCore

/-! ### Domains lost (R533, R534) -/

theorem State.Keeps.setLevel (h : s.Keeps init) {v} : (s.setLevel v).Keeps init := .ite h h.frameUnits.info

theorem State.Keeps.degrade (h : s.Keeps init) : s.degrade.Keeps init := .ite h.frameUnits.setLevel h.frameUnits

theorem State.Keeps.takeAway (h : s.Keeps init) {p} : (s.takeAway p).Keeps init := by
  unfold State.takeAway
  split
  · exact h.setMapByte.bumpRole
  · exact h

theorem State.Keeps.haltLost (h : s.Keeps init) {p} : (s.haltLost p).Keeps init := h.dropWaiters.modCoreAt

theorem State.Keeps.loseCore (h : s.Keeps init) {p} : (s.loseCore p).Keeps init := by
  dsimp only [State.loseCore]
  refine .ite h.haltLost ?_
  split
  · exact h.modCoreAt.takeAway
  · exact h.faultJob.latch.haltLost.takeAway

theorem State.Keeps.loseCanton (h : s.Keeps init) {c} : (s.loseCanton c).Keeps init := by
  unfold State.loseCanton
  extract_lets s1 lent safety s2
  have h1 : s1.Keeps init := h.foldl fun _ ht _ => ht.loseCore
  have h2 : s2.Keeps init := h1.frame.foldl fun _ ht _ => ht.setMapByte
  exact h2.banksOff.banksOff.growAll.faultNotice.degrade

theorem State.Keeps.loseStack (h : s.Keeps init) {stack} : (s.loseStack stack).Keeps init := .ite h h.frameUnits.degrade

theorem State.Keeps.loseQuad (h : s.Keeps init) {q} : (s.loseQuad q).Keeps init := by
  unfold State.loseQuad
  extract_lets s1
  have h1 : s1.Keeps init := h.foldl fun _ ht _ => .ite ht.sigStop.setSig ht
  exact h1.frameUnits.banksOff.degrade

theorem State.Keeps.guardedLost (h : s.Keeps init) {row unit} : (s.guardedLost row unit).Keeps init := by
  unfold State.guardedLost
  split
  · split
    · exact h.linkDown
    · exact h
  · exact h.loseStack
  · exact .ite (.ite h.loseCanton h) (.ite h h.loseQuad)
  · exact h

/-! ### Power loss (R536) -/

theorem State.Keeps.abandonPersists (h : s.Keeps init) : s.abandonPersists.Keeps init :=
  (h.foldl fun _ ht _ => ht.setOd.reply).frameUnits

/-! ### Resets (R548 to R551) -/

/-- Where the clocks run now they ran before. -/
theorem State.Keeps.running (h : s.Keeps init) (hs : ¬ s.power.stopped = true) : ¬ init.power.stopped = true :=
  fun hi => hs (h.trip hi).1

theorem State.afterPorst_power_straps (s : State) (n : Nat) : (s.afterPorst n).power.straps = n := by
  unfold State.afterPorst
  dsimp only
  split <;> rfl

theorem State.afterPorst_host_journal (s : State) (n : Nat) : (s.afterPorst n).host.journal = s.host.journal := by
  unfold State.afterPorst
  dsimp only
  split <;> rfl

theorem State.Keeps.holdBanksOff (h : s.Keeps init) : s.holdBanksOff.Keeps init := by
  unfold State.holdBanksOff
  extract_lets s1 lost s2
  have h1 : s1.Keeps init := h.foldl fun _ ht _ => ht.banksOff
  have h2 : s2.Keeps init := h1.foldl fun _ ht _ => ht.banksOff.banksOff
  exact h2.foldl fun _ ht _ => ht.banksOff

/-- A warm reset does nothing while a trip stops the clocks. -/
theorem State.Keeps.execWarmrst (h : s.Keeps init) : LeavesKeeps init (execWarmrst s) := by
  unfold Machine.execWarmrst
  refine .next ?_
  split
  · exact h
  next hserves =>
  extract_lets _ _ _ _ _ s1
  have hrun : ¬ init.power.stopped = true := h.running fun hs => hserves (.inl hs)
  have h1 : s1.Keeps init := ⟨h.straps, fun hi => absurd hi hrun, h.journal⟩
  exact h1.holdBanksOff.setLevel

/-! ### Bring-up (R552 to R555) -/

theorem State.Keeps.execBootVerify (h : s.Keeps init) : LeavesKeeps init (execBootVerify s) := by
  unfold Machine.execBootVerify
  refine .next (.ite h ?_)
  extract_lets recover f _ _ g
  have hrecover {st : State} (ht : st.Keeps init) : (recover st).Keeps init := ht.frameUnits.setLevel
  have hf : f.2.Keeps init := h.takeFree
  have hg : g.2.Keeps init := hf.takeFree
  exact .ite (hrecover h) (.ite hf.frameUnits (.ite hg.takeFree.frameUnits (hrecover hg)))

theorem State.Keeps.fitAll (h : s.Keeps init) : s.fitAll.Keeps init := h.foldl fun _ ht _ => ht.applyPartition

theorem State.Keeps.setRail (h : s.Keeps init) {c} : (s.setRail c).Keeps init := h.frameUnits

theorem State.Keeps.startClocks (h : s.Keeps init) : s.startClocks.Keeps init := h.frameUnits.foldl fun _ ht _ => ht.setRail

/-- CROWN clears the flag of a trip that no longer stops the clocks. -/
theorem State.Keeps.crownUp (h : s.Keeps init) (hrun : ¬ init.power.stopped = true) : s.crownUp.Keeps init := by
  unfold State.crownUp
  extract_lets t s0 _ s1 s2
  have h0 : s0.Keeps init := h.faultNotice
  have h1 : s1.Keeps init := .ite ⟨h0.straps, fun hi => absurd hi hrun, h0.journal⟩ h
  have h2 : s2.Keeps init := .ite h1.warn h1
  exact .ite h2.warn h2

theorem State.Keeps.domainsBack (h : s.Keeps init) : s.domainsBack.Keeps init := h.frameUnits

theorem State.Keeps.cantonStart (h : s.Keeps init) {c} : (s.cantonStart c).Keeps init := .ite h h.frame

theorem State.Keeps.cantonsStart (h : s.Keeps init) : s.cantonsStart.Keeps init := h.foldl fun _ ht _ => ht.cantonStart

theorem State.Keeps.execServiceLevel (h : s.Keeps init) {ok} : LeavesKeeps init (execServiceLevel ok s) := by
  unfold Machine.execServiceLevel
  extract_lets _ s1
  have h1 : s1.Keeps init := .ite h h.frameUnits
  refine .next ?_
  split
  · exact h
  next hs =>
  split
  · exact .ite (h.frameUnits.setLevel.crownUp (h.running hs)) h
  · exact h1.setLevel.cantonStart.fitAll.startClocks
  · exact h1.setLevel.fitAll
  · exact h1.setLevel.cantonsStart.fitAll.startClocks
  · exact .ite h.domainsBack.setLevel.fitAll.startClocks h
  · exact h

/-! ### The power governor (R545 to R547) -/

theorem State.Keeps.relimit (h : s.Keeps init) {l f} : (s.relimit l f).Keeps init := h.frameUnits

theorem State.Keeps.lowerCanton (h : s.Keeps init) {c} : (s.lowerCanton c).Keeps init := h.relimit

theorem State.Keeps.raiseCanton (h : s.Keeps init) {c} : (s.raiseCanton c).Keeps init := h.relimit

theorem State.Keeps.timingBreak (h : s.Keeps init) {k} : (s.timingBreak k).Keeps init := h.countDev.warn

theorem State.Keeps.noteBreaks {old : State} (h : s.Keeps init) : (s.noteBreaks old).Keeps init :=
  h.foldl fun _ ht _ => ht.timingBreak

theorem State.Keeps.execGovernorTick (h : s.Keeps init) {pkg10us pkg100ms canton100us} :
    LeavesKeeps init (execGovernorTick pkg10us pkg100ms canton100us s) := by
  unfold Machine.execGovernorTick
  extract_lets calm n _ s1 s2 s3 s4 s5
  have h1 : s1.Keeps init := h.frameUnits.setOd
  have h2 : s2.Keeps init := .ite h1.relimit h1
  have h3 : s3.Keeps init := by
    unfold s3
    refine .ite ?_ h2
    split
    · exact h2.lowerCanton
    · exact h2
  have h4 : s4.Keeps init := h3.foldl fun _ ht _ => ht.lowerCanton
  have h5 : s5.Keeps init := .ite (h4.foldl fun _ ht _ => ht.raiseCanton) h4
  exact .next (.ite h h5.noteBreaks)

theorem State.Keeps.setFreq (h : s.Keeps init) {p f} : (s.setFreq p f).Keeps init := h.frameUnits.setRail

/-! ### Thermal limits (R556 to R558) -/

theorem State.Keeps.execThermalRead (h : s.Keeps init) {readings} : LeavesKeeps init (execThermalRead readings s) := by
  unfold Machine.execThermalRead
  extract_lets r c s1 _ s2
  have h1 : s1.Keeps init := h.setOd
  have h2 : s2.Keeps init := h1.frameUnits
  exact .next (.ite h (.ite (.ite h2 h2.warn) (.ite h1.frameUnits.info h1)))

theorem State.Keeps.execThermalTrip (h : s.Keeps init) : LeavesKeeps init (execThermalTrip s) := by
  unfold Machine.execThermalTrip
  refine .next ?_
  split
  · exact h
  next hs => exact ⟨h.straps, fun hi => absurd hi (h.running hs), h.journal⟩

/-! ### HBM refresh (R288, R290) -/

theorem State.Keeps.breakFreq (h : s.Keeps init) {k} : (s.breakFreq k).Keeps init := h.takeFree.relimit.timingBreak

theorem State.Keeps.execHbmRefresh (h : s.Keeps init) {stack} : LeavesKeeps init (execHbmRefresh stack s) := by
  unfold Machine.execHbmRefresh
  extract_lets owed put
  have hput (n : Nat) : (put s n).Keeps init := h.frameUnits
  refine .next ?_
  split
  · exact hput 0
  · exact .ite (State.Keeps.ite (hput 0) (hput 0).countGap).needPart
      (.ite (hput _).countDev.needPart (.ite h.breakFreq h))

theorem State.Keeps.decodeVop (h : s.Keeps init) {p off cmd} : (decodeVop p off s cmd).Keeps init :=
  .ite .stall (h.seqRead fun _ ht => .orFault (.ok ht.setCore.pump))

theorem State.Keeps.vopRow (h : s.Keeps init) {p sub} : (s.vopRow p sub).Keeps init :=
  h.decodeCmd fun _ ht _ => .ite ht.decodeVop .stall

theorem State.Keeps.scatterRow (h : s.Keeps init) {p modes} : (s.scatterRow p modes).Keeps init :=
  h.decodeCmd fun _ ht _ => .ite ht.decodeVop .stall

/-! ### SETVL (R132) -/

theorem State.Keeps.decodeSetvl (h : s.Keeps init) {p cmd} : (decodeSetvl p s cmd).Keeps init := .orFault (.ok h.setCore)

/-! ### DIGEST (R256, R257) -/

theorem State.Keeps.decodeFold (h : s.Keeps init) {p off cmd} : (decodeFold p off s cmd).Keeps init := by
  dsimp only [Machine.decodeFold]
  refine .ite .stall ?_
  split
  · exact .orFault .stall
  · exact h.seqRead fun _ ht => .orFault (.ok ht.setCore.pump)

theorem State.Keeps.decodeStore (h : s.Keeps init) {p off cmd} : (decodeStore p off s cmd).Keeps init := by
  dsimp only [Machine.decodeStore]
  refine .ite .stall ?_
  split
  · exact .orFault .stall
  · exact .orFault (.ok h.setCore.pump)

end Sys2Proof.Machine
end

section
/-! SUPPORT. Straps, trip and journal are kept by every command but PORST# and a fall of PWR_GOOD (R549, R551, R558). -/

namespace Sys2Proof.Machine

variable {init s : State}

/-! ### Every command -/

/-- Every command but those two keeps straps, trip and journal, each row by the rules of the operations it is made of. -/
theorem State.Keeps.exec (h : s.Keeps init) (c : Instr) (hporst : ∀ x, c ≠ .porst x) (hfall : c ≠ .pwrGoodFall) :
    LeavesKeeps init (exec c s) :=
  match c with
  | .wload _ => .next (h.decodeCmd fun _ ht _ => ht.decodeWload)
  | .wloadQueuedStart _ => .next h.startWload.pump
  | .shadowComplete _ => h.execShadowComplete
  | .mpass _ => .next (h.decodeCmd fun _ ht _ => ht.decodeMpass)
  | .feederFill _ _ => h.execFeederFill
  | .rowIssue _ => h.execRowIssue
  | .swap _ => h.execSwap
  | .contributionLand _ _ => h.execContributionLand
  | .setg _ => .next (h.decodeCmd fun _ ht _ => ht.decodeSetg)
  | .drain _ => .next (h.decodeCmd fun _ ht _ => ht.decodeDrain)
  | .drainStart _ => h.execDrainStart
  | .drainRowRead _ _ => h.execDrainRowRead
  | .drainComplete _ => h.execDrainComplete
  | .setvl _ => .next (h.decodeCmd fun _ ht _ => ht.decodeSetvl)
  | .vopAdd _ | .vopSub _ | .vopMul _ | .vopFma _ | .vopMax _ | .vopMin _ | .vopAbs _ | .vopNeg _ | .vopAnd _ | .vopOr _
    | .vopXor _ | .vopShr _ | .vopCmpeq _ | .vopCmpne _ | .vopCmplt _ | .vopCmple _ | .vopCmpgt _ | .vopCmpge _
    | .vopSel _ | .vopCvt _ | .vopCvtq _ | .vopCsplit _ | .vopCjoin _ | .vopExp2 _ | .vopLog2 _ | .vopRcp _ | .vopRsqrt _
    | .vopSigmoid _ | .vopTanh _ | .vopGelu _ | .vopSmexp _ | .vopSumg _ | .vopRmax _ | .vopRmin _ | .vopArgmax _
    | .vopArgmin _ | .vopTopk _ | .vopTopkm _ | .vopRndu _ | .vopRndf _ | .vopGather _ => .next h.vopRow
  | .vopScatterStore _ | .vopScatterGridAdd _ | .vopScatterMax _ => .next h.scatterRow
  | .digestFold _ => .next (h.decodeCmd fun _ ht _ => .ite .stall ht.decodeFold)
  | .digestStore _ => .next (h.decodeCmd fun _ ht _ => .ite ht.decodeStore .stall)
  | .dma _ => h.execDma
  | .lite _ => .next (h.decodeCmd fun _ ht _ => ht.decodeLite)
  | .cuffWait _ => .next (h.decodeCmd fun _ ht _ => .semChecked ht.acquire)
  | .cuffSignal _ => .next (h.decodeCmd fun _ ht _ => .semChecked ht.releaseSem)
  | .semAcq _ => .next (h.decodeCmd fun _ ht _ => .semChecked ht.acquire)
  | .semRel _ => .next (h.decodeCmd fun _ ht _ => .semChecked ht.releaseSem)
  | .semAdd _ => .next (h.decodeCmd fun _ ht _ => .semChecked (.ite (.ok ht.holdAct) (.ite (ht.putRet fun _ hu =>
      .ok hu.semAdd) (.ok ht.semAdd))))
  | .semRead _ => h.execSemRead
  | .semGrant _ => h.execSemGrant
  | .loopCmd _ => .next (h.decodeCmd fun _ ht _ => ht.decodeLoop)
  | .endloop _ => .next (h.decodeCmd fun _ ht _ => ht.decodeEndloop)
  | .stepCmd _ => h.execStepCmd
  | .tileEnd _ => .next (h.decodeCmd fun _ ht _ => ht.decodeTileEnd)
  | .tileEndRetire _ => h.execTileEndRetire
  | .note _ => .next (h.decodeCmd fun _ ht _ => ht.decodeNote)
  | .halt _ => .next (h.decodeCmd fun _ ht _ => ht.decodeHalt)
  | .haltComplete _ => h.execHaltComplete
  | .faultedJobRelease _ => h.execFaultedJobRelease
  | .sequencerFetch _ => .next h.fetch
  | .memRead _ _ => .next h.upset.memCycle
  | .memWrite _ _ | .setWrite _ | .clrWrite _ => .next h.memCycle
  | .eccWriteBack _ => .next (.ite h.frame h)
  | .scrubRead _ _ => .next h.scrub
  | .scrubForcedRound _ _ => h.execScrubForcedRound
  | .masterAged _ _ _ => .next (.ite h h.frame)
  | .smallBankWait _ _ => .next h.countDev.warn
  | .scrubStarved _ _ => .next (.ite h h.setBank.countDev.warn)
  | .bankWakeDone _ => h.execBankWakeDone
  | .macroRetention _ _ => .next (.ite h.setBank h)
  | .bankStateWrite _ _ _ _ => .next h.write
  | .bankStateChange _ => h.execBankStateChange
  | .bankPowerUpDone _ => .next (.ite (.ite h.powerUp.release (.ite h.powerUp.setBank h.powerUp)) h)
  | .dmaDescriptorStart _ => h.execDmaDescriptorStart
  | .dmaCopy _ | .dmaFill _ | .dmaGadd _ => .next h.dmaStep
  | .dmaComplete _ => h.execDmaComplete
  | .liteDelivery _ => h.execLiteDelivery
  | .liteResponse _ => h.execLiteResponse
  | .partitionConfigWrite _ _ _ => .next h.write
  | .partitionCoreFreed _ => h.execPartitionCoreFreed
  | .jobStart _ => h.execJobStart
  | .timingLockWrite _ _ _ => .next h.write
  | .stateSave _ => .next (.ite h.latch.saveUnit h)
  | .stateRestore _ => h.execStateRestore
  | .borrowRequest => h.execBorrowRequest
  | .borrowHandover _ _ => h.execBorrowHandover
  | .borrowReturn _ => h.execBorrowReturn
  | .coreReassign _ => .next h.reassign
  | .arbitrationAged _ _ => .next h.frame
  | .collectorTake => h.execCollectorTake
  | .completionWrite => h.execCompletionWrite
  | .signalCoreRun _ _ _ | .signalCoreStop _ _ _ => .next h.write
  | .signalCoreStopped _ => .next (.ite h.setSig h)
  | .postBaseWrite _ _ _ => .next h.write
  | .vld _ | .vst _ => .next (h.issue fun _ ht _ => ht.sigVmem)
  | .vld2 _ => .next (h.issue fun _ ht _ => ht.sigVld2)
  | .accsum _ => .next (h.issue fun _ ht _ => ht.sigAccsum)
  | .cmac _ => .next (h.issue fun _ ht _ => ht.sigMac)
  | .cmacm _ => .next (h.issue fun _ ht _ => ht.sigCmacm)
  | .cdot3 _ | .rmac _ => .next (h.issue fun _ ht _ => ht.sigMac)
  | .accclr _ => .next (h.issue fun _ ht _ => ht.sigAccclr)
  | .accst _ => .next (h.issue fun _ ht _ => ht.sigAccst)
  | .accsv _ => .next (h.issue fun _ ht _ => ht.sigAccsv)
  | .accrs _ => .next (h.issue fun _ ht _ => ht.sigAccrs)
  | .valuAdd _ | .valuSub _ | .valuMin _ | .valuMax _ | .valuAbs _ | .valuNeg _ | .valuConj _ | .valuMulj _ | .valuSwap _
    | .valuShr _ | .valuShl _ | .valuAvg _ | .valuAnd _ | .valuOr _ | .valuXor _ | .valuBcast _
    | .valuMov _ => .next (h.issue fun _ ht _ => ht.sigValu)
  | .aaluAdd _ | .aaluSub _ | .aaluAnd _ | .aaluOr _ | .aaluXor _ | .aaluShl _ | .aaluShr _ | .aaluSra _ | .aaluMin _
    | .aaluMax _ | .aaluSlt _ => .next (h.issue fun _ ht _ => ht.sigAalu)
  | .lds _ | .sts _ => .next (h.issue fun _ ht _ => ht.sigScalar)
  | .li _ | .lih _ | .mts _ | .mfs _ => .next (h.issue fun _ ht _ => ht.sigMove)
  | .br _ => .next (h.issue fun _ ht _ => ht.sigBr)
  | .brl _ => .next (h.issue fun _ ht _ => ht.sigBrl)
  | .jr _ => .next (h.issue fun _ ht _ => ht.sigJr)
  | .rep _ => .next (h.issue fun _ ht _ => ht.sigRep)
  | .waitCmd _ => .next (h.issue fun _ ht _ => ht.sigWait)
  | .rti _ => .next (h.issue fun _ ht _ => ht.sigRti)
  | .signalCoreHalt _ => .next (h.issue fun _ ht _ => ht.sigHalt)
  | .post _ => .next (h.issue fun _ ht _ => ht.sigPost)
  | .postResponse _ => h.execPostResponse
  | .sacq _ => .next (h.issue fun _ ht _ => ht.sigSacq)
  | .srel _ => .next (h.issue fun _ ht _ => ht.sigSrel)
  | .interruptTaken _ => .next (.ite h.sigStop.setSig h)
  | .timer _ => .next (.ite h h.setSig.sigRaise)
  | .crownMessage _ => .next h.sigRaise
  | .cellConfigWrite _ _ _ => .next h.write
  | .cellStart _ => .next (.ite h.setCell h)
  | .slot => .next (.ite (h.frame.foldl fun _ ht _ => ht.openSlot).raiseAll h)
  | .symbol => .next (.ite h.raiseAll h)
  | .uPlaneFrame _ => h.execUPlaneFrame
  | .cPlaneFrame _ => .next (.ite h.emit h.countDev)
  | .windowTake _ _ => h.execWindowTake
  | .window _ _ => h.execWindow
  | .stageLate _ _ => h.execStageLate
  | .fbLatest _ => h.execFbLatest
  | .slotResultRecord _ _ => h.execSlotResultRecord
  | .codeBlockDecode _ => h.execCodeBlockDecode
  | .codeEngineRetired _ => .next (.ite h h.frame.faultNotice)
  | .dlSymbolSend _ _ _ _ _ _ => .next (.ite h ((h.foldl fun _ ht _ => ht.emit).foldl fun _ ht _ => ht.emit).frame)
  | .dlLate _ _ _ _ => .next (.ite h (.ite h.frame.countDev h.frame.countDev.frame.warn))
  | .farReachConfigWrite _ _ _ _ => .next (.ite h.write h)
  | .converter _ _ _ => .next (.ite h h.wr.wr.setSig.frame.sigRaise)
  | .frameDetect _ _ _ _ => h.execFrameDetect
  | .frameConfirm _ _ _ _ => h.execFrameConfirm
  | .symbolDemod _ _ _ _ _ => h.execSymbolDemod
  | .frLearnedLate _ _ => h.execFrLearnedLate
  | .pilotTrack _ _ _ _ => h.execPilotTrack
  | .frameEnd _ _ => h.execFrameEnd
  | .frameTimeout _ _ => .next (.ite h.dropRx.countDev h)
  | .agcUpdate _ => .next (.ite h (.ite h.frame (.ite h.frame (.ite h.frame h.frame))))
  | .noiseFloorUpdate _ _ => .next (.ite h.setOd h.setOd.setOd)
  | .frTransmit _ => h.execFrTransmit
  | .nodeOccurrence _ => .next (.ite h (.ite (.ite h.loseNode h) (.ite h.frame h)))
  | .nodeHeard _ _ => .next (.ite h.takeFree.setLedger.frame h)
  | .occurrenceEnd _ => h.execOccurrenceEnd
  | .beacon => .next (.ite h.takeFree.sendFrame h)
  | .joinFrame _ _ => .next (.ite h.raiseAt h)
  | .combineRecord _ _ _ => h.execCombineRecord
  | .combineWait _ _ => h.execCombineWait
  | .frJesd _ _ => .next (.ite h.frame.warn h)
  | .sysrefEdge => .next h.frame
  | .nodeIdWrite _ _ | .routeTableWrite _ _ => .next h.write
  | .messageForward _ => .next (.ite h (.ite h.await (.ite h.malformed (.ite h.consume.unreachable h.consume.post))))
  | .fabricWrite _ => .next (h.serve fun _ ht => ht.writeAccess.post)
  | .fabricRead _ => .next (h.serve fun _ ht => .ite ht.readAccess.post ht.readAccess.post)
  | .fabricLite _ => .next (h.serve fun _ ht => .ite ht.post (.post (.ite ht.writeAccess.semAdd ht.writeAccess)))
  | .gadd _ => .next (h.serve fun _ ht => .ite ht.post ht.gaddWords.post)
  | .claim _ => h.execClaim
  | .rsp _ => h.execRsp
  | .staleRole _ _ => h.execStaleRole
  | .readData _ => h.execReadData
  | .freeMsg _ => h.execFreeMsg
  | .claimRetry _ => h.execClaimRetry
  | .heartbeat _ => .next (.ite h (h.take fun _ ht => ht.setPairVer))
  | .heartbeatSend _ => .next (.ite h.post h)
  | .heartbeatTimeout _ => .next (.ite h.dropNode h)
  | .mgmt _ _ => .next (.ite h (h.take fun _ ht => ht.access))
  | .lease _ => .next (.ite h (.ite (.ite h h.setLease.post) (.ite h (h.take fun _ ht =>
      .ite ht.setLease ht.setLease.tell))))
  | .stepDone _ => h.execStepDone
  | .commit _ => h.execCommit
  | .fence _ => h.execFence
  | .fenceRecovery _ _ _ => h.execFenceRecovery
  | .flitReceive _ _ => .next (.ite h (.ite h.setLink (h.setLink.foldl fun _ ht _ => ht.arrive)))
  | .linkCtl _ _ _ _ => .next (.ite h (.ite h.setLink.setLink (.linkPump (.ite h.setLink.replayLink h.setLink))))
  | .linkCtlSend _ => .next (.ite h.setLink.emit h)
  | .laneDrop _ _ => .next h.setLink.relane
  | .retrainComplete _ => .next (.ite h.repair.resumeLink h)
  | .laneTest _ _ _ => .next (.ite h (.ite h.setLink h.setLink.relane))
  | .linkTraining _ _ => h.execLinkTraining
  | .linkConfigWrite _ _ _ | .tunnelConfigWrite _ _ _ => .next h.write
  | .tunnelFrame _ _ => .next (.ite h (.ite h.countDev (.tunPump (.tunTake (.ite h.setTun.tunResend h.setTun)))))
  | .tunnelRto _ => .next (.ite h.tunResend h)
  | .tunnelDown _ => .next (.ite h.setTun.dropPort h)
  | .timebaseTick => .next (.ite h h.setNow)
  | .tbIncWrite _ _ | .tbStep _ _ | .tbSet _ _ => .next h.write
  | .tbAdjustApply => h.execTbAdjustApply
  | .scheduledInstant _ => .next (.ite h (.ite h.frame.countDev h.frame))
  | .tbRefLost => .next (.ite h.frame h.frame.warn)
  | .tbRefOk => .next (.ite h.frame.info h.frame)
  | .timeSourceWrite _ _ | .frameOffsetWrite _ _ => .next h.write
  | .fieldPortFrame _ => h.execFieldPortFrame
  | .portLinkUp _ _ _ => h.execPortLinkUp
  | .portLatencyWrite _ _ _ => .next h.write
  | .pktTxSend _ => h.execPktTxSend
  | .ppsInEdge _ => .next (.ite h.countDev h.frame)
  | .ppsOutEnd => .next h.frame
  | .timeRequest _ _ => .next (.ite h h.takeFree.emit)
  | .timeResponse _ _ => .next (.ite h (.ite h.frame.servoOffset h.frame))
  | .timeExchangeStart => .next (.ite h h.frame.emit)
  | .canRead _ _ | .canWrite _ _ | .writeStart _ _ | .segment _ _ | .nextBlock _ _ | .abortTransfer _ _ => .next h.frameRow
  | .transferTimeout _ => h.execTransferTimeout
  | .inBandDatagram _ => .next (.ite h.countDev h.access)
  | .odRead _ _ | .odWrite _ _ _ => .next h.mailRow
  | .dictionaryWrite _ _ _ _ _ => .next h.access
  | .persistComplete => h.execPersistComplete
  | .noticeSend _ => h.execNoticeSend
  | .journalAppend => .next h.appendJournal
  | .ringCfgWrite _ _ _ => h.execRingCfgWrite
  | .jobRingProd _ _ _ _ => .next (.ite h (.ite h.ringErr (h.setRing.foldl fun _ ht _ => ht.submit)))
  | .ringConsWrite _ _ _ => .next (.ite h (.ite h.ringErr h.setRing.ringOpened))
  | .msiXMessage _ _ => .next (.ite h (.ite h.setRing.msix h.setRing))
  | .suspend _ _ => .next (h.jobCtl fun _ => h.modJob.needAll.trySuspended)
  | .resume _ _ => .next (h.jobCtl fun _ => h.resumeJob.getD h.modJob)
  | .release _ _ => .next (h.jobCtl fun _ => h.completeJob.endJob)
  | .setprio _ _ => .next (h.jobCtl fun _ => h.modJob.completeJob)
  | .functionLevelReset _ => .next (.ite h.resetAllFunctions h.resetFunction)
  | .perst => h.execPerst
  | .bar2Access _ _ _ _ _ => .next (.ite h (.ite (.ite h.bar2Write h.countDev) (.ite h.takeFree.emit h.emit)))
  | .pktTxProd _ _ _ => .next (.ite h (.ite h.ringErr h.setRing))
  | .visorCountWrite _ _ _ _ | .visorSelectWrite _ _ _ _ => .next (.ite h.write h)
  | .visorHoldWrite _ _ | .safetyPartitionWrite _ _ => .next h.write
  | .mittenCompare _ => h.execMittenCompare
  | .voteRerunDone _ => h.execVoteRerunDone
  | .gauntletRotation _ => h.execGauntletRotation
  | .gauntletSwap _ => h.execGauntletSwap
  | .gauntletStalled _ => .next h.warn
  | .selfTestComplete _ _ => h.execSelfTestComplete
  | .checkerTest _ _ _ => .next (.ite h h.faultNotice.guardedLost)
  | .cantonLost _ => .next (.ite h.loseCanton h)
  | .crownRestart _ => .next (.ite (.faultNotice (.ite h.frame.setOd h.frame)) (.ite h.frame.setOd h.frame))
  | .pwrFail => .next (.ite h h.frameUnits.abandonPersists.faultNotice.appendJournal)
  | .pwrFailRelease => .next h.frameUnits
  | .install _ => .next h.write
  | .installDone => .next (.ite h (.ite (.ite h.frameUnits.setOd.setLevel h.frame.setOd) h.setOd))
  | .handover _ => .next h.write
  | .fwHandover => .next (.ite h (.ite h.frame.setOd.info.retrainAll h.frame.setOd.info))
  | .fwRevert => .next (.ite h h.frame.setOd.warn)
  | .confirm _ | .revert _ => .next h.write
  | .trialExpiry => .next (.ite h h.frame.setOd)
  | .porst x => absurd rfl (hporst x)
  | .warmrst => h.execWarmrst
  | .pwrGoodFall => absurd rfl hfall
  | .bootVerify => h.execBootVerify
  | .serviceLevel _ => h.execServiceLevel
  | .governorTick _ _ _ => h.execGovernorTick
  | .frequencyChange _ => .next (.ite h (.ite h.setFreq.modCoreAt h.setCore))
  | .powerCap _ => .next (.ite h.warn h)
  | .thermalRead _ => h.execThermalRead
  | .thermalThrottleStep => .next (.ite h.frameUnits h)
  | .thermalTrip => h.execThermalTrip
  | .alertRelease _ _ => .next h.write
  | .semaphoreCrownWrite _ _ _ => h.execSemaphoreCrownWrite
  | .hbmRefresh _ => h.execHbmRefresh
  | .railFault _ _ => .next h.faultNotice
  | .hbmStackLost _ => .next h.loseStack
  | .signalQuadLost _ => .next (.ite h h.loseQuad)
  | .portLinkDown _ => .next h.frame
  | .pcieLinkDown => .next h.frameUnits
  | .crownStateRestored => .next (.ite h (h.frameUnits.warn.foldl fun _ ht _ => ht.perform))
  | .frTxTailEnd => .next (.ite h.frame.sendDeferred h)
  | .cmdOpcode _ => h.execCmdOpcode
  | .vopSubop _ => .next (h.decodeCmd fun _ ht _ => .ite .stall ht.decodeVop)
  | .sigOpcode _ => .next (h.issue fun _ _ _ => .fault)
  | .tap _ _ => .next (.frame (.ite h.takeFree h))

end Sys2Proof.Machine

namespace Sys2Proof.Claims
open Machine

/-- Settles O4: every command but PORST# and a fall of PWR_GOOD keeps straps, trip and journal; those two keep the journal, and the
fall the straps. -/
theorem onlyResetsUndo : Obligations.OnlyResetsUndo := by
  refine ⟨fun c s t hporst he => ?straps, fun c s t hstop hporst hfall he => ?trip, fun c s t he => ?journal⟩
  case straps =>
    by_cases hfall : c = .pwrGoodFall
    · subst hfall
      obtain rfl := Host.Outcome.next.inj he
      exact s.afterPorst_power_straps _
    · exact ((State.Keeps.refl s).exec c hporst hfall t he).straps
  case trip => exact ((State.Keeps.refl s).exec c hporst hfall t he).trip hstop
  case journal =>
    by_cases hfall : c = .pwrGoodFall
    · subst hfall
      obtain rfl := Host.Outcome.next.inj he
      rw [s.afterPorst_host_journal]
    · by_cases hporst : ∃ x, c = .porst x
      · obtain ⟨x, rfl⟩ := hporst
        obtain rfl := Host.Outcome.next.inj he
        rw [s.afterPorst_host_journal]
      · exact ((State.Keeps.refl s).exec c (fun x hx => hporst ⟨x, hx⟩) hfall t he).journal

end Sys2Proof.Claims
end
